-- ==== Sys2Proof/Word.lean ====
section
/-!
DEFINITION. The word types of the model and the sparse table every large piece of state is held in.
-/

namespace Sys2Proof

/-- A register of the core controller or of the configuration window (R2, R30). -/
abbrev Word := BitVec 64

/-- A byte of scratch, device memory or flash. -/
abbrev Byte := BitVec 8

/-- A number of a general register g0 to g31 (R30). -/
abbrev Reg := BitVec 5

/-- A number of a predicate register p0 to p7 (R30). -/
abbrev PReg := BitVec 3

/-- A sparse table: keys strictly rising, and no entry that holds the default of its key.
A missing key holds that default. -/
abbrev SMap (α : Type) := List (Nat × α)

/-- Four 64-bit words: an engine command, or the payload of a short message (R31, R79). -/
structure Quad where
  w0 : Word
  w1 : Word
  w2 : Word
  w3 : Word
  deriving DecidableEq, Repr

end Sys2Proof
end

