-- ==== Sys2Proof/Syntax.lean ====
section
/-!
DEFINITION. The commands of the PL9240 block: one constructor of `Instr` per row of
spec/opcode_table.json, with the operands the spec gives the row. Where a row reports something the
outside world decides (whether a word carried a parity error, what a host answered, what a sensor
measured), that outcome is an operand (log entry 7).
-/

namespace Sys2Proof

/-- A core position: compute die, core row and PHYSICAL column (R29, R163). -/
structure CoreId where
  die : Fin 8
  row : Fin 16
  col : Fin 18
  deriving DecidableEq, Repr

/-- What bits [31:28] of an instruction word say, which core issues it, and whether its
program-store word met a parity error (R32, R33, R58). -/
structure Issue where
  core : CoreId
  pn : Bool
  pr : PReg
  parity : Bool
  deriving DecidableEq, Repr

/-- What SECDED says of a read: clean, one bit corrected, or uncorrectable (R58, R78, R226). -/
inductive Ecc where
  | ok | corrected | uncorrectable
  deriving DecidableEq, Repr

/-- A processor with an interrupt controller: a core controller, a die controller, or stag core 0 to
3, of which 0 and 1 are stag A's (R413, R427). -/
inductive Proc where
  | core (c : CoreId)
  | die (d : Fin 8)
  | stag (u : Fin 4)
  deriving DecidableEq, Repr

/-- A boundary at which a processor may take an interrupt, and the events without a row that arrive at it (log entry
79). -/
structure Boundary where
  proc : Proc
  arrive : List (Fin 80)
  deriving DecidableEq, Repr

/-- An engine of a core by its number: 0 kudu, 1 oryx, 2 gazelle, 3 impala, 4 eland, 5 saiga,
6 springbok (R35). -/
abbrev Eng := Fin 7

/-- What the stack and device SECDED say of one 64 B line read: clean, corrected on die, corrected
by SECDED on a lane, or uncorrectable (R226, R232). -/
inductive LineRead where
  | ok | onDie | corrected (lane : Nat) | uncorrectable
  deriving DecidableEq, Repr

/-- A packet of the mesh, of the Chomet base and of the fabric: the header fields of R176, R201, R266
and R314. `data` holds the bytes themselves, from the one at `addr`; `poison` the indices of 64 B
lines that are marked poisoned. `host` and `hc` say that a memory request goes to host memory, and
whether it asks for a line copy (R236, R333); `inc` is the counter that the last packet of a CPUT
increments (R117); `packed` says that its data is piece `n` of the packed stream of an entry, and whether it is the
last piece (R120); `rank` the job-local rank of a message's sender (R50), `lcol` and `dcol` the logical columns of its source and destination cores
(R274); `hdr` is what the header check of the receiver says (R193). -/
structure Pkt where
  type : Nat
  srcDev : Nat
  srcDie : Nat
  srcRow : Nat
  srcCol : Nat
  dstDev : Nat
  dstDie : Nat
  dstRow : Nat
  dstCol : Nat
  tag : Nat
  job : Nat
  epoch : Bool
  mc : Nat
  mcLast : Nat
  red : Nat
  ctx : Nat
  aux : Nat
  chunk : Nat
  addr : Nat
  host : Bool
  hc : Bool
  inc : Option Nat
  packed : Option (Nat × Nat × Bool)
  rank : Nat
  lcol : Nat
  dcol : Nat
  data : List Byte
  poison : List Nat
  t0 : Nat
  xack : Option (Nat × Nat)
  relay : Bool
  ordered : Bool
  hdr : Ecc
  fixed : Nat
  void : Bool
  skip : Bool
  err : Bool
  deriving DecidableEq, Repr

/-- The compute dies, stops, ports and stacks of the device (R13). -/
abbrev Die := Fin 8
abbrev Stop := Fin 28
abbrev Port := Fin 12
abbrev Stack := Fin 12

/-- One sequenced flit that a port link carries (R265, R266): ftype is 1 HEAD, 2 BODY, 3 TAIL, 4 SINGLE; `data` is its
64 B of payload, and the packet stands in its head flit. -/
structure Flit where
  dst : Nat
  src : Nat
  vn : Nat
  vc : Nat
  ftype : Nat
  seq : Nat
  stomp : Bool
  epoch : Bool
  data : List Byte
  pkt : Option Pkt
  deriving DecidableEq, Repr

/-- Does a flit begin a packet, and does it end one? -/
def Flit.head (f : Flit) : Bool := decide (f.ftype = 1) || decide (f.ftype = 4)
def Flit.tail (f : Flit) : Bool := decide (f.ftype = 3) || decide (f.ftype = 4)

/-- What a receiver found of a flit: good, a CRC error, or a CRC error as the first flit of an
uncorrectable codeword that carries so many sequenced flits more (R264, R269). -/
inductive FlitCheck where
  | good | crc | codeword (more : Nat)
  deriving DecidableEq, Repr

/-- An output that the holder stag sends and mirrors (R433, R434): an event report, which waits at the host
stop already, the throttle output for a core, or a management message. -/
inductive StagOut where
  | event
  | throttle (c : CoreId) (p : Fin 64)
  | message (dst code a b : Nat)
  deriving DecidableEq, Repr

/-- What a transfer of an image carries beside its blocks (R488, R490): an identifier, the number of blocks,
whether it came over the CHAIN pair, the list, the position of the receiver and at_time. -/
structure ChainHead where
  id : Nat
  total : Nat
  wire : Bool
  list : List Nat
  pos : Nat
  atTime : Nat
  deriving DecidableEq, Repr

/-- A step of a transfer over the fabric (R489): a block arrives, or the next device acknowledges or refuses
the block sent last. -/
inductive ChainStep where
  | received (h : ChainHead) (block : Nat) (data : List Byte)
  | acked (ok : Bool)
  deriving DecidableEq, Repr

/-- A measurement of a ring (R400): the tone's peak in percent of the amplitude expected, the set-point and
the lock target. -/
structure RingMeas where
  peak : Nat
  set : Nat
  target : Nat
  deriving DecidableEq, Repr

/-- A measurement of a channel (R398, R400): its filter and its modulator ring, taps, eye opening in percent, the
bias of its source in 10 µA, and that source's output less its target in 0.01 dB. -/
structure CalMeas where
  filt : RingMeas
  mod : RingMeas
  taps : BitVec 64
  eye : Nat
  bias : Nat
  out : Int
  deriving DecidableEq, Repr

/-- Quality figures of a channel (R402): bit error ratio m × 10^-e, 0 for no error seen, received power in
0.01 dBm, locked, in service. -/
structure QualMeas where
  man : Nat
  exp : Nat
  power : Int
  lock : Bool
  inService : Bool
  deriving DecidableEq, Repr

/-- What the start-up of a die finds beside its cores (R171, R192, R544): the routers that fail the test; the mesochronous segments, as bits of
DIE_MESH_SEG_H and DIE_MESH_SEG_V, unless one has no mode in margin; and the voltage set for its supply, in steps of 2 mV
above 0.60 V (R544: up to 0.80 V), unless the regulator did not answer three attempts. -/
structure DieTest where
  routers : List CoreId
  deskew : Option (List (Fin 272) × List (Fin 270))
  avs : Option (Fin 101)
  deriving DecidableEq, Repr

/-- What a start-up finds (R164, R214, R231): cores that fail the die start-up test; lane groups (by 40 × die + group)
with the eye margins measured, in % of a unit interval, of their wires below 100 %: data wires 0 to 127, spare wires
128 to 131, an open or shorted wire at 0; memory lanes that fail the test of training, by stack, pseudo-channel and lane,
and stacks that fail training; rings
that the search fails (R393); the dies whose mesh or supply is not as reset
leaves it; and whether the identity key is reconstructed (R502). -/
structure StartUp where
  cores : List CoreId
  groups : List (Nat × List (Nat × Nat))
  lanes : List (Nat × Nat × Nat)
  untrained : List Stack
  rings : List Nat
  dies : List (Die × DieTest)
  identity : Bool
  deriving DecidableEq, Repr

/-- A gather starts, and what SECDED said of its list (R78). -/
structure GatherStart where
  core : CoreId
  ecc : Ecc
  deriving DecidableEq, Repr

/-- An engine completes a command, and whether a word that it read needed a correction (R78). -/
structure EngEnd where
  eng : Eng
  corrected : Bool
  deriving DecidableEq, Repr

/-- What an engine met: an uncorrectable scratch word, after so many units more and at an address; and whether the write
of the fault record went well (R78, R124). -/
structure FaultSeen where
  ecc : Option (Nat × Nat)
  recOk : Bool
  deriving DecidableEq, Repr

/-- What a command that walks page tables brings: lines read from host memory, by address / 64, and what SECDED says of
lines of device memory that it reads. -/
structure Reads where
  tabs : List (Nat × List Byte)
  ecc : List (Nat × LineRead)
  deriving DecidableEq, Repr

/-- What the receiver finds in a Nogar codeword: whether its CRC is good, whether the RS code failed, how many messages
of reserved type it carries, and how many of REQ, RSP and SNP (R329, R331). -/
structure NogarCheck where
  crcOk : Bool
  lost : Bool
  reserved : Nat
  req : Nat
  rsp : Nat
  snp : Nat
  deriving DecidableEq, Repr

/-- What a TRAIN flit reports beside the device: its port, its FAB_TOPO digest and its lane map (R270). -/
structure TrainReport where
  port : Nat
  digest : Nat
  lanes : BitVec 18
  deriving DecidableEq, Repr

/-- What a receiver found of a Bolmin frame: its CRC, and how many of its four codewords were uncorrectable (R367,
R385). -/
structure BolCheck where
  crcOk : Bool
  fec : Nat
  deriving DecidableEq, Repr

/-- The commands of the block, one constructor per row of the opcode table. -/
inductive Instr where
  -- Core controller instructions (R37)
  | add (i : Issue) (rd rs1 rs2 : Reg)
  | sub (i : Issue) (rd rs1 rs2 : Reg)
  | and (i : Issue) (rd rs1 rs2 : Reg)
  | or (i : Issue) (rd rs1 rs2 : Reg)
  | xor (i : Issue) (rd rs1 rs2 : Reg)
  | shl (i : Issue) (rd rs1 rs2 : Reg)
  | shr (i : Issue) (rd rs1 rs2 : Reg)
  | sra (i : Issue) (rd rs1 rs2 : Reg)
  | mul (i : Issue) (rd rs1 rs2 : Reg)
  | mulhu (i : Issue) (rd rs1 rs2 : Reg)
  | mulh (i : Issue) (rd rs1 rs2 : Reg)
  | min (i : Issue) (rd rs1 rs2 : Reg)
  | max (i : Issue) (rd rs1 rs2 : Reg)
  | minu (i : Issue) (rd rs1 rs2 : Reg)
  | maxu (i : Issue) (rd rs1 rs2 : Reg)
  | clz (i : Issue) (rd rs1 rs2 : Reg)
  | popc (i : Issue) (rd rs1 rs2 : Reg)
  | divu (i : Issue) (rd rs1 rs2 : Reg)
  | remu (i : Issue) (rd rs1 rs2 : Reg)
  | addi (i : Issue) (rd rs1 : Reg) (imm : BitVec 12)
  | andi (i : Issue) (rd rs1 : Reg) (imm : BitVec 12)
  | ori (i : Issue) (rd rs1 : Reg) (imm : BitVec 12)
  | xori (i : Issue) (rd rs1 : Reg) (imm : BitVec 12)
  | shli (i : Issue) (rd rs1 : Reg) (imm : BitVec 12)
  | shri (i : Issue) (rd rs1 : Reg) (imm : BitVec 12)
  | srai (i : Issue) (rd rs1 : Reg) (imm : BitVec 12)
  | ldh (i : Issue) (k : BitVec 2) (rd : Reg) (z : Bool) (imm : BitVec 16)
  | cmp (i : Issue) (pd : PReg) (rs1 rs2 : Reg) (cond : BitVec 4) (resHi : BitVec 2) (resLo : BitVec 3)
  | cmpi (i : Issue) (pd : PReg) (cond : BitVec 4) (rs1 : Reg) (imm : BitVec 10)
  | plog (i : Issue) (pd pa pb : PReg) (fn : BitVec 3) (res : BitVec 10)
  | pmovRead (i : Issue) (rd rs1 rs2 : Reg)
  | pmovWrite (i : Issue) (rd rs1 rs2 : Reg)
  | ldB (i : Issue) (rd rs1 : Reg) (imm : BitVec 12) (ecc : Ecc)
  | ldH (i : Issue) (rd rs1 : Reg) (imm : BitVec 12) (ecc : Ecc)
  | ldW (i : Issue) (rd rs1 : Reg) (imm : BitVec 12) (ecc : Ecc)
  | ldD (i : Issue) (rd rs1 : Reg) (imm : BitVec 12) (ecc : Ecc)
  | ldBu (i : Issue) (rd rs1 : Reg) (imm : BitVec 12) (ecc : Ecc)
  | ldHu (i : Issue) (rd rs1 : Reg) (imm : BitVec 12) (ecc : Ecc)
  | ldWu (i : Issue) (rd rs1 : Reg) (imm : BitVec 12) (ecc : Ecc)
  | stB (i : Issue) (rd rs1 : Reg) (imm : BitVec 12)
  | stH (i : Issue) (rd rs1 : Reg) (imm : BitVec 12)
  | stW (i : Issue) (rd rs1 : Reg) (imm : BitVec 12)
  | stD (i : Issue) (rd rs1 : Reg) (imm : BitVec 12)
  | br (i : Issue) (off : BitVec 22)
  | call (i : Issue) (off : BitVec 22)
  | jr (i : Issue) (rd rs1 : Reg) (imm : BitVec 12)
  | callr (i : Issue) (rd rs1 : Reg) (imm : BitVec 12)
  | dbnz (i : Issue) (rs1 : Reg) (off : BitVec 17)
  | iss (i : Issue) (eng : BitVec 3) (rq : Reg) (try_ : Bool) (pd : PReg) (res : BitVec 10)
  | issStallEnd (c : CoreId)
  | qwait (i : Issue) (eng : BitVec 3) (cnt : BitVec 4) (rs1 : Reg) (res : BitVec 10)
  | wait (i : Issue) (r : Reg) (cnt : BitVec 4) (imm : BitVec 13)
  | waitComplete (c : CoreId)
  | cntRd (i : Issue) (r : Reg) (cnt : BitVec 4) (imm : BitVec 13)
  | cntWr (i : Issue) (r : Reg) (cnt : BitVec 4) (imm : BitVec 13)
  | cntAdd (i : Issue) (r : Reg) (cnt : BitVec 4) (imm : BitVec 13)
  | sndMsg (i : Issue) (rd rs1 rs2 : Reg) (fn : BitVec 7)
  | rcvMsg (i : Issue) (rd rs1 rs2 : Reg) (fn : BitVec 7)
  | rcvMsgStallEnd (c : CoreId)
  | csrRd (i : Issue) (rd rs1 : Reg) (csr : BitVec 12)
  | csrWr (i : Issue) (rd rs1 : Reg) (csr : BitVec 12)
  | csrSet (i : Issue) (rd rs1 : Reg) (csr : BitVec 12)
  | csrClr (i : Issue) (rd rs1 : Reg) (csr : BitVec 12)
  | syncI (i : Issue) (rd rs1 rs2 : Reg)
  | sleep (i : Issue) (rd rs1 rs2 : Reg)
  | trap (i : Issue) (rd rs1 rs2 : Reg)
  | eret (i : Issue) (rd rs1 rs2 : Reg)
  | halt (i : Issue) (rd rs1 rs2 : Reg)
  | ebrk (i : Issue) (rd rs1 rs2 : Reg)
  -- Interrupts, and writes of the core's CSRs by the die controller (R59 to R72)
  | interruptTake (b : Boundary)
  | clockRestart (p : Proc)
  | coreTimerFire (c : CoreId)
  | coreSystimeFire (c : CoreId)
  | coreCtlWrite (c : CoreId) (val : Word)
  | coreFrameDepthWrite (c : CoreId) (val : Word)
  | coreFrameTopWrite (c : CoreId) (val : Word)
  | coreIntSwsetWrite (c : CoreId) (val : Word)
  | coreIntPendClear (c : CoreId) (val : Word)
  | coreTimerCmpWrite (c : CoreId) (val : Word)
  | coreSystimeCmpWrite (c : CoreId) (val : Word)
  | coreCntIrqWrite (c : CoreId) (n : Fin 16) (val : Word)
  -- Engines (R84, R89 to R126)
  | engMark (c : CoreId) (eng : Eng)
  | engFrec (c : CoreId) (eng : Eng)
  | engSeed (c : CoreId) (eng : Eng)
  | kuduMma (c : CoreId)
  | oryxAdd (c : CoreId)
  | oryxSub (c : CoreId)
  | oryxMul (c : CoreId)
  | oryxFma (c : CoreId)
  | oryxMin (c : CoreId)
  | oryxMax (c : CoreId)
  | oryxAffine (c : CoreId)
  | oryxClamp (c : CoreId)
  | oryxAbs (c : CoreId)
  | oryxRsum (c : CoreId)
  | oryxRmax (c : CoreId)
  | oryxRmin (c : CoreId)
  | oryxRamax (c : CoreId)
  | oryxRdot (c : CoreId)
  | oryxRsumsq (c : CoreId)
  | gazelleEval (c : CoreId)
  | gazelleSoftmax (c : CoreId)
  | gazelleRmsnorm (c : CoreId)
  | gazelleLnorm (c : CoreId)
  | gazelleTload (c : CoreId)
  | impalaGather (c : CoreId)
  | impalaScatter (c : CoreId)
  | impalaScatadd (c : CoreId)
  | impalaRlist (c : CoreId)
  | elandCvt (c : CoreId)
  | elandXpose (c : CoreId)
  | elandCopy (c : CoreId)
  | elandFill (c : CoreId)
  | elandMxscale (c : CoreId)
  | saigaPack (c : CoreId)
  | saigaUnpack (c : CoreId)
  -- springbok (R117 to R126)
  | springbokGet (c : CoreId)
  | springbokPut (c : CoreId)
  | springbokCput (c : CoreId)
  | springbokGather (g : GatherStart)
  | springbokAtom (c : CoreId)
  | springbokPload (c : CoreId)
  | springbokColl (c : CoreId)
  | springbokSndMsg (c : CoreId)
  | springbokRequestIssue (c : CoreId) (ecc : Ecc)
  | waitTokenRelease (c : CoreId) (eng : Eng)
  | commandComplete (c : CoreId) (e : EngEnd)
  | engineFault (c : CoreId) (eng : Eng) (f : FaultSeen)
  | engineRestartPoint (c : CoreId) (eng : Eng) (k : Nat)
  | mailboxTimeout (c : CoreId) (slot : Fin 16)
  | springbokGuardTimeout (c : CoreId) (slot : Fin 16)
  -- Device memory (R221 to R233)
  | memRd (p : Pkt) (ecc : List LineRead)
  | memWr (p : Pkt) (ecc : List LineRead)
  | memAtom (p : Pkt) (ecc : List LineRead)
  | hbmLaneRepaired (st : Stack) (ch : Fin 16) (lane : Nat)
  | hbmRefresh (st : Stack) (pc : Fin 32)
  -- Packets that arrive on a die's mesh (R163 to R193)
  | memRdData (p : Pkt)
  | memAck (p : Pkt)
  | cput (p : Pkt)
  | cputAck (p : Pkt)
  | msg (p : Pkt)
  | msgAccept (p : Pkt)
  | msgRefuse (p : Pkt)
  | status (p : Pkt)
  | tailAck (p : Pkt)
  | psWr (p : Pkt)
  | csrRdRequest (p : Pkt)
  | csrWrRequest (p : Pkt)
  | mgtRsp (p : Pkt)
  | red (r : CoreId) (inp : Fin 5) (p : Pkt)
  | mcast (r : CoreId) (p : Pkt)
  -- Translation (R234 to R245)
  | walkEntryRead (c : CoreId) (ecc : LineRead) (hostStatus : Nat) (host : List Byte)
  | faultTimeout (faultId : Nat)
  | mmuFaultTimeoutWrite (val : Word)
  | mmuInvWrite (val : Word)
  | invalidationDone (index : Nat)
  -- The Chomet base (R195 to R217): control words name their sender; measured counts are operands
  | burstStart (w : Stop) (readers : List Stop) (pkts : List Pkt)
  | announce (at_ from_ : Stop) (word : Word)
  | winReq (at_ from_ : Stop) (word : Word)
  | winGrant (at_ from_ : Stop) (word : Word)
  | winRelease (at_ from_ : Stop) (word : Word)
  | chometAck (at_ from_ : Stop) (word : Word)
  | chometNak (at_ from_ : Stop) (word : Word)
  | map (at_ from_ : Stop) (word : Word)
  | winReqRetry (w r : Stop)
  | windowIdleRelease (w r : Stop)
  | chometPacket (r w : Stop) (seq : Nat) (crcOk : Bool) (p : Pkt)
  | chometResendTimeout (w r : Stop) (seq : Nat)
  | seamBridgeDown (monitors : BitVec 4)
  | seamBridgeUp (goodSince : Nat) (cleared : List (Stop × Nat))
  | seamWireSpared (dir : Fin 2) (corrections : Nat)
  | seamWireFailed (dir : Fin 2) (goodWires : Nat)
  | vliWireSpared (d : Die) (g : Fin 40) (wire : Nat) (corrections : Nat)
  | vliGroupFailed (d : Die) (g : Fin 40) (crcErrors : Nat) (fifth : Bool)
  | vliGroupRetired (d : Die) (g : Fin 40)
  -- Pre-emption and resume (R246 to R254); `tabs` are lines read from host memory, by address / 64, `ecc` what SECDED
  -- says of lines of device memory that are read
  | preempt (d : Die)
  | preemptDone (d : Die) (rd : Reads)
  | resume (d : Die) (rd : Reads)
  | resumeDone (d : Die) (rd : Reads)
  -- Port links and routing (R264 to R284); `good` are the wavelengths found good
  | linkTrainingStart (p : Port) (good : BitVec 18)
  | trainFlit (p : Port) (dev : Nat) (r : TrainReport)
  | linkFlit (p : Port) (f : Flit) (check : FlitCheck) (ack : Option Nat) (crIdx crCnt : Nat)
  | flitNak (p : Port) (seq : Nat)
  | replayTimeout (p : Port)
  | replayStall (p : Port)
  | retrainTimeout (p : Port)
  | retrainComplete (p : Port) (good : BitVec 18) (expect : Nat)
  | lossOfLight (p : Port) (since : Nat)
  | routePacket (stop : Fin 4) (inject : Option Pkt)
  | relayForward
  | fence (p : Pkt)
  | unfence (p : Pkt)
  | portCmdRetrain (p : Port)
  | portCmdDisable (p : Port)
  | portCmdEnable (p : Port)
  -- Congestion maps and time (R293 to R298)
  | cmapSample (stop : Fin 4)
  | cmapWindowEnd
  | cmap (p : Pkt)
  | timeExchangeStart (p : Port)
  | time (port : Port) (p : Pkt)
  | alignmentTimeout
  -- Collective contexts (R285 to R292)
  | ctxReady (p : Pkt)
  | ctxAbort (p : Pkt)
  | collectiveChunk (ctx : Fin 64) (p : Pkt) (last : Bool) (freedDown freedUp : Nat)
  | colCtxCmdAbort (ctx : Fin 64)
  | colCtxCmdRearm (ctx : Fin 64)
  -- The transport (R313 to R325)
  | transportReply (p : Pkt)
  | replayTableLookup (p : Pkt)
  | replayTableStore (p : Pkt)
  | xack (p : Pkt)
  | transportTimeout (c : CoreId) (slot : Fin 16)
  | retryLaterResend (c : CoreId) (slot : Fin 16)
  | xackTimer (d : Die) (dev : Nat)
  | replayEntryExpire (stop : Fin 4) (index : Nat)
  -- The Nogar link and the host's messages (R328 to R337, R579)
  | nogarCodeword (seq : BitVec 12) (chk : NogarCheck) (nak : Bool) (ack : BitVec 12) (crReq crRsp crSnp : BitVec 8)
  | nogarReplayTimeout
  | nogarRetrainDone (lanes : Nat)
  | hostRequestHoldTimeout (tag : BitVec 12)
  | snpInv (tag : BitVec 12) (line : BitVec 46)
  | crRd (tag : BitVec 12) (off : BitVec 24) (len : Fin 64)
  | crWr (off : BitVec 24) (len : Fin 64) (val : Word)
  | dmRd (tag : BitVec 12) (addr : BitVec 39) (len : Fin 64) (ecc : LineRead)
  | dmWr (addr : BitVec 39) (data : List Byte) (ecc : LineRead)
  | nogarData (tag : BitVec 12) (status : Fin 3) (line : List Byte)
  | nogarCmp (tag : BitVec 12) (status : Fin 3)
  -- Doorbells, rings and submission entries (R339 to R347); host data that a command reads is an operand
  | doorbellRereadRetry (line : Fin 256)
  | hifDblWrite (line : Fin 256) (val : Word)
  | hifSqCfgWrite (sq : Fin 256) (val : Word)
  | sqFetch
  | launch (d : Die) (tabs : List (Nat × List Byte)) (ecc : List (Nat × LineRead))
  | copy (sq : Fin 256) (data : List Byte) (bad : List (Nat × Nat)) (ecc decc : List LineRead)
  | faultReply (sq : Fin 256)
  | invalidate (sq : Fin 256)
  | jobKill (d : Die)
  | nop (sq : Fin 256)
  -- Completions, events and interrupt messages (R348 to R355)
  | completionEntryWrite
  | vectorTimerExpire (vec : Fin 256)
  | hirqVecCtlWrite (vec : Fin 256) (val : Word)
  | eventEntryWrite
  -- Configuration swaps (R356 to R362)
  | cfgSwapNow
  | cfgSwapAtTime (atTime : BitVec 62)
  | cfgSwapCancel
  | swapTimeReached
  | swapTransitionEnd
  | cfgCopy (copy : Bool)
  | cfgCopyDone
  | rwsRegisterWrite (off size : Nat) (half : Bool) (val : Word)
  -- The Bolmin link and its streams (R366 to R384)
  | bolCtlWrite (val : Word)
  | bclkLoss
  | bclkGood (since : Nat)
  | bolTrainFrame (crcOk : Bool) (version streams : BitVec 8) (credits : BitVec 24) (id : BitVec 48) (lanes : Nat)
  | bolFrame (seq : BitVec 12) (check : BolCheck) (fill nak : Bool) (ack : BitVec 12) (lcr : BitVec 24)
  | bolReplayTimeout
  | bolRetrainDone (lanes : Nat)
  | bolCmdRetrain
  | bolLossOfSignal
  | sdata (stream : Fin 256) (sor eor rst err : Bool) (utag : BitVec 24) (data : List Byte)
  | scredit (stream : Fin 256) (credit : BitVec 32)
  | sclose (stream : Fin 256)
  | ingressRecordCommit (stream : Fin 256)
  | ingressPoll (stream : Fin 256) (st : Nat) (w1 : Word) (ecc : LineRead)
  | egressPoll (stream : Fin 256) (st : Nat) (w0 : Word) (ecc : LineRead)
  | egressRecordSend (stream : Fin 256) (host : List Byte) (bad : List Nat) (ecc : List LineRead)
  | bolStreamCfgWrite (stream : Fin 256) (val : Word) (ws : List Word)
  -- Optics (R386 to R411); addresses are those of R391
  | lockLost (addr : BitVec 32) (err : Int)
  | ringRelock (addr : BitVec 32) (setPoint : BitVec 16)
  | waveguideReturn (stop : Stop) (wg : Fin 8)
  | alignmentBlockMgmt (p : Port) (word : Word)
  | recalWindow (chan : BitVec 32)
  | channelRecalDone (chan : BitVec 32) (m r : CalMeas)
  | laserStandbyStart (n : Fin 44) (cause : Fin 3)
  | crossfadeStart (n : Fin 44)
  | laserSwitched (n : Fin 44)
  | laserFailed (n : Fin 44)
  | optRingValWrite (val : Word) (m r : RingMeas)
  | optChTapsWrite (val : Word) (eyeA eyeB : Nat)
  | optEyeCtlWrite (val : Word)
  | eyeScanDone (eye width height : Nat)
  | optSrcCmdSwitch (n : BitVec 6)
  | calSave
  | calRestore (st : Fin 3) (image : List Byte) (sweeps : List (CalMeas × CalMeas))
  | recal (res : List (BitVec 32 × CalMeas × CalMeas))
  | srcSwitch
  | qualityFiguresUpdate (l : List (BitVec 32 × QualMeas))
  -- Interrupt controllers of the die controllers and stag cores (R413 to R424)
  | lostEventReport (d : Die)
  | firmwareTimerCompare (p : Proc) (systime : Bool)
  -- The stags (R428 to R445): 0 stag A, 1 stag B
  | stagWatchdogPrewarn (u : Fin 2)
  | stagWatchdogReset (u : Fin 2)
  | selftestEnd (u : Fin 2) (ok : Bool)
  | stagAStartTimeout
  | mirrorRecord (o : StagOut) (ok : Bool)
  | mirrorAck
  | stagInSync (u : Fin 2)
  | recoveryEnd (u : Fin 2)
  | stagReturn
  | mgtStagCmdHandover
  | mgtStagCmdResetStandby
  | overlapHeartbeat (u : Fin 2) (claim : Bool)
  | heartbeatSend (u : Fin 2)
  | heartbeatTimeout (u : Fin 2)
  -- Resets and fences (R448 to R459); `su` is what the start-up finds
  | coldReset (su : StartUp)
  | rstCmdWarm
  | rstCmdCold
  | warmResetEnd
  | dieReset (d : Die) (cause : Fin 5)
  | rstDieCmdHold (d : Die)
  | rstDieCmdRelease (d : Die)
  | dieStartUpDone (d : Die) (cores : List CoreId) (t : DieTest)
  | refclkLoss
  | refclkRestored (goodFor : Nat)
  | islandFence (c : CoreId) (router : Bool) (cause : Fin 3)
  -- Sensors, throttling and shutdown (R460 to R472); temperatures in 0.125 °C
  | sensorSample (i : Fin 2500) (t : Int)
  | sensorSelfCheck (i : Fin 2500) (diff : Int) (frozen : Bool)
  | sensorRecover (i : Fin 2500)
  | hbmEstimateUpdate (n : Stack) (used slots : Nat)
  | throttleLoop (d : Die)
  | hbmThrottleLoop (n : Stack)
  | thmEstCoefWrite (n : Stack) (val : Word)
  | tripRestartWindowEnd
  | thermtripNLevelChange (level : Bool)
  -- Firmware, package flash and identity (R484 to R508); `st` says how a read of host memory ended: 0 good, 1 error, 2 poisoned
  | fwStage (st : Fin 3) (image list : List Byte)
  | fwActivate
  | fwCancel
  | fwHostOk
  | fwFallback
  | defaultsWrite (st : Fin 3) (data : List Byte)
  | defaultsRead
  | ownerEnrol (st : Fin 3) (data : List Byte)
  | ownerPolicy (st : Fin 3) (data : List Byte)
  | ownerExt (st : Fin 3) (data : List Byte)
  | quote (st : Fin 3) (data : List Byte)
  | certRead
  | chainTransferBlock (x : ChainStep)
  | chainAckTimeout
  | chainInFrame (h : ChainHead) (block : Nat) (data : List Byte) (crcOk : Bool)
  | chainInPassEnd (second : Bool)
  | stagingDone (ok : Bool)
  | dieControllerReload (d : Die)
  | healthConfirm
  | healthWindowEnd
  -- Lifetime records (R512 to R524) and package flash (R529)
  | hourWindowClose
  | dayWindowClose
  | ledgerRead
  | ledgerSnapshot
  | ledgerSecond (margins : List Int)
  | flashOpComplete (slot ok : Bool)
  -- Debug memory (R530, R531)
  | dbgTraceCtlWrite (val : Word)
  | dbgHistCtlWrite (val : Word)
  | traceTrigger
  | traceStop
  -- Power and reset pins, SYNC, rails and ALERT_N (R541 to R553)
  | vioInRange (straps : Nat)
  | vioRemoved
  | pwrgoodRise (straps : Nat)
  | pwrgoodFall
  | resetNAssert
  | syncInPulse (edge : Nat)
  | syncOutGenerate
  | railMonitorSample (bad : List (Fin 18 × Bool))
  | alertResponse
  | mgtAlertPendWrite (val : Word)
  -- MCTP messages over SMBus (R506, R522, R551, R552)
  | setEndpointId (op : Fin 4) (eid : Byte)
  | getEndpointId
  | getMctpVersionSupport (type : Byte)
  | getMessageTypeSupport
  | getVendorDefinedMsgSupport (sel : Byte)
  | mctpQuote (req : List Byte)
  | mctpCertificate (off len : BitVec 16)
  | mctpMeasurement (idx : Byte)
  | mctpLedgerRecord (kind : Byte) (seq : BitVec 32) (off len : BitVec 16)
  | mctpLedgerItem (window item : Byte)
  | tripRead
  | aonMaskWrite (entry valid : Byte) (idx : BitVec 16)
  | recoveryData (off : BitVec 32) (data : List Byte)
  | recoveryCommit (total : BitVec 32)
  | mctpStatus
  | holderClaim (stag : Byte)
  -- The JTAG port (R554)
  | bypass
  | idcode
  | samplePreload (pins : Word) (preload : Option Word)
  | extest
  | clamp
  | highz
  -- Registers of the configuration window (R6, R7, R564)
  | clkTimeSetWrite (val : Word)
  | clkSystimeLowRead
  | registerWrite (off : Nat) (size : Nat) (half : Bool) (val : Word)
  deriving DecidableEq, Repr

end Sys2Proof
end

