-- ==== Sys2Proof/Decode.lean ====
section
/-!
DEFINITION. The instruction words of the core controller (R32 to R37): the word of each format, the word of each
instruction, and the instruction that a word spells. The rows of spec/opcode_table.json give no bits; the words are
those of 02_core_controller.md (log entry 22).
-/

namespace Sys2Proof.Machine

/-! Instruction words (R32, R34): the value an illegal-instruction exception reports (R67). -/

/-- Bits [31:22] of an instruction. -/
def insHead (i : Issue) (op : Nat) : Nat := i.pn.toNat * 2 ^ 31 + i.pr.toNat * 2 ^ 28 + op * 2 ^ 22

/-- An instruction word of format R. -/
def wordR (i : Issue) (op : Nat) (rd rs1 rs2 : Reg) (fn : Nat) : Nat :=
  insHead i op + rd.toNat * 2 ^ 17 + rs1.toNat * 2 ^ 12 + rs2.toNat * 2 ^ 7 + fn

/-- An instruction word of format I. -/
def wordI (i : Issue) (op : Nat) (rd rs1 : Reg) (imm : BitVec 12) : Nat :=
  insHead i op + rd.toNat * 2 ^ 17 + rs1.toNat * 2 ^ 12 + imm.toNat

/-- An instruction word of format H, for `ldh.k`. -/
def wordH (i : Issue) (k : BitVec 2) (rd : Reg) (z : Bool) (imm : BitVec 16) : Nat :=
  insHead i (0x08 + k.toNat) + rd.toNat * 2 ^ 17 + z.toNat * 2 ^ 16 + imm.toNat

/-- An instruction word of format B. -/
def wordB (i : Issue) (op : Nat) (off : BitVec 22) : Nat := insHead i op + off.toNat

/-- An instruction word of format D. -/
def wordD (i : Issue) (rs1 : Reg) (off : BitVec 17) : Nat := insHead i 0x20 + rs1.toNat * 2 ^ 17 + off.toNat

/-- An instruction word of format C. -/
def wordC (i : Issue) (pd : PReg) (rs1 rs2 : Reg) (cond : BitVec 4) (resHi : BitVec 2)
    (resLo : BitVec 3) : Nat :=
  insHead i 0x0C + pd.toNat * 2 ^ 19 + resHi.toNat * 2 ^ 17 + rs1.toNat * 2 ^ 12 + rs2.toNat * 2 ^ 7
    + resLo.toNat * 2 ^ 4 + cond.toNat

/-- An instruction word of format CI. -/
def wordCI (i : Issue) (pd : PReg) (cond : BitVec 4) (rs1 : Reg) (imm : BitVec 10) : Nat :=
  insHead i 0x0D + pd.toNat * 2 ^ 19 + cond.toNat * 2 ^ 15 + rs1.toNat * 2 ^ 10 + imm.toNat

/-- An instruction word of format P. -/
def wordP (i : Issue) (pd pa pb : PReg) (fn : BitVec 3) (res : BitVec 10) : Nat :=
  insHead i 0x0E + pd.toNat * 2 ^ 19 + pa.toNat * 2 ^ 16 + pb.toNat * 2 ^ 13 + fn.toNat * 2 ^ 10
    + res.toNat

/-- An instruction word of format E. -/
def wordE (i : Issue) (eng : BitVec 3) (rq : Reg) (try_ : Bool) (pd : PReg) (res : BitVec 10) : Nat :=
  insHead i 0x21 + eng.toNat * 2 ^ 19 + rq.toNat * 2 ^ 14 + try_.toNat * 2 ^ 13 + pd.toNat * 2 ^ 10
    + res.toNat

/-- An instruction word of format Q. -/
def wordQ (i : Issue) (eng : BitVec 3) (cnt : BitVec 4) (rs1 : Reg) (res : BitVec 10) : Nat :=
  insHead i 0x22 + eng.toNat * 2 ^ 19 + cnt.toNat * 2 ^ 15 + rs1.toNat * 2 ^ 10 + res.toNat

/-- An instruction word of format K. -/
def wordK (i : Issue) (op : Nat) (r : Reg) (cnt : BitVec 4) (imm : BitVec 13) : Nat :=
  insHead i op + r.toNat * 2 ^ 17 + cnt.toNat * 2 ^ 13 + imm.toNat

end Sys2Proof.Machine

namespace Sys2Proof

open Machine

/-- The word of an instruction of a core controller; none for every other command (R32, R34, R37). -/
def Instr.word : Instr → Option Nat
  | .add i d a b => some (wordR i 0x00 d a b 0x00)
  | .sub i d a b => some (wordR i 0x00 d a b 0x01)
  | .and i d a b => some (wordR i 0x00 d a b 0x02)
  | .or i d a b => some (wordR i 0x00 d a b 0x03)
  | .xor i d a b => some (wordR i 0x00 d a b 0x04)
  | .shl i d a b => some (wordR i 0x00 d a b 0x05)
  | .shr i d a b => some (wordR i 0x00 d a b 0x06)
  | .sra i d a b => some (wordR i 0x00 d a b 0x07)
  | .mul i d a b => some (wordR i 0x00 d a b 0x08)
  | .mulhu i d a b => some (wordR i 0x00 d a b 0x09)
  | .mulh i d a b => some (wordR i 0x00 d a b 0x0A)
  | .min i d a b => some (wordR i 0x00 d a b 0x0B)
  | .max i d a b => some (wordR i 0x00 d a b 0x0C)
  | .minu i d a b => some (wordR i 0x00 d a b 0x0D)
  | .maxu i d a b => some (wordR i 0x00 d a b 0x0E)
  | .clz i d a b => some (wordR i 0x00 d a b 0x0F)
  | .popc i d a b => some (wordR i 0x00 d a b 0x10)
  | .divu i d a b => some (wordR i 0x00 d a b 0x11)
  | .remu i d a b => some (wordR i 0x00 d a b 0x12)
  | .addi i d a m => some (wordI i 0x01 d a m)
  | .andi i d a m => some (wordI i 0x02 d a m)
  | .ori i d a m => some (wordI i 0x03 d a m)
  | .xori i d a m => some (wordI i 0x04 d a m)
  | .shli i d a m => some (wordI i 0x05 d a m)
  | .shri i d a m => some (wordI i 0x06 d a m)
  | .srai i d a m => some (wordI i 0x07 d a m)
  | .ldh i k d z m => some (wordH i k d z m)
  | .cmp i p a b c h l => some (wordC i p a b c h l)
  | .cmpi i p c a m => some (wordCI i p c a m)
  | .plog i p a b f r => some (wordP i p a b f r)
  | .pmovRead i d a b => some (wordR i 0x0F d a b 0x00)
  | .pmovWrite i d a b => some (wordR i 0x0F d a b 0x01)
  | .ldB i d a m _ => some (wordI i 0x10 d a m)
  | .ldH i d a m _ => some (wordI i 0x11 d a m)
  | .ldW i d a m _ => some (wordI i 0x12 d a m)
  | .ldD i d a m _ => some (wordI i 0x13 d a m)
  | .ldBu i d a m _ => some (wordI i 0x14 d a m)
  | .ldHu i d a m _ => some (wordI i 0x15 d a m)
  | .ldWu i d a m _ => some (wordI i 0x16 d a m)
  | .stB i d a m => some (wordI i 0x18 d a m)
  | .stH i d a m => some (wordI i 0x19 d a m)
  | .stW i d a m => some (wordI i 0x1A d a m)
  | .stD i d a m => some (wordI i 0x1B d a m)
  | .br i o => some (wordB i 0x1C o)
  | .call i o => some (wordB i 0x1D o)
  | .jr i d a m => some (wordI i 0x1E d a m)
  | .callr i d a m => some (wordI i 0x1F d a m)
  | .dbnz i a o => some (wordD i a o)
  | .iss i e q t p r => some (wordE i e q t p r)
  | .qwait i e n a r => some (wordQ i e n a r)
  | .wait i a n m => some (wordK i 0x23 a n m)
  | .cntRd i a n m => some (wordK i 0x24 a n m)
  | .cntWr i a n m => some (wordK i 0x25 a n m)
  | .cntAdd i a n m => some (wordK i 0x26 a n m)
  | .sndMsg i d a b f => some (wordR i 0x27 d a b f.toNat)
  | .rcvMsg i d a b f => some (wordR i 0x28 d a b f.toNat)
  | .csrRd i d a n => some (wordI i 0x29 d a n)
  | .csrWr i d a n => some (wordI i 0x2A d a n)
  | .csrSet i d a n => some (wordI i 0x2B d a n)
  | .csrClr i d a n => some (wordI i 0x2C d a n)
  | .syncI i d a b => some (wordR i 0x2D d a b 0x00)
  | .sleep i d a b => some (wordR i 0x2D d a b 0x01)
  | .trap i d a b => some (wordR i 0x2D d a b 0x02)
  | .eret i d a b => some (wordR i 0x2D d a b 0x03)
  | .halt i d a b => some (wordR i 0x2D d a b 0x04)
  | .ebrk i d a b => some (wordR i 0x2D d a b 0x05)
  | _ => none

/-- The bits [lo + n - 1 : lo] of a word. -/
def wordBits (w lo n : Nat) : BitVec n := BitVec.ofNat n (w / 2 ^ lo)

/-- What bits [31:28] of a word say, on a core, the word having no parity error (R32, R33). -/
def issueOf (c : CoreId) (w : Nat) : Issue :=
  { core := c, pn := decide (w / 2 ^ 31 % 2 = 1), pr := wordBits w 28 3, parity := false }

/-- The instructions of op 0x00 by their fn (R37). -/
def decodeAlu (fn : Nat) : Option (Issue → Reg → Reg → Reg → Instr) :=
  match fn with
  | 0x00 => some .add | 0x01 => some .sub | 0x02 => some .and | 0x03 => some .or | 0x04 => some .xor
  | 0x05 => some .shl | 0x06 => some .shr | 0x07 => some .sra | 0x08 => some .mul | 0x09 => some .mulhu
  | 0x0A => some .mulh | 0x0B => some .min | 0x0C => some .max | 0x0D => some .minu | 0x0E => some .maxu
  | 0x0F => some .clz | 0x10 => some .popc | 0x11 => some .divu | 0x12 => some .remu
  | _ => none

/-- The instructions of op 0x2D by their fn (R37). -/
def decodeSys (fn : Nat) : Option (Issue → Reg → Reg → Reg → Instr) :=
  match fn with
  | 0x00 => some .syncI | 0x01 => some .sleep | 0x02 => some .trap | 0x03 => some .eret | 0x04 => some .halt
  | 0x05 => some .ebrk
  | _ => none

/-- The instruction that a 32-bit word spells on a core; none for a reserved opcode or a reserved fn of op 0x00,
0x0F or 0x2D (R34, R36, R37). Every other reserved value stands in the operands, where the instruction meets it. -/
def decodeWord (c : CoreId) (w : Nat) : Option Instr :=
  let i := issueOf c w
  let rd : Reg := wordBits w 17 5
  let rs1 : Reg := wordBits w 12 5
  let rs2 : Reg := wordBits w 7 5
  let fn := w % 2 ^ 7
  let imm : BitVec 12 := wordBits w 0 12
  let pd : PReg := wordBits w 19 3
  match w / 2 ^ 22 % 64 with
  | 0x00 => (decodeAlu fn).map fun f => f i rd rs1 rs2
  | 0x01 => some (.addi i rd rs1 imm)
  | 0x02 => some (.andi i rd rs1 imm)
  | 0x03 => some (.ori i rd rs1 imm)
  | 0x04 => some (.xori i rd rs1 imm)
  | 0x05 => some (.shli i rd rs1 imm)
  | 0x06 => some (.shri i rd rs1 imm)
  | 0x07 => some (.srai i rd rs1 imm)
  | 0x08 => some (.ldh i 0 rd (decide (w / 2 ^ 16 % 2 = 1)) (wordBits w 0 16))
  | 0x09 => some (.ldh i 1 rd (decide (w / 2 ^ 16 % 2 = 1)) (wordBits w 0 16))
  | 0x0A => some (.ldh i 2 rd (decide (w / 2 ^ 16 % 2 = 1)) (wordBits w 0 16))
  | 0x0B => some (.ldh i 3 rd (decide (w / 2 ^ 16 % 2 = 1)) (wordBits w 0 16))
  | 0x0C => some (.cmp i pd rs1 rs2 (wordBits w 0 4) (wordBits w 17 2) (wordBits w 4 3))
  | 0x0D => some (.cmpi i pd (wordBits w 15 4) (wordBits w 10 5) (wordBits w 0 10))
  | 0x0E => some (.plog i pd (wordBits w 16 3) (wordBits w 13 3) (wordBits w 10 3) (wordBits w 0 10))
  | 0x0F => if fn = 0 then some (.pmovRead i rd rs1 rs2) else if fn = 1 then some (.pmovWrite i rd rs1 rs2) else none
  | 0x10 => some (.ldB i rd rs1 imm .ok)
  | 0x11 => some (.ldH i rd rs1 imm .ok)
  | 0x12 => some (.ldW i rd rs1 imm .ok)
  | 0x13 => some (.ldD i rd rs1 imm .ok)
  | 0x14 => some (.ldBu i rd rs1 imm .ok)
  | 0x15 => some (.ldHu i rd rs1 imm .ok)
  | 0x16 => some (.ldWu i rd rs1 imm .ok)
  | 0x18 => some (.stB i rd rs1 imm)
  | 0x19 => some (.stH i rd rs1 imm)
  | 0x1A => some (.stW i rd rs1 imm)
  | 0x1B => some (.stD i rd rs1 imm)
  | 0x1C => some (.br i (wordBits w 0 22))
  | 0x1D => some (.call i (wordBits w 0 22))
  | 0x1E => some (.jr i rd rs1 imm)
  | 0x1F => some (.callr i rd rs1 imm)
  | 0x20 => some (.dbnz i rd (wordBits w 0 17))
  | 0x21 => some (.iss i pd (wordBits w 14 5) (decide (w / 2 ^ 13 % 2 = 1)) (wordBits w 10 3) (wordBits w 0 10))
  | 0x22 => some (.qwait i pd (wordBits w 15 4) (wordBits w 10 5) (wordBits w 0 10))
  | 0x23 => some (.wait i rd (wordBits w 13 4) (wordBits w 0 13))
  | 0x24 => some (.cntRd i rd (wordBits w 13 4) (wordBits w 0 13))
  | 0x25 => some (.cntWr i rd (wordBits w 13 4) (wordBits w 0 13))
  | 0x26 => some (.cntAdd i rd (wordBits w 13 4) (wordBits w 0 13))
  | 0x27 => some (.sndMsg i rd rs1 rs2 (wordBits w 0 7))
  | 0x28 => some (.rcvMsg i rd rs1 rs2 (wordBits w 0 7))
  | 0x29 => some (.csrRd i rd rs1 imm)
  | 0x2A => some (.csrWr i rd rs1 imm)
  | 0x2B => some (.csrSet i rd rs1 imm)
  | 0x2C => some (.csrClr i rd rs1 imm)
  | 0x2D => (decodeSys fn).map fun f => f i rd rs1 rs2
  | _ => none

/-- The command that a word of 32 bits spells: the instruction of core 0 of die 0 (log entry 22). -/
def decodeTableWord (nbits w : Nat) : Option Instr := if nbits = 32 then decodeWord ⟨0, 0, 0⟩ w else none

end Sys2Proof
end

