-- ==== Sys2Proof/Machine/Bits.lean ====
section
/-!
DEFINITION. Bit fields, sparse tables, byte lists and byte memories.
-/

namespace Sys2Proof.Machine

/-- The field of `len` bits whose lowest bit is `lo`. -/
def fld (w : Word) (lo len : Nat) : Nat := w.toNat / 2 ^ lo % 2 ^ len

/-- One bit of a word. -/
def bit (w : Word) (i : Nat) : Bool := w.toNat.testBit i

/-- The mask of the field [lo+len-1 : lo]. -/
def mask (lo len : Nat) : Word := BitVec.ofNat 64 ((2 ^ len - 1) * 2 ^ lo)

/-- `w` with the field [lo+len-1 : lo] replaced by the low bits of `v`. -/
def setFld (w : Word) (lo len v : Nat) : Word :=
  (w &&& ~~~ (mask lo len)) ||| (BitVec.ofNat 64 (v % 2 ^ len * 2 ^ lo))

/-- `w` with bit `i` set to `b`. -/
def setBit (w : Word) (i : Nat) (b : Bool) : Word := setFld w i 1 b.toNat

/-- Two's-complement reading of the low `len` bits of a number. -/
def signed (v len : Nat) : Int :=
  if v % 2 ^ len < 2 ^ (len - 1) then (v % 2 ^ len : Nat) else (v % 2 ^ len : Nat) - (2 ^ len : Nat)

/-- Saturating increment of the field [lo+len-1 : lo]. -/
def satInc (w : Word) (lo len : Nat) : Word :=
  setFld w lo len (min (2 ^ len - 1) (fld w lo len + 1))

/-- The value a sparse table holds at a key. -/
def SMap.get {α : Type} (d : Nat → α) : SMap α → Nat → α
  | [], k => d k
  | (k', v) :: t, k => if k = k' then v else SMap.get d t k

/-- The table without an entry for a key. -/
def SMap.del {α : Type} : SMap α → Nat → SMap α
  | [], _ => []
  | (k', v) :: t, k => if k = k' then SMap.del t k else (k', v) :: SMap.del t k

/-- The table with an entry for a key, in key order. -/
def SMap.put {α : Type} : SMap α → Nat → α → SMap α
  | [], k, v => [(k, v)]
  | (k', v') :: t, k, v =>
    if k < k' then (k, v) :: (k', v') :: t
    else if k = k' then (k, v) :: t
    else (k', v') :: SMap.put t k v

/-- Writes a key, keeping the canonical form: the default is held by no entry. -/
def SMap.set {α : Type} [DecidableEq α] (d : Nat → α) (m : SMap α) (k : Nat) (v : α) : SMap α :=
  if v = d k then SMap.del m k else SMap.put m k v

/-- The canonical form: keys strictly rising from `lo`, no entry equal to its default. -/
def SMap.wfFrom {α : Type} [DecidableEq α] (d : Nat → α) : Nat → SMap α → Bool
  | _, [] => true
  | lo, (k, v) :: t => decide (lo ≤ k) && !decide (v = d k) && SMap.wfFrom d (k + 1) t

/-- The canonical form of a sparse table. -/
def SMap.wf {α : Type} [DecidableEq α] (d : Nat → α) (m : SMap α) : Bool := SMap.wfFrom d 0 m

/-! Byte lists, little-endian (R2, R86). -/

/-- The number a little-endian byte list spells. -/
def bytesToNat : List Byte → Nat
  | [] => 0
  | b :: t => b.toNat + 256 * bytesToNat t

/-- The `n` bytes of a number, lowest first. -/
def natToBytes : Nat → Nat → List Byte
  | 0, _ => []
  | n + 1, v => BitVec.ofNat 8 v :: natToBytes n (v / 256)

/-- The 8 bytes of a word. -/
def wordBytes (w : Word) : List Byte := natToBytes 8 w.toNat

/-- The word that up to 8 bytes spell. -/
def bytesWord (l : List Byte) : Word := BitVec.ofNat 64 (bytesToNat l)

/-- `n` consecutive numbers from `a`. -/
def rangeFrom (a : Nat) : Nat → List Nat
  | 0 => []
  | n + 1 => a :: rangeFrom (a + 1) n

/-! Byte memories: an unlisted address reads as 0 (log entry 4). -/

/-- The byte an address nothing has written reads as. -/
def memDefault : Nat → Byte := fun _ => 0

/-- Reads one byte. -/
def Mem.byte (m : SMap Byte) (a : Nat) : Byte := SMap.get memDefault m a

/-- Writes one byte. -/
def Mem.setByte (m : SMap Byte) (a : Nat) (b : Byte) : SMap Byte := SMap.set memDefault m a b

/-- Reads `n` bytes from `a`. -/
def Mem.bytes (m : SMap Byte) (a n : Nat) : List Byte := (rangeFrom a n).map (Mem.byte m)

/-- Writes a list of bytes from `a`. -/
def Mem.write (m : SMap Byte) (a : Nat) : List Byte → SMap Byte
  | [] => m
  | b :: t => Mem.write (Mem.setByte m a b) (a + 1) t

/-- Reads an `n`-byte little-endian number. -/
def Mem.nat (m : SMap Byte) (a n : Nat) : Nat := bytesToNat (Mem.bytes m a n)

/-- Writes an `n`-byte little-endian number. -/
def Mem.setNat (m : SMap Byte) (a n v : Nat) : SMap Byte := Mem.write m a (natToBytes n v)

/-- The canonical form of a byte memory. -/
def Memory.wf (m : SMap Byte) : Bool := SMap.wf memDefault m

/-- Do the half-open ranges [a, a+n) and [b, b+m) meet? -/
def meets (a n b m : Nat) : Bool := decide (a < b + m) && decide (b < a + n) && decide (0 < n) && decide (0 < m)

/-- The element of a list at an index, or a default. -/
def nth {α : Type} (d : α) : List α → Nat → α
  | [], _ => d
  | x :: _, 0 => x
  | _ :: t, n + 1 => nth d t n

/-- A list with the element at an index replaced. -/
def setNth {α : Type} : List α → Nat → α → List α
  | [], _, _ => []
  | _ :: t, 0, v => v :: t
  | x :: t, n + 1, v => x :: setNth t n v

/-- Has a 32-bit counter reached a target (R43)? -/
def reached (c t : BitVec 32) : Bool := decide ((c - t).toNat < 2 ^ 31)

end Sys2Proof.Machine
end

