-- ==== Sys2Proof/Machine/Crc.lean ====
section
/-!
DEFINITION. The checks named by the manual: CRC-32 of IEEE 802.3, and the CRC-8 of control words (R198).
-/

namespace Sys2Proof.Machine

/-- One bit of the reflected CRC-32 register. -/
def crc32Bit (c : Nat) : Nat := if c % 2 = 1 then (c / 2) ^^^ 0xEDB88320 else c / 2

/-- One byte of the CRC-32. -/
def crc32Byte (c : Nat) (b : Byte) : Nat :=
  (rangeFrom 0 8).foldl (fun c _ => crc32Bit c) (c ^^^ b.toNat)

/-- CRC-32, IEEE 802.3 polynomial, of bytes. -/
def crc32 (l : List Byte) : Nat := (l.foldl crc32Byte 0xFFFFFFFF) ^^^ 0xFFFFFFFF

/-- CRC-8 with polynomial x^8 + x^2 + x + 1 of bits [63:8] of a word, highest bit first (R198). -/
def crc8 (w : Word) : Nat :=
  (rangeFrom 0 56).foldl (fun c i =>
    let b := (bit w (63 - i)).toNat
    let top := (c / 128 + b) % 2
    let c := c % 128 * 2
    if top = 1 then c ^^^ 0x07 else c) 0

/-- A control word with its CRC in bits [7:0]. -/
def sealWord (w : Word) : Word := setFld w 0 8 (crc8 w)

end Sys2Proof.Machine
end

