-- ==== Sys2Proof/Config.lean ====
section
/-!
DEFINITION. What an implementation of the PL9240 fixes and the manual leaves open, and the free
values. None of these constants has a body that a proof can see.
-/

namespace Sys2Proof

/-- The bits an undefined value takes, by the number of the draw (R526; log entry 5). -/
opaque Config.freeBits : Nat → BitVec 64

/-- Messages of each class of the Nogar link, REQ, RSP and SNP, that the device may send before the host has returned any
credit, which R329 does not state (log entry 43). -/
opaque Config.nogarCredits : Nat → Nat

/-- The JEDEC identity code of ID_PART and IDCODE, which the manual does not print (R554, R563). -/
opaque Config.jedec : BitVec 11

/-- The serial number that ID_SERIAL holds (R563). -/
opaque Config.serial : BitVec 64

/-- The vendor id of the MCTP vendor-defined messages (R511, R552). -/
opaque Config.mctpVendor : BitVec 32

/-- Byte `i` of a signature of a message with the private identity key, which only the key unit holds
(R502, R505). -/
opaque Config.deviceSign : List Byte → Nat → Byte

/-- SHA-384 of Jowald's root public key, fixed in the boot ROM (R483). -/
opaque Config.rootKeyHash : List Byte

/-- The image in slot A of a device that nothing has updated, no longer than a slot (R484; log entry 31): its
length, and its byte `i`. -/
opaque Config.factoryLength : Fin (2 ^ 24 + 1)
opaque Config.factoryByte : Nat → Byte
def Config.factoryImage : List Byte := (List.range Config.factoryLength.val).map Config.factoryByte

/-- The X.509 certificate chain of the identity region, in DER (R503). -/
opaque Config.certChain : List Byte

/-- What the ring search of a session leaves in a ring, set-point [15:0] and lock target [31:16], and in a
channel, its equaliser taps and its quality figures (R392, R393, R400, R402). -/
opaque Config.ringFound : Nat → Nat → BitVec 32
opaque Config.tapsFound : Nat → Nat → BitVec 64
opaque Config.qualFound : Nat → Nat → BitVec 64

/-- Repair lanes that the stack provides per channel, a figure of JESD238A (R231, R232). -/
opaque Config.repairLanes : Nat

/-- The SECDED check bits of a number of bits, for a value; the manual does not print the code (R169). -/
opaque Config.secded : Nat → Nat → Nat

/-- Bytes that the interlock, time, the swap epoch and mirroring take of a direction of the seam link in a REFCLK cycle
(R15, R16): the spec gives them no sizes (log entry 84). -/
opaque Config.seamLoad : Nat → Nat → Nat

/-- The device's own identifier in its capability block (R372): the rule gives a peer identifier no value. -/
opaque Config.bolIdent : BitVec 48

/-- The digest of FAB_TOPO that TRAIN flits exchange; the manual does not print it (R270, log entry 85). -/
opaque Config.topoDigest : BitVec 64 → Nat

end Sys2Proof
end

