-- ==== Sys2Proof/Machine/CoreState.lean ====
section
/-!
DEFINITION. The state of one processor's interrupt controller, of one core, and of its engines
(02_core_controller.md, 03_engines.md, 13_interrupts.md).
-/

namespace Sys2Proof

/-- The key of a core position. -/
def CoreId.key (c : CoreId) : Nat := 288 * c.die.val + 18 * c.row.val + c.col.val

end Sys2Proof

namespace Sys2Proof.Machine

/-- One frame slot, with the fields of CORE_FRAME_TOP (R59, R571). -/
structure Frame where
  source : Nat
  kind : Bool
  prev : Nat
  preds : BitVec 7
  pc : BitVec 17
  deriving DecidableEq, Repr

/-- What the last boundary of a processor was (R68, R70 to R72): nothing to remember; an entry to a vector whose
first instruction has not issued; or an exit whose cycles E0 to E2 last, with the frame it popped and the
predicates before it, so that what arrives in them abandons it. -/
inductive Turn where
  | none
  | vector
  | exit (top : Frame) (preds : BitVec 7)
  deriving DecidableEq, Repr

/-- An interrupt controller and the context its entry saves (R413, R414): levels, threshold, running
level, pending, in-service and asynchronous latch bits, the count of losses and the source that
lost last, the frame stack (oldest first), the pc, the predicates p1 to p7 and the vector base. -/
structure IntCtl where
  level : SMap Nat
  thresh : Nat
  run : Nat
  pend : BitVec 256
  insvc : BitVec 256
  latch : BitVec 256
  lost : Nat
  lastSrc : Nat
  frames : List Frame
  pc : BitVec 17
  preds : BitVec 7
  vbase : BitVec 17
  turn : Turn
  asleep : Bool
  clkStopped : Bool
  deriving DecidableEq, Repr

/-- An interrupt controller after reset. -/
def IntCtl.reset : IntCtl :=
  { level := [], thresh := 0, run := 0, pend := 0, insvc := 0, latch := 0, lost := 0, lastSrc := 0,
    frames := [], pc := 0, preds := 0, vbase := 0, turn := .none, asleep := false,
    clkStopped := false }

/-- What a core controller is doing: the values of CORE_STATE (R59). -/
inductive RunState where
  | haltedReset | running | stalled | sleeping | haltedDouble | haltedSelf | haltedCtl | fenced
  deriving DecidableEq, Repr

/-- An entry of an engine queue: a command, a wait token, or for springbok a short message
(R42, R47, R80). -/
inductive QEntry where
  | cmd (q : Quad)
  | token (cnt : BitVec 4) (target : BitVec 32)
  | msg (endpoint : Word) (ce : Bool) (cnt : BitVec 4) (payload : Quad)
  deriving DecidableEq, Repr

/-- What a stalled controller waits for (R41, R50, R62). -/
inductive Stall where
  | wait (cnt : BitVec 4) (target : BitVec 32)
  | rcv (rd rs1 : Reg)
  | queue (eng : Nat) (e : QEntry)
  deriving DecidableEq, Repr

/-- A received short message: payload and sender word (R46, R50). -/
structure Mail where
  payload : Quad
  sender : Word
  deriving DecidableEq, Repr

/-- One unit of a command between two restart points: what it writes, the LFSR after it, and the
units counted in progress once it is done (R123, R126). -/
structure PlanUnit where
  writes : List (Nat × List Byte)
  lfsr : BitVec 32
  progress : Nat
  restart : Bool
  deriving DecidableEq, Repr

/-- An engine fault: cause, and detail and address of the record where the spec states them (R122,
R123, R574); where it does not, the field holds a free value (log entry 12). -/
structure EngFault where
  cause : Nat
  detail : Option Nat
  addr : Option Nat
  deriving DecidableEq, Repr

/-- The command an engine is running: its units not yet done, the regions it reads and writes, the
fault its data leads to, whether another requester touched its bytes (R55), the regions that other requesters write
without order (R77), and the table it loads into a slot when it completes (R98). -/
structure Running where
  cmd : Quad
  cnt : BitVec 4
  units : List PlanUnit
  done : Nat
  reads : List (Nat × Nat)
  dests : List (Nat × Nat)
  fault : Option EngFault
  tainted : Bool
  shared : List (Nat × Nat) := []
  load : Option (Nat × List Byte) := none
  deriving DecidableEq, Repr

/-- What a request of springbok does (R117). -/
inductive SbKind where
  | get | put | cput | gather | atom | pload | coll | msg
  deriving DecidableEq, Repr

/-- One request of a springbok entry, of at most one granule or 256 B: remote or memory address,
scratch address, bytes (R117). -/
structure SbPiece where
  mem : Nat
  scr : Nat
  len : Nat
  herd : Bool
  deriving DecidableEq, Repr

/-- A started springbok entry (R82, R118, R119): the requests still to issue, those outstanding,
bytes done, the first error, and what is held for its completion. -/
structure SbActive where
  id : Nat
  kind : SbKind
  cmd : Quad
  payload : Quad
  cnt : BitVec 4
  /-- Does completion increment the counter? A `snd.msg` with ce = 0 does not (R47). -/
  ce : Bool
  /-- Has a chunk of the collective been sent (R250)? -/
  started : Bool
  todo : List SbPiece
  out : Nat
  bytes : Nat
  err : Nat
  /-- Stopped on a translation fault with this fault id (R125). -/
  faulted : Option Nat
  /-- Bytes of a packed stream: to be sent, or received so far (R120). -/
  stream : List Byte
  /-- A fault of the engine itself, which ends the command whatever `st` says (R78, R120). -/
  efault : Option EngFault
  /-- The address of the request that met the first error. -/
  errAddr : Nat
  /-- Chunks of a collective result held (R188). -/
  got : List Nat
  /-- A part of the result carries no value of a fenced core (R190). -/
  void : Bool
  reads : List (Nat × Nat)
  dests : List (Nat × Nat)
  tainted : Bool
  /-- Regions that other requesters write without order (R77). -/
  shared : List (Nat × Nat) := []
  /-- Tail acknowledgements that came back for the chunks it multicasts (R188). -/
  tails : Nat := 0
  deriving DecidableEq, Repr

/-- A tracked slot in use (R118): the entry and request it holds, its tag's generation and the
device time of issue. -/
structure SbSlot where
  entry : Nat
  piece : SbPiece
  gen : Nat
  t0 : Nat
  /-- The receiver a message or CPUT went to, as a 20-bit endpoint. -/
  dest : Nat
  refused : Bool
  /-- The translation the request was made through: job, first address, bytes (R239). -/
  page : Option (Nat × Nat × Nat)
  /-- The packet, kept for a message that is sent again (R48). -/
  pkt : Option Pkt
  deriving DecidableEq, Repr

/-- One engine of a core (R80, R88, R123, R126). -/
structure Engine where
  queue : List QEntry
  run : Option Running
  lfsr : BitVec 32
  frec : Nat
  faulted : Bool
  seq : Nat
  stop : Bool
  held : Bool
  /-- gazelle's table slots, 1,088 B each; the empty list is a slot not loaded (R97). -/
  tables : SMap (List Byte)
  /-- springbok's started entries, oldest first, and its slots. -/
  active : List SbActive
  slots : SMap (Option SbSlot)
  nextId : Nat
  gen : Nat
  deriving DecidableEq, Repr

/-- Engine `n` at core reset (R88, R123). -/
def Engine.reset (n : Nat) : Engine :=
  { queue := [], run := none, lfsr := if n = 0 ∨ n = 1 ∨ n = 2 ∨ n = 4 then BitVec.ofNat 32 (0x100 * (n + 1)) else 0,
    frec := 0x17FE00 + 64 * n, faulted := false, seq := 0, stop := false, held := false,
    tables := [], active := [], slots := [], nextId := 0, gen := 0 }

/-- One core (R29, R30, R59). -/
structure Core where
  g : SMap Word
  ctl : IntCtl
  cnt : SMap (BitVec 32)
  mail : List Mail
  rs : RunState
  stall : Option Stall
  /-- CORE_CYCLE: the core clock's count at which it read 0, and its value while it stands still. -/
  cycOff : Nat
  cycHeld : Nat
  job : Word
  ctlReg : Word
  timerCmp : Word
  timerArmed : Bool
  sysCmp : Word
  sysArmed : Bool
  excCause : Word
  excPc : Word
  excValue : Word
  cntIrq : SMap Word
  mboxHwm : Nat
  /-- Corrected errors of controller loads, counted (R58; no register shows the count). -/
  corrected : Nat
  /-- Aligned 8 B words of which the controller, and of which arriving stores, wrote a part since the controller
  last completed a wait or read a counter (R77). -/
  ownWords : List Nat
  inWords : List Nat
  /-- Packed stores of other cores on their way through the stream pipe (R120): the sender's key, and the pieces
  of its stream by number. -/
  pipe : SMap (List (Nat × List Byte))
  pstore : SMap Byte
  scratch : SMap Byte
  eng : SMap Engine
  /-- Notices to the die controller: halted, engine fault, lost event, handshake (R423). -/
  noticeHalt : Bool
  noticeFault : Bool
  noticeLost : Bool
  handshake : Bool
  /-- While its die controller reloads: what the controller was doing, to go on with (R494). -/
  pause : Option (RunState × Option Stall)
  /-- Draws of free values made by this core (the model's own field). -/
  free : Nat
  deriving DecidableEq, Repr

/-- A core at core reset; a spare position is down (R60, R88, R166). -/
def Core.reset (spare : Bool) : Core :=
  { g := [], ctl := IntCtl.reset, cnt := [], mail := [],
    rs := if spare then .fenced else .haltedReset, stall := none, cycOff := 0, cycHeld := 0,
    job := 0, ctlReg := 0, timerCmp := 0xFFFFFFFFFFFFFFFF#64, timerArmed := true,
    sysCmp := 0xFFFFFFFFFFFFFFFF#64, sysArmed := true, excCause := 0, excPc := 0, excValue := 0,
    cntIrq := [], mboxHwm := 24, corrected := 0, ownWords := [], inWords := [], pipe := [], pstore := [], scratch := [], eng := [],
    noticeHalt := false, noticeFault := false, noticeLost := false, handshake := false, pause := none, free := 0 }

/-- The core a key stands for before anything touched it: the two spares of each row are physical
columns 16 and 17 (R164, log entry 3). -/
def Core.initial (key : Nat) : Core := Core.reset (decide (16 ≤ key % 18))

/-- What a core reads of the world outside it: SYSTIME, the cycles of its island that were not suppressed
(R465), its CORE_ID and its key. -/
structure CoreEnv where
  systime : Nat
  clk : Nat
  idWord : Word
  key : Nat
  deriving DecidableEq, Repr

end Sys2Proof.Machine
end

