-- ==== Sys2Proof/Machine/Operands.lean ====
section
/-!
DEFINITION. Operands of the core controller: registers, predicates, quads, immediates (R30 to R36, R46).
-/

namespace Sys2Proof.Machine

/-- Reads a general register; g0 reads 0 (R30). -/
def Core.rg (c : Core) (r : Reg) : Word := if r = 0 then 0 else SMap.get (fun _ => 0) c.g r.toNat

/-- Writes a general register; a write of g0 is discarded (R30). -/
def Core.setG (c : Core) (r : Reg) (v : Word) : Core :=
  if r = 0 then c else { c with g := SMap.set (fun _ => 0) c.g r.toNat v }

/-- Reads a predicate; p0 reads 1 (R30). -/
def Core.pr (c : Core) (p : PReg) : Bool := if p = 0 then true else c.ctl.preds.getLsbD (p.toNat - 1)

/-- Writes a predicate; a write of p0 is discarded (R30). -/
def Core.setP (c : Core) (p : PReg) (b : Bool) : Core :=
  if p = 0 then c
  else
    let m : BitVec 7 := BitVec.ofNat 7 (2 ^ (p.toNat - 1))
    { c with ctl := { c.ctl with preds := if b then c.ctl.preds ||| m else c.ctl.preds &&& ~~~ m } }

/-- Is a register number the name of a quad (R31)? -/
def quadOk (r : Reg) : Bool := decide (r.toNat % 4 = 0) && decide (4 ≤ r.toNat)

/-- The four registers of a quad (R31). -/
def Core.quad (c : Core) (r : Reg) : Quad := ⟨c.rg r, c.rg (r + 1), c.rg (r + 2), c.rg (r + 3)⟩

/-- Writes the four registers of a quad. -/
def Core.setQuad (c : Core) (r : Reg) (q : Quad) : Core :=
  (((c.setG r q.w0).setG (r + 1) q.w1).setG (r + 2) q.w2).setG (r + 3) q.w3

/-- A completion counter (R30). -/
def Core.cntr (c : Core) (n : BitVec 4) : BitVec 32 := SMap.get (fun _ => 0) c.cnt n.toNat

/-- Sign extension of an immediate to 64 bits (R34). -/
def sx {w : Nat} (v : BitVec w) : Word := v.signExtend 64

/-- The low 32 bits of a word. -/
def low32 (w : Word) : BitVec 32 := w.setWidth 32

end Sys2Proof.Machine
end

