-- ==== Sys2Proof/Machine/Flags.lean ====
section
/-!
DEFINITION. The condition codes of `cmp` and `cmpi`, and the arithmetic of the integer instructions
(R37).
-/

namespace Sys2Proof.Machine

/-- The condition a code names, on two operands; codes 8 to 15 are reserved (R37). -/
def evalCond (cond : BitVec 4) (a b : Word) : Option Bool :=
  match cond.toNat with
  | 0 => some (a == b)
  | 1 => some (a != b)
  | 2 => some (a.slt b)
  | 3 => some (!a.slt b)
  | 4 => some (a.ult b)
  | 5 => some (!a.ult b)
  | 6 => some (a &&& b != 0)
  | 7 => some (a &&& b == 0)
  | _ => none

/-- The predicate operation a `plog` function code names (R37). -/
def evalPlog (fn : BitVec 3) (a b : Bool) : Bool :=
  match fn.toNat with
  | 0 => a && b
  | 1 => a || b
  | 2 => a != b
  | 3 => a && !b
  | 4 => !a
  | 5 => a
  | 6 => true
  | _ => false

/-- Leading zeros of a word, 64 for 0. -/
def clz64 (a : Word) : Word := if a = 0 then 64 else BitVec.ofNat 64 (63 - Nat.log2 a.toNat)

/-- Ones in a number of at most `n` bits. -/
def popCount : Nat → Nat → Nat
  | 0, _ => 0
  | n + 1, v => v % 2 + popCount n (v / 2)

/-- Ones in a word. -/
def popc64 (a : Word) : Word := BitVec.ofNat 64 (popCount 64 a.toNat)

/-- The high 64 bits of the unsigned product. -/
def mulhu64 (a b : Word) : Word := BitVec.ofNat 64 (a.toNat * b.toNat / 2 ^ 64)

/-- The high 64 bits of the signed product. -/
def mulh64 (a b : Word) : Word := BitVec.ofInt 64 (a.toInt * b.toInt / 2 ^ 64)

/-- The unsigned quotient; a divisor of 0 gives all ones (R37). -/
def divu64 (a b : Word) : Word := if b = 0 then BitVec.allOnes 64 else a / b

/-- The unsigned remainder; a divisor of 0 gives the dividend (R37). -/
def remu64 (a b : Word) : Word := if b = 0 then a else a % b

/-- A shift amount: the low six bits of an operand (R37). -/
def shamt (b : Word) : Nat := b.toNat % 64

end Sys2Proof.Machine
end

