-- ==== Sys2Proof/Machine/Intr.lean ====
section
/-!
DEFINITION. The interrupt architecture at every size (13_interrupts.md, R69 to R72): arrival of an
edge, arbitration, entry, exit with its tail chain, clock restart.
-/

namespace Sys2Proof.Machine

/-- The bit of a source. -/
def srcBit (n : Nat) : BitVec 256 := BitVec.ofNat 256 (2 ^ n)

/-- The level of a source; 0 disables it (R65). -/
def IntCtl.lvl (c : IntCtl) (n : Nat) : Nat := SMap.get (fun _ => 0) c.level n

/-- Sets the level of a source. -/
def IntCtl.setLvl (c : IntCtl) (n v : Nat) : IntCtl :=
  { c with level := SMap.set (fun _ => 0) c.level n (v % 16) }

/-- The 16 levels of register `k`, 4 bits each (R59, R426). -/
def IntCtl.levelWord (c : IntCtl) (k : Nat) : Word :=
  BitVec.ofNat 64 (packNat4 ((rangeFrom (16 * k) 16).map c.lvl))
where
  packNat4 : List Nat → Nat
    | [] => 0
    | x :: t => x % 16 + 16 * packNat4 t

/-- Writes the 16 levels of register `k`. -/
def IntCtl.setLevelWord (c : IntCtl) (k : Nat) (w : Word) : IntCtl :=
  (rangeFrom 0 16).foldl (fun c i => c.setLvl (16 * k + i) (fld w (4 * i) 4)) c

/-- The pending bits: edges held, and level sources whose condition holds and that are not in
service (R417, R419; log entry 9). -/
def IntCtl.pending (c : IntCtl) (cond : BitVec 256) : BitVec 256 := c.pend ||| (cond &&& ~~~ c.insvc)

/-- Among the first `n` sources, the pending one of the highest level above `floor`, the lowest
number among equals (R415). -/
def IntCtl.best (c : IntCtl) (p : BitVec 256) (floor : Nat) : Nat → Option Nat
  | 0 => none
  | n + 1 =>
    let b := c.best p floor n
    if p.getLsbD n && decide (floor < c.lvl n) &&
        (match b with | none => true | some m => decide (c.lvl m < c.lvl n))
    then some n else b

/-- The source to take: its level exceeds both the threshold and the given running level (R415). -/
def IntCtl.eligibleAt (c : IntCtl) (cond : BitVec 256) (run : Nat) : Option Nat :=
  c.best (c.pending cond) (max c.thresh run) 80

/-- The source to take at the running level in force. -/
def IntCtl.eligible (c : IntCtl) (cond : BitVec 256) : Option Nat := c.eligibleAt cond c.run

/-- An edge event (R418, R421): held by the latch while the clock is stopped, lost while the source
is in service, else pending. -/
def IntCtl.edge (c : IntCtl) (n : Nat) : IntCtl :=
  if c.clkStopped then { c with latch := c.latch ||| srcBit n }
  else if c.insvc.getLsbD n then
    { c with lost := min (2 ^ 32 - 1) (c.lost + 1), lastSrc := n }
  else { c with pend := c.pend ||| srcBit n }

/-- Entry to the vector of source `n`, or to vector 0 for an exception (R69): the frame is pushed,
and for an interrupt the running level and the pending and in-service bits change. The spec names no source for the
frame of an exception, and says that 16 frames cannot be exceeded: the model writes source 0, and pushes a further
frame where software or the die controller has filled the stack (DESIGN CHOICE, log entry 77). -/
def IntCtl.enter (c : IntCtl) (src : Option Nat) (ret : BitVec 17) : IntCtl :=
  let f : Frame := { source := src.getD 0, kind := src.isNone, prev := c.run, preds := c.preds, pc := ret }
  let c := { c with frames := c.frames ++ [f], turn := .vector, asleep := false, clkStopped := false }
  match src with
  | none => { c with pc := c.vbase }
  | some n =>
    { c with pend := c.pend &&& ~~~ srcBit n, insvc := c.insvc ||| srcBit n, run := c.lvl n,
             pc := c.vbase + BitVec.ofNat 17 (4 * (1 + n)) }

/-- A source takes over the top frame of an exit that is abandoned (R72, R425). -/
def IntCtl.chain (c : IntCtl) (n : Nat) (below : List Frame) (top : Frame) (preds : BitVec 7) : IntCtl :=
  { c with frames := below ++ [{ top with source := n, kind := false }], preds := preds,
           pend := c.pend &&& ~~~ srcBit n, insvc := c.insvc ||| srcBit n, run := c.lvl n,
           pc := c.vbase + BitVec.ofNat 17 (4 * (1 + n)), turn := .vector }

/-- The exit of `eret` (R71, R72, R425): the in-service bit of the top frame's source clears; a
source eligible at the level to be restored takes the frame over, else the frame is popped, and cycles E0 to E2
last until the next instruction or tick. The stack must hold a frame. The frame of an exception has no source whose
in-service bit could clear, and the word at the pc restored is no vector's fetch, wherever it lies (DESIGN CHOICE,
log entry 77). -/
def IntCtl.exit (c : IntCtl) (condOf : IntCtl → BitVec 256) : IntCtl :=
  match c.frames.getLast? with
  | none => c
  | some top =>
    let c := if top.kind then c else { c with insvc := c.insvc &&& ~~~ srcBit top.source }
    match c.eligibleAt (condOf c) top.prev with
    | some n => c.chain n c.frames.dropLast top c.preds
    | none =>
      { c with frames := c.frames.dropLast, preds := top.preds, run := top.prev, pc := top.pc,
               turn := .exit top c.preds }

/-- Takes a source at a boundary: what arrived in E0 to E2 of an exit abandons it (R72), else the entry is an
ordinary one (R69). -/
def IntCtl.takeSource (c : IntCtl) (n : Nat) : IntCtl :=
  match c.turn with
  | .exit top preds => c.chain n c.frames top preds
  | _ => c.enter (some n) c.pc

/-- Does a held edge or a level condition exceed the threshold and the running level (R422)? -/
def IntCtl.wakes (c : IntCtl) (cond : BitVec 256) : Bool :=
  (c.best (c.latch ||| c.pending cond) (max c.thresh c.run) 80).isSome

/-- The clock runs again: every held edge arrives as in the first running cycle (R421). -/
def IntCtl.restart (c : IntCtl) : IntCtl :=
  (rangeFrom 0 80).foldl (fun c' n => if c.latch.getLsbD n then c'.edge n else c')
    { c with clkStopped := false, latch := 0 }

/-- A write of 1s to pending bits: edge sources clear; a level source stays while its condition
holds, because it is not held in `pend` (R417). -/
def IntCtl.clearPend (c : IntCtl) (m : BitVec 256) : IntCtl := { c with pend := c.pend &&& ~~~ m }

/-- The frame as CORE_FRAME_TOP reads it (R59). -/
def Frame.word (f : Frame) : Word :=
  BitVec.ofNat 64 (f.pc.toNat / 4 * 4 + f.preds.toNat * 2 ^ 17 + f.prev % 16 * 2 ^ 24
    + f.kind.toNat * 2 ^ 28 + f.source % 32 * 2 ^ 29)

/-- The frame a write of CORE_FRAME_TOP leaves. -/
def Frame.ofWord (w : Word) : Frame :=
  { source := fld w 29 5, kind := bit w 28, prev := fld w 24 4, preds := BitVec.ofNat 7 (fld w 17 7),
    pc := BitVec.ofNat 17 (fld w 2 15 * 4) }

end Sys2Proof.Machine
end

