-- ==== Sys2Proof/Machine/CoreOps.lean ====
section
/-!
DEFINITION. The shared operations of a core: issuing an instruction, taking an exception, completion
counters, engine queues, scratch, and the CSRs (02_core_controller.md).
-/

namespace Sys2Proof.Machine

/-- A free value (R526): the core's own draws are numbered apart from every other unit's. -/
def Core.freeAt (env : CoreEnv) (c : Core) (i : Nat) : Word :=
  Config.freeBits ((c.free + i) * 4096 + env.key + 1)

/-- Counts draws of free values. -/
def Core.drew (c : Core) (n : Nat) : Core := { c with free := c.free + n }

/-- The conditions of the level sources 16 and 17 (R64). -/
def Core.cond (c : Core) : BitVec 256 :=
  (if c.mail.isEmpty then 0 else srcBit 16) |||
  (if c.mboxHwm ≤ c.mail.length then srcBit 17 else 0)

/-- An edge of a core source; a loss is noticed by the die controller (R66, R423). -/
def Core.edge (c : Core) (n : Nat) : Core :=
  let ctl := c.ctl.edge n
  { c with ctl := ctl, noticeLost := c.noticeLost || decide (ctl.lost ≠ c.ctl.lost) }

/-- Is an instruction boundary free for the next instruction: running, not stalled, and no source
to be taken first (R415)? -/
def Core.ready (c : Core) : Bool :=
  decide (c.rs = .running) && (c.ctl.eligible c.cond).isNone

/-- Moves past one instruction word. -/
def Core.next (c : Core) : Core := { c with ctl := { c.ctl with pc := c.ctl.pc + 4 } }

/-- Takes a synchronous exception (R67 to R69): the cause registers, a frame of kind 1 holding `ret`,
vector 0; or, with an exception frame held or on the fetch of a vector, the double exception. -/
def Core.exception (c : Core) (cause : Nat) (value : Word) (ret : BitVec 17) (fetch : Bool) : Core :=
  if c.ctl.frames.any (·.kind) || (fetch && decide (c.ctl.turn = .vector)) then
    { c with rs := .haltedDouble, stall := none, noticeHalt := true }
  else
    { c with excCause := BitVec.ofNat 64 cause, excPc := c.ctl.pc.setWidth 64, excValue := value,
             ctl := c.ctl.enter none ret }

/-- The illegal-instruction exception with the instruction's word (R36, R67). -/
def Core.illegal (c : Core) (word : Nat) : Core :=
  c.exception 0x01 (BitVec.ofNat 64 word) c.ctl.pc false

/-- Does the predicate of an instruction hold (R33)? -/
def Core.holds (c : Core) (i : Issue) : Bool := c.pr i.pr != i.pn

/-- Issues one instruction (R33, R36, R58): nothing while the core is not ready; the parity
exception; the next word when the predicate does not hold; the illegal-instruction exception when a
field is not legal; else its effect. -/
def Core.issue (i : Issue) (word : Nat) (legal : Bool) (f : Core → Core) (c : Core) : Core :=
  if !c.ready then c
  else if i.parity then c.exception 0x05 (c.ctl.pc.setWidth 64) c.ctl.pc true
  else
    let c := { c with ctl := { c.ctl with turn := .none } }
    if !c.holds i then c.next
    else if !legal then c.illegal word
    else f c

/-! Completion counters (R43 to R45, R64). -/

/-- Arms and targets of the counter interrupts (R59). -/
def Core.cntIrqOf (c : Core) (n : Nat) : Word := SMap.get (fun _ => 0) c.cntIrq n

/-- The counter interrupt fires when its counter reaches the target while arm = 1, and clears arm
(R64). -/
def Core.fireCnt (c : Core) (n : BitVec 4) : Core :=
  let w := c.cntIrqOf n.toNat
  if bit w 32 && reached (c.cntr n) (low32 w) then
    { c with cntIrq := SMap.set (fun _ => 0) c.cntIrq n.toNat (setBit w 32 false) }.edge n.toNat
  else c

/-- Writes a completion counter. -/
def Core.setCnt (c : Core) (n : BitVec 4) (v : BitVec 32) : Core :=
  { c with cnt := SMap.set (fun _ => 0) c.cnt n.toNat v }.fireCnt n

/-- An increment by an engine (R44). -/
def Core.incCnt (c : Core) (n : BitVec 4) : Core := c.setCnt n (c.cntr n + 1)

/-! Engine queues (R41, R42, R80). -/

/-- An engine of the core. -/
def Core.engine (c : Core) (n : Nat) : Engine := SMap.get Engine.reset c.eng n

/-- Writes an engine of the core. -/
def Core.setEngine (c : Core) (n : Nat) (e : Engine) : Core :=
  { c with eng := SMap.set Engine.reset c.eng n e }

/-- Entries of an engine's queue (R80). -/
def queueDepth (n : Nat) : Nat := if n = 6 then 32 else 16

/-- Is the queue of an engine full? -/
def Core.queueFull (c : Core) (n : Nat) : Bool := decide (queueDepth n ≤ (c.engine n).queue.length)

/-- Pushes an entry into the queue of an engine. -/
def Core.push (c : Core) (n : Nat) (e : QEntry) : Core :=
  let g := c.engine n
  c.setEngine n { g with queue := g.queue ++ [e] }

/-- Is an engine working on a command? -/
def Engine.busy (e : Engine) : Bool := e.run.isSome || !e.active.isEmpty

/-- Are all engine queues empty and all engines idle (R63)? -/
def Core.enginesIdle (c : Core) : Bool :=
  (rangeFrom 0 7).all fun n => (c.engine n).queue.isEmpty && !(c.engine n).busy

/-- Pushes without or with try (R41, R47): a full queue stalls the controller, or clears pd. -/
def Core.pushOrStall (c : Core) (n : Nat) (e : QEntry) (try_ : Bool) (pd : PReg) : Core :=
  if c.queueFull n then
    if try_ then (c.setP pd false).next
    else { c with rs := .stalled, stall := some (.queue n e) }
  else
    let c := c.push n e
    (if try_ then c.setP pd true else c).next

/-! Scratch (R38, R55, R77). -/

/-- Bytes of scratch (R38, R73). -/
def scratchSize : Nat := 0x180000

/-- Do the bytes [a, a+n) meet one of the regions? -/
def bytesMeet (a n : Nat) (l : List (Nat × Nat)) : Bool := l.any fun (b, m) => meets a n b m

/-- Do the bytes [a, a+n) share an aligned 8 B word with one of the regions (R77)? -/
def wordsMeet (a n : Nat) (l : List (Nat × Nat)) : Bool :=
  l.any fun (b, m) => decide (0 < n) && decide (0 < m) &&
    decide (a / 8 ≤ (b + m - 1) / 8) && decide (b / 8 ≤ (a + n - 1) / 8)

/-- Does a write of [a, a+n) disturb a command that reads and writes these regions (R55)? -/
def disturbs (a n : Nat) (reads dests : List (Nat × Nat)) : Bool := bytesMeet a n reads || bytesMeet a n dests

/-- Marks the running commands, other than that of engine `except` (of springbok, entry `self`), that a write of
[a, a+n) disturbs, and tells those that write other bytes of the same words (R55, R77). -/
def Core.taint (c : Core) (except self a n : Nat) : Core :=
  (rangeFrom 0 7).foldl (fun c e =>
    let g := c.engine e
    let run := if e = except then g.run else g.run.map fun r => { r with
      tainted := r.tainted || disturbs a n r.reads r.dests
      shared := if wordsMeet a n r.dests then (a, n) :: r.shared else r.shared }
    let act := g.active.map fun r => if e = except ∧ r.id = self then r else { r with
      tainted := r.tainted || disturbs a n r.reads r.dests
      shared := if wordsMeet a n r.dests then (a, n) :: r.shared else r.shared }
    if run = g.run ∧ act = g.active then c else c.setEngine e { g with run := run, active := act }) c

/-- The regions that running commands write, other than that of engine `except` (of springbok, entry `self`). -/
def Core.otherDests (c : Core) (except : Nat) (self : Nat := 0) : List (Nat × Nat) :=
  (rangeFrom 0 7).flatMap fun e =>
    let g := c.engine e
    (match g.run with | some r => if e = except then [] else r.dests | none => []) ++
      g.active.flatMap fun r => if e = except ∧ r.id = self then [] else r.dests

/-- Free bytes, eight a draw. -/
def freeBytes (env : CoreEnv) (c : Core) (n : Nat) : List Byte :=
  ((rangeFrom 0 ((n + 7) / 8)).flatMap fun i => wordBytes (c.freeAt env i)).take n

/-- The aligned 8 B words of [a, a+n), by number. -/
def wordsOf (a n : Nat) : List Nat := if n = 0 then [] else rangeFrom (a / 8) ((a + n - 1) / 8 + 1 - a / 8)

/-- The aligned 8 B words of [a, a+n) that meet one of the regions (R77). -/
def sharedWords (a n : Nat) (l : List (Nat × Nat)) : List Nat :=
  if l.isEmpty then [] else (wordsOf a n).filter fun w => wordsMeet (8 * w) 8 l

/-- Leaves a free value in whole words (R77). -/
def Core.freeWords (env : CoreEnv) (c : Core) (ws : List Nat) : Core :=
  ws.foldl (fun c w => { c with scratch := Mem.write c.scratch (8 * w) (wordBytes (c.freeAt env 0)) }.drew 1) c

/-- Writes scratch; a word of which another requester writes other bytes without order is left free (R77). -/
def Core.write (env : CoreEnv) (c : Core) (a : Nat) (l : List Byte) (shared : List (Nat × Nat)) : Core :=
  { c with scratch := Mem.write c.scratch a l }.freeWords env (sharedWords a l.length shared)

/-- The aligned 8 B words of [a, a+n) of which it holds a part only. -/
def partWords (a n : Nat) : List Nat := (wordsOf a n).filter fun w => decide (8 * w < a) || decide (a + n < 8 * w + 8)

/-- A store into scratch by the controller, or by another core's `springbok.cput` that arrives (R37, R51, R117). A
store into a word that a running engine command writes leaves that word free, and one into bytes that it reads or
writes makes what that command writes free (R55, R77). A word of which the one side writes a part after the other
did, with no counter of the controller between them, is left free too (R77). -/
def Core.storeBy (env : CoreEnv) (c : Core) (own : Bool) (a : Nat) (l : List Byte) : Core :=
  let n := l.length
  let ps := partWords a n
  let clash := ps.filter fun w => (if own then c.inWords else c.ownWords).contains w
  let c := ((c.write env a l (c.otherDests 7)).freeWords env clash).taint 7 0 a n
  if own then { c with ownWords := ps ++ c.ownWords.filter fun w => !ps.contains w }
  else { c with inWords := ps ++ c.inWords.filter fun w => !ps.contains w }

/-- A controller store. -/
def Core.store (env : CoreEnv) (c : Core) (a : Nat) (l : List Byte) : Core := c.storeBy env true a l

/-- The controller has completed a wait: a counter stands between it and what was stored before (R53, R77). -/
def Core.ordered (c : Core) : Core := { c with ownWords := [], inWords := [] }

/-! CSRs (R59). -/

/-- Value of CORE_CYCLE (R63): it stands still while the clock is stopped. -/
def Core.cycle (env : CoreEnv) (c : Core) : Nat :=
  if c.ctl.clkStopped then c.cycHeld else env.clk - c.cycOff

/-- The code of CORE_STATE (R59). -/
def RunState.code : RunState → Nat
  | .haltedReset => 0 | .running => 1 | .stalled => 2 | .sleeping => 3 | .haltedDouble => 4
  | .haltedSelf => 5 | .haltedCtl => 6 | .fenced => 7

/-- Is the core halted so that it can be started (CORE_STATE 0, 4, 5 or 6; R60)? -/
def RunState.halted : RunState → Bool
  | .haltedReset | .haltedDouble | .haltedSelf | .haltedCtl => true
  | _ => false

/-- CORE_ENG_STATUS (R59, R572). -/
def Core.engStatus (c : Core) : Word :=
  BitVec.ofNat 64 ((rangeFrom 0 7).foldl (fun v n =>
    let e := c.engine n
    let held := e.faulted || e.active.any (·.faulted.isSome)
    v + (e.busy.toNat + held.toNat * 2 ^ 8 + (c.queueFull n).toNat * 2 ^ 16) * 2 ^ n) 0)

/-- Reads a CSR; none where the number names none. WO fields read 0 (R6, R59). -/
def Core.csrRead (env : CoreEnv) (c : Core) (k : Nat) : Option Word :=
  if k = 0x000 then some env.idWord
  else if k = 0x001 then some c.job
  else if k = 0x002 then some (BitVec.ofNat 64 (c.cycle env))
  else if k = 0x003 then some (BitVec.ofNat 64 env.systime)
  else if k = 0x004 then some c.timerCmp
  else if k = 0x005 then some c.sysCmp
  else if k = 0x006 then some c.ctlReg
  else if k = 0x007 then some (BitVec.ofNat 64 c.rs.code)
  else if k = 0x010 then some (c.ctl.vbase.setWidth 64)
  else if k = 0x011 then some c.excCause
  else if k = 0x012 then some c.excPc
  else if k = 0x013 then some c.excValue
  else if k = 0x014 then some (match c.ctl.frames.getLast? with | some f => f.word | none => 0)
  else if k = 0x015 then some (BitVec.ofNat 64 c.ctl.frames.length)
  else if k = 0x020 then some ((c.ctl.pending c.cond).setWidth 32 |>.setWidth 64)
  else if k = 0x021 then some 0
  else if k = 0x022 then some (c.ctl.levelWord 0)
  else if k = 0x023 then some (c.ctl.levelWord 1)
  else if k = 0x024 then some (BitVec.ofNat 64 c.ctl.thresh)
  else if k = 0x025 then some (BitVec.ofNat 64 c.ctl.run)
  else if k = 0x026 then some (c.ctl.insvc.setWidth 32 |>.setWidth 64)
  else if k = 0x027 then some (BitVec.ofNat 64 c.ctl.lost)
  else if 0x030 ≤ k ∧ k ≤ 0x03F then some (c.cntIrqOf (k - 0x030))
  else if k = 0x040 then some (BitVec.ofNat 64 c.mail.length)
  else if k = 0x041 then some (BitVec.ofNat 64 c.mboxHwm)
  else if k = 0x050 then some c.engStatus
  else if 0x060 ≤ k ∧ k ≤ 0x06F then some ((c.cntr (BitVec.ofNat 4 (k - 0x060))).setWidth 64)
  else none

/-- Does a CSR number name a CSR (R36)? -/
def csrExists (k : Nat) : Bool :=
  decide (k ≤ 0x007) || (decide (0x010 ≤ k) && decide (k ≤ 0x015)) ||
  (decide (0x020 ≤ k) && decide (k ≤ 0x027)) || (decide (0x030 ≤ k) && decide (k ≤ 0x041)) ||
  decide (k = 0x050) || (decide (0x060 ≤ k) && decide (k ≤ 0x06F))

/-- Bits of a CSR that are not reserved (R59). -/
def csrMask (k : Nat) : Word :=
  if k = 0x001 then 0x1FF3F#64
  else if k = 0x006 then 0x1FFFD#64
  else if k = 0x010 then 0x1FF00#64
  else if k = 0x014 then 0x3FFFFFFFC#64
  else if k = 0x015 then 0x1F#64
  else if k = 0x020 then 0xFFFFFFFF#64
  else if k = 0x021 then 0xC0000000#64
  else if k = 0x024 then 0xF#64
  else if 0x030 ≤ k ∧ k ≤ 0x03F then 0x1FFFFFFFF#64
  else if k = 0x041 then 0x3F#64
  else if 0x060 ≤ k ∧ k ≤ 0x06F then 0xFFFFFFFF#64
  else BitVec.allOnes 64

/-- Does the CSR's access type let this side change it by a write (R59)? `die` is the die
controller's side. -/
def csrWritable (k : Nat) (die : Bool) : Bool :=
  decide (k = 0x004) || decide (k = 0x005) || decide (k = 0x010) || decide (k = 0x014) ||
  decide (k = 0x020) || decide (k = 0x021) || decide (k = 0x022) || decide (k = 0x023) ||
  decide (k = 0x024) || (decide (0x030 ≤ k) && decide (k ≤ 0x03F)) || decide (k = 0x041) ||
  (die && (decide (k = 0x001) || decide (k = 0x006) || decide (k = 0x015) ||
    (decide (0x060 ≤ k) && decide (k ≤ 0x06F))))

/-- Is the CSR of type W1C or WO, so that set and clear write the value itself (R37)? -/
def csrActs (k : Nat) : Bool := decide (k = 0x020) || decide (k = 0x021)

/-- Writing 1s to reserved bits leaves the other bits with free values (R9; log entry 8). -/
def Core.reservedOk (env : CoreEnv) (c : Core) (m v : Word) : Word × Core :=
  if v &&& ~~~ m = 0 then (v, c) else (c.freeAt env 0 &&& m, c.drew 1)

/-- Asks every engine of a core to stop, or lets them go on (R126). -/
def Core.stopEngines (c : Core) (b : Bool) : Core :=
  (rangeFrom 0 7).foldl (fun c n => c.setEngine n { c.engine n with stop := b, held := false }) c

/-- Has a stop been requested of a core since it last ran (R250)? -/
def Core.stopping (c : Core) : Bool := (c.engine 6).stop

/-- A core stops at an instruction boundary while its die controller reloads: what it was doing is kept, its engines but
springbok are asked to stop, and springbok issues nothing (R494). -/
def Core.pauseFor (c : Core) : Core :=
  if c.rs = .fenced ∨ c.pause.isSome then c
  else
    let c := if c.stopping then c else (rangeFrom 0 6).foldl (fun c n => c.setEngine n { c.engine n with stop := true, held := false }) c
    { c with pause := some (c.rs, c.stall), rs := if c.rs.halted then c.rs else .haltedCtl, stall := none,
             ctl := { c.ctl with turn := .none } }

/-- The core goes on from the same state (R494). -/
def Core.unpause (c : Core) : Core :=
  match c.pause with
  | none => c
  | some (rs, stall) =>
    let c := if c.stopping then c else (rangeFrom 0 6).foldl (fun c n => c.setEngine n { c.engine n with stop := false, held := false }) c
    { c with pause := none, rs := rs, stall := stall }

/-- Starts a core at an address (R60); a core that a pre-emption released runs again (R250). -/
def Core.start (c : Core) (pc : Nat) : Core :=
  let c := if c.stopping then c.stopEngines false else c
  { c with rs := .running, stall := none, noticeHalt := false,
           ctl := { c.ctl with pc := BitVec.ofNat 17 pc, turn := .none, asleep := false } }

/-- The clock of a core stops: CORE_CYCLE stands still (R63). -/
def Core.stopClock (env : CoreEnv) (c : Core) : Core :=
  { c with cycHeld := c.cycle env, ctl := { c.ctl with clkStopped := true } }

/-- The clock of a core runs again, and the held edges arrive (R421). -/
def Core.runClock (env : CoreEnv) (c : Core) : Core :=
  if c.ctl.clkStopped then
    let lost := c.ctl.lost
    let ctl := c.ctl.restart
    { c with cycOff := env.clk - c.cycHeld, ctl := ctl, noticeLost := c.noticeLost || decide (ctl.lost ≠ lost) }
  else c

/-- Halts a core in a given state at an instruction boundary; what it stalled on is abandoned (R60).
The island clock runs while the core is halted. -/
def Core.halt (env : CoreEnv) (c : Core) (st : RunState) : Core :=
  let c := c.runClock env
  { c with rs := st, stall := none, noticeHalt := true, ctl := { c.ctl with asleep := false, turn := .none } }

/-- A write of CORE_CTL (R60): with run = 1 it starts a halted core, with run = 0 it halts one that
runs; a core that is down ignores it. While the die controller reloads, what it carries out is stored only (R494). -/
def Core.writeCtl (env : CoreEnv) (c : Core) (v : Word) : Core :=
  if c.rs = .fenced then c
  else
    let c := { c with ctlReg := v }
    if c.pause.isSome then c
    else if bit v 0 then (if c.rs.halted then c.start (fld v 2 15 * 4) else c)
    else if c.rs.halted then c
    else c.halt env .haltedCtl

/-- A write of CORE_FRAME_TOP (R571). -/
def Core.writeFrameTop (c : Core) (v : Word) : Core :=
  if c.ctl.frames.isEmpty then c
  else { c with ctl := { c.ctl with frames := c.ctl.frames.dropLast ++ [Frame.ofWord v] } }

/-- A write of CORE_FRAME_DEPTH by the die controller (R571): only while halted, and only 0 to 16. The spec names the
slots and the depth only: the running level and the in-service bits stay (DESIGN CHOICE, log entry 77). -/
def Core.writeFrameDepth (c : Core) (v : Word) : Core :=
  let d := v.toNat
  if c.rs.halted && decide (d ≤ 16) then
    let fs := c.ctl.frames.take d
    { c with ctl := { c.ctl with
        frames := fs ++ List.replicate (d - fs.length) ⟨0, false, 0, 0, 0⟩ } }
  else c

/-- Software sources 30 and 31 (R64). -/
def Core.swSet (c : Core) (v : Word) : Core :=
  let c := if bit v 30 then c.edge 30 else c
  if bit v 31 then c.edge 31 else c

/-- A write of CORE_CNT_IRQn: a counter that already reaches the target fires at once (R64). -/
def Core.writeCntIrq (c : Core) (n : Nat) (v : Word) : Core :=
  { c with cntIrq := SMap.set (fun _ => 0) c.cntIrq n v }.fireCnt (BitVec.ofNat 4 n)

/-- The effect of writing the value `v`, reserved bits clear, to a CSR that this side may write. -/
def Core.csrStore (env : CoreEnv) (c : Core) (k : Nat) (v : Word) : Core :=
  if k = 0x001 then { c with job := v }
  else if k = 0x004 then { c with timerCmp := v, timerArmed := true }
  else if k = 0x005 then { c with sysCmp := v, sysArmed := true }
  else if k = 0x006 then c.writeCtl env v
  else if k = 0x010 then { c with ctl := { c.ctl with vbase := v.setWidth 17 } }
  else if k = 0x014 then c.writeFrameTop v
  else if k = 0x015 then c.writeFrameDepth v
  else if k = 0x020 then { c with ctl := c.ctl.clearPend (v.setWidth 256) }
  else if k = 0x021 then c.swSet v
  else if k = 0x022 then { c with ctl := c.ctl.setLevelWord 0 v }
  else if k = 0x023 then { c with ctl := c.ctl.setLevelWord 1 v }
  else if k = 0x024 then { c with ctl := { c.ctl with thresh := v.toNat % 16 } }
  else if 0x030 ≤ k ∧ k ≤ 0x03F then c.writeCntIrq (k - 0x030) v
  else if k = 0x041 then { c with mboxHwm := v.toNat % 64 }
  else if 0x060 ≤ k ∧ k ≤ 0x06F then c.setCnt (BitVec.ofNat 4 (k - 0x060)) (low32 v)
  else c

/-- How `csr.wr`, `csr.set` and `csr.clr` form the value written (R37). -/
inductive CsrHow where
  | wr | set | clr
  deriving DecidableEq, Repr

/-- A write of a CSR by the core (`die` false) or by its die controller (R6, R9, R37, R59). -/
def Core.csrWrite (env : CoreEnv) (c : Core) (k : Nat) (how : CsrHow) (v : Word) (die : Bool) : Core :=
  if !csrWritable k die then c
  else
    let old := (c.csrRead env k).getD 0
    let v := if csrActs k then v else match how with
      | .wr => v
      | .set => old ||| v
      | .clr => old &&& ~~~ v
    let (v, c) := c.reservedOk env (csrMask k) v
    c.csrStore env k v

end Sys2Proof.Machine
end

