-- ==== Sys2Proof/Machine/NetState.lean ====
section
/-!
DEFINITION. State of the die meshes, the Chomet base, device memory, translation, the fabric and the
transport (05 to 09), and what the device sends.
-/

namespace Sys2Proof.Machine

/-- A reduction entry of a router for one context (R181): format, output port (0 N, 1 S, 2 W, 3 E,
4 L, 5 edge) and expected inputs (bit 4 N, 3 S, 2 W, 1 E, 0 L). -/
structure RedEntry where
  red : Nat
  out : Nat
  inputs : Nat
  deriving DecidableEq, Repr

/-- A combining slot of a router (R183): context, chunk, the sum so far, the inputs that arrived, whether a fenced
core's value is missing (R190), and the flits of the sum that are poisoned (R193). A slot whose inputs have all
arrived waits for the next router's credit. -/
structure RedSlot where
  ctx : Nat
  chunk : Nat
  sum : List Byte
  seen : Nat
  void : Bool
  poison : List Nat
  deriving DecidableEq, Repr

/-- One router: its reduction entries by context and its combining slots. -/
structure Router where
  entries : SMap (Option RedEntry)
  slots : List RedSlot
  deriving DecidableEq, Repr

/-- A router that no context uses. -/
def Router.reset : Router := { entries := [], slots := [] }

/-- A flit on a die's mesh (R169): the number of its packet among those on the meshes, the control bits by name, the
packet header in the head flit, and 64 data bytes. -/
structure MeshFlit where
  id : Nat
  head : Bool
  tail : Bool
  vn : Nat
  vc : Nat
  header : Nat
  data : List Byte
  deriving DecidableEq, Repr

/-- A packet on a die's mesh: its number; the input it was given to, 8 × router + port, port 4 of the core, 5 of the
router itself; the router it goes to and what takes it there: the attachment of port 0 N, 1 S, 2 W, 3 E, 4 the core,
5 the combining slots, at input `inp` of R181, 6 the channel VC1; its buffer class; and whether its tail has got
there. -/
structure MeshPkt where
  id : Nat
  src : Nat
  dst : Nat
  exit : Nat
  inp : Nat
  buf : Nat
  pkt : Pkt
  here : Bool
  deriving DecidableEq, Repr

/-- The meshes of the eight dies (R163 to R188). `seen` counts the entries of the device's output that have been put
on them. Flits wait at an input (key 8 × router + port), stand in its buffers (key 8 × that + class: 0 REQ, 1 RSP,
2 COL VC0, 3 COL VC1, 4 MGT), and hold an output (key 8 × (8 × router + output) + class: the packet's number);
`age` counts the mesh cycles that a network has waited (the same key, by network). -/
structure MeshState where
  seen : Nat
  nextId : Nat
  flying : List MeshPkt
  wait : SMap (List MeshFlit)
  bufs : SMap (List MeshFlit)
  lock : SMap (Option Nat)
  age : SMap Nat
  deriving DecidableEq, Repr

/-- Meshes on which nothing moves. -/
def MeshState.reset : MeshState := { seen := 0, nextId := 0, flying := [], wait := [], bufs := [], lock := [], age := [] }

/-- What a writer holds for one reader (R199 to R203): window, credits, next seq, packets sent and
not acknowledged with their seq, waveguide, send time and resends; when it last had something to
send, whether the reader flagged a waiting writer and since when; and when WIN_REQ was sent. -/
structure ChWriter where
  win : Option Nat
  credits : Nat
  seq : Nat
  retry : List (Nat × Nat × Nat × Nat × Pkt)
  last : Nat
  flagged : Option Nat
  reqAt : Option Nat
  deriving DecidableEq, Repr

/-- A writer that holds nothing. -/
def ChWriter.reset : ChWriter :=
  { win := none, credits := 0, seq := 0, retry := [], last := 0, flagged := none, reqAt := none }

/-- A burst that a writer announced to a reader (R197, R200): the waveguides named, the packets still to come, the
channels on spares by the map that it was announced with, whether it names other readers too, and when it was
announced. -/
structure ChBurst where
  wg : Nat
  cast : Bool
  left : Nat
  moved : List (Nat × Nat × Nat)
  at_ : Nat
  deriving DecidableEq, Repr

/-- What a reader holds for one writer (R196, R197, R199, R200, R202): window number; the credits that the writer has
by the reader's count, and those that the next ACK returns; the next expected seq; packets held out of order; the
bursts announced and not yet over, the front one first: its bank is unparked on their waveguides. -/
structure ChReader where
  win : Option Nat
  credits : Nat
  owed : Nat
  expect : Nat
  held : List (Nat × Pkt)
  bursts : List ChBurst
  /-- The channel map adopted: generation, and (waveguide, channel, spare) moved; and the moves that MAP words named
  and no announcement yet, with their generations (R197). -/
  mapGen : Nat
  moved : List (Nat × Nat × Nat)
  maps : List (Nat × Nat × Nat × Nat)
  deriving DecidableEq, Repr

/-- A reader that serves no window. -/
def ChReader.reset : ChReader :=
  { win := none, credits := 0, owed := 0, expect := 0, held := [], bursts := [], mapGen := 0, moved := [], maps := [] }

/-- A burst that waits at its writer until every reader holds a window with enough credits (R203). -/
structure WaitBurst where
  writer : Nat
  readers : List Nat
  pkts : List Pkt
  deriving DecidableEq, Repr

/-- A multicast under way (R203): its writer, and the (reader, seq) not acknowledged yet. -/
structure Cast where
  writer : Nat
  left : List (Nat × Nat)
  deriving DecidableEq, Repr

/-- A packet of a burst that crosses the seam on the seam link (R15, R16, R209): direction 0 west to east, 1 east to
west; is it management traffic; bytes not sent yet; writer, reader, seq and waveguide. -/
structure SeamItem where
  dir : Nat
  mgmt : Bool
  bytes : Nat
  writer : Nat
  reader : Nat
  seq : Nat
  wg : Nat
  pkt : Pkt
  deriving DecidableEq, Repr

/-- The Chomet base (R195 to R217): writers and readers by 28 * writer + reader, and the writers waiting at each reader
in order of request. -/
structure BaseState where
  wr : SMap ChWriter
  rd : SMap ChReader
  waiting : SMap (List Nat)
  /-- Channels each writer moved onto a spare: (waveguide, channel, spare) (R197, R207). -/
  moved : SMap (List (Nat × Nat × Nat))
  /-- Bursts announced by each writer; bursts that wait; multicasts under way, and those each writer counted delivered. -/
  bursts : SMap Nat
  wait : List WaitBurst
  casts : List Cast
  delivered : SMap Nat
  /-- Reply slots in use at each compute stop, and the requests that wait for one (R205). -/
  slots : SMap Nat
  slotWait : SMap (List Pkt)
  /-- Packets that wait for the seam link. -/
  seam : List SeamItem
  /-- Lane groups that failed and wait for a quiesce point: 40 * die + group (R216). -/
  vliFailed : List Nat
  deriving DecidableEq, Repr

/-- The base after reset. -/
def BaseState.reset : BaseState :=
  { wr := [], rd := [], waiting := [], moved := [], bursts := [], wait := [], casts := [], delivered := [], slots := [],
    slotWait := [], seam := [], vliFailed := [] }

/-- A retired frame as the list records it (R230). -/
structure Retired where
  stack : Nat
  pc : Nat
  offset : Nat
  cause : Nat
  deriving DecidableEq, Repr

/-- A request that a memory stop holds (R232): of a requester, of the host by DM_RD or DM_WR (R335), or of a stream;
and an access of the host that waits behind a DM_WR (R336). -/
inductive HeldReq where
  | pkt (p : Pkt) (ecc : List LineRead)
  | dmRd (tag addr len : Nat) (ecc : LineRead)
  | dmWr (addr : Nat) (data : List Byte) (ecc : LineRead)
  | crRd (tag off len : Nat)
  | crWr (off len : Nat) (val : Word)
  /-- A write of a stream to its ring or control block, and the reading of its control block as it opens (R378 to
  R380): `ws` are the words as host memory would give them. -/
  | stream (n addr : Nat) (data : List Byte)
  | opens (n addr : Nat) (ws : List Word)
  deriving DecidableEq, Repr

/-- Device memory and what the memory stops keep of it. -/
structure MemState where
  bytes : SMap Byte
  /-- 64 B lines, by address / 64, that read as uncorrectable (R226, R227, R229). -/
  bad : SMap Bool
  /-- Corrected reads per granule and the day window they fell in (R229). -/
  corrected : SMap (Nat × Nat)
  /-- Uncorrectable line reads per pseudo-channel and the hour window they fell in (R233). -/
  pcBad : SMap (Nat × Nat)
  /-- SECDED corrections per lane (key 4096 * stack + 256 * channel + lane) in a 1 ms window. -/
  lanes : SMap (Nat × Nat)
  /-- Repair lanes used per channel, and repairs under way (R231, R232). -/
  repairs : SMap Nat
  /-- Lanes repaired in training, as package flash records them: stack, pseudo-channel and lane (R231). -/
  trained : List (Nat × Nat × Nat)
  repairing : List (Nat × Nat × Nat)
  /-- Requests held while their channel is repaired, oldest first (R232). -/
  held : List HeldReq
  /-- The retired list, and the list that package flash holds (R230, R529). -/
  retired : List Retired
  recorded : List Retired
  /-- The effective interleave map E, and the map-out list for the next cold reset (R224, R233). -/
  map : List Nat
  mapOut : List Nat
  deriving DecidableEq, Repr

/-- A cached leaf translation (R236, R238). -/
structure Tlb where
  job : Nat
  va : Nat
  size : Nat
  pa : Nat
  tgt : Nat
  hc : Bool
  w : Bool
  deriving DecidableEq, Repr

/-- A page-table walk in progress for the springbok of a core (R237). -/
structure Walk where
  core : Nat
  job : Nat
  va : Nat
  access : Nat
  kind : Nat
  level : Nat
  table : Nat
  tgt : Nat
  deriving DecidableEq, Repr

/-- A pending translation fault (R242). -/
structure MFault where
  id : Nat
  core : Nat
  job : Nat
  va : Nat
  access : Nat
  cause : Nat
  kind : Nat
  raised : Nat
  deriving DecidableEq, Repr

/-- An invalidation in progress (R239), and the submission entry that asked for it, if one did. -/
structure Inval where
  scope : Nat
  size : Nat
  job : Nat
  va : Nat
  entry : Option (Nat × Nat)
  deriving DecidableEq, Repr

/-- A core in a save or resume (R249): its key, its CORE_STATE at the stop request, whether a pending fault of it
was withdrawn, and the pages of its record once all of it but the commit word is written. -/
structure XferCore where
  key : Nat
  state : Nat
  withdrawn : Bool
  pages : List Nat := []
  deriving DecidableEq, Repr

/-- A save or resume under way on a die (R249, R251): the job, the base, the cores, those fenced
meanwhile, the status reached so far (none while it works), the save sequence, the SYSTIME of its
start, and the submission entry that asked for it. -/
structure Transfer where
  save : Bool
  job : Nat
  base : Nat
  cores : List XferCore
  lost : List Nat
  status : Option Nat
  seq : Nat
  t0 : Nat
  ring : Nat
  index : Nat
  deriving DecidableEq, Repr

/-- What the device-private engine area of a save record means (R248, log entry 18): the save
sequence, die, row and logical column, job, base, and the engines as they were held; with them the running level and
whether the timer and SYSTIME comparisons were armed, which no register of the record shows (R61). -/
structure SavedEng where
  seq : Nat
  die : Nat
  row : Nat
  col : Nat
  job : Nat
  base : Nat
  eng : SMap Engine
  run : Nat
  timerArmed : Bool
  sysArmed : Bool
  /-- The record's pages, and whether one was written since (R255). -/
  pages : List Nat
  dirty : Bool
  deriving DecidableEq, Repr

/-- Translation and the die controllers' pre-emption state (R234 to R256). -/
structure MmuState where
  utlb : SMap (List Tlb)
  tlb : SMap (List Tlb)
  walks : List Walk
  faults : List MFault
  gen : SMap Nat
  invs : List Inval
  saveSeq : SMap Nat
  xfers : SMap (Option Transfer)
  /-- Transfers that ended SAVE_FAULT or SAVE_ERROR, whose cores can be restarted in place (R252). -/
  stopped : List (Nat × Transfer)
  saved : List SavedEng
  /-- The last reply of a core to each die controller: error and data (R175, R190). -/
  dieRsp : SMap (Nat × List Byte)
  deriving DecidableEq, Repr

/-- Translation after reset. -/
def MmuState.reset : MmuState :=
  { utlb := [], tlb := [], walks := [], faults := [], gen := [], invs := [], saveSeq := [], xfers := [], stopped := [], saved := [], dieRsp := [] }

/-- One port link (R268 to R272). The sender's next seq; its replay buffer, oldest first, with each
flit's send time; the seq that the far end expects as far as acknowledgements said; the flit last
NAKed and how often; when replay began and the seq it must pass; when retraining began. The
receiver's expected seq, whether anything has been received, whether a NAK is outstanding, the packet partly received
and its flits so far, and the flits still to fail of an uncorrectable codeword (R264). Credits by
buffer 3 * vn + vc, and credits that wait to be returned (buffer, count). Of each packet in the replay buffer, by the seq
of its head: the channel and the direction by which it came to this device (R272, R279). Other ports whose ordered
packets up to a seq go before this port takes ordered traffic (R280). -/
structure Link where
  txSeq : Nat
  replay : List (Nat × Flit)
  acked : Nat
  nakSeq : Nat
  naks : Nat
  replayAt : Option Nat
  replayFrom : Nat
  retrainAt : Option Nat
  rxSeq : Nat
  rxAny : Bool
  nakSent : Bool
  rxPkt : Option Pkt
  rxN : Nat
  rxBad : Nat
  credits : SMap Nat
  owe : List (Nat × Nat)
  came : List (Nat × Nat × Option Nat)
  after : List (Nat × Nat)
  /-- FAB_TOPO digest and lane map that the far end reported in training (R270). -/
  digest : Nat
  lanes : BitVec 18
  /-- TIME exchange in flight: sequence and t1; the next sequence; when the last one started; and
  hops and aligned last reported (R296). -/
  exch : Option (Nat × Nat)
  exchSeq : Nat
  exchAt : Option Nat
  hops : Nat
  aligned : Bool
  /-- A TIME request not answered yet: sequence and t2. -/
  answer : Option (Nat × Nat)
  /-- Congestion samples of the window: sum, peak, count, replayed (R293). -/
  occSum : Nat
  occPeak : Nat
  occN : Nat
  replayed : Bool
  deriving DecidableEq, Repr

/-- Flits of buffer 3 * vn + vc (R275). -/
def bufSize (k : Nat) : Nat := nth 0 [160, 40, 40, 160, 40, 40, 20, 20, 4, 20, 10, 10] k

/-- A link before it trains. -/
def Link.reset : Link :=
  { txSeq := 0, replay := [], acked := 0, nakSeq := 0, naks := 0, replayAt := none, replayFrom := 0,
    retrainAt := none, rxSeq := 0, rxAny := false, nakSent := false, rxPkt := none, rxN := 0, rxBad := 0, credits := [],
    owe := [], came := [], after := [], digest := 0, lanes := 0, exch := none, exchSeq := 0, exchAt := none, hops := 63,
    aligned := false, answer := none, occSum := 0, occPeak := 0, occN := 0, replayed := false }

/-- A packet waiting in a buffer of a port stop (R275, R278): the stop, the channel it came on, the
current target, the port it came in by, of whose buffer it holds the credits, and the direction it came from; whether it
has moved to the escape channels; and since when it could go (R276). -/
structure FabPkt where
  stop : Nat
  pkt : Pkt
  vc : Nat
  dst : Nat
  port : Option Nat
  from_ : Option Nat := none
  esc : Bool := false
  ready : Option Nat := none
  deriving DecidableEq, Repr

/-- A collective context beside its registers (R287 to R291): the CTX_READY messages received, with
their sender, digest and grant; the credits held toward the downstream and upstream member, the port stops of which it
reserved slots, and how many; the chunks being added at the
flow stop with the writers that arrived and whether a void came, and those of them that a sender called the last; the result chunks that wait for a credit (chunk, data,
void, last); the tail acknowledgements that wait; and the chunks that the root has
multicast since the last tail acknowledgement. -/
structure ColCtx where
  readyFrom : List (Nat × Word × Nat)
  down : Nat
  up : Nat
  stops : List Nat
  reserved : Nat
  accs : List (Nat × List (Nat × List Byte) × Bool)
  lasts : List Nat
  results : List (Nat × List Byte × Bool × Bool)
  tails : Nat
  sent : Nat
  defn : Word
  deriving DecidableEq, Repr

/-- A context that does not exist. -/
def ColCtx.reset : ColCtx := { readyFrom := [], down := 0, up := 0, stops := [], reserved := 0, accs := [], lasts := [], results := [], tails := 0, sent := 0, defn := 0 }

/-- The transmitter of a port direction (R264): the state of its scrambler, and its codewords modulo 1,024. -/
structure Pcs where
  scr : Nat
  words : Nat
  deriving DecidableEq, Repr

/-- The fabric (R261 to R298). `seen` counts the entries of the device's output that its codewords carry. -/
structure FabState where
  links : SMap Link
  pcs : SMap Pcs
  seen : Nat
  /-- Packets waiting at the port stops, oldest first. -/
  queue : List FabPkt
  relayBuf : List Pkt
  floodSeq : Nat
  floods : List (Nat × Nat)
  ctxs : SMap ColCtx
  cmapSeq : Nat
  cmapStart : Nat
  deriving DecidableEq, Repr

/-- The fabric after reset. -/
def FabState.reset : FabState :=
  { links := [], pcs := [], seen := 0, queue := [], relayBuf := [], floodSeq := 0, floods := [], ctxs := [], cmapSeq := 0, cmapStart := 0 }

/-- A transport slot of a compute stop (R313 to R319). -/
structure XSlot where
  pkt : Pkt
  attempts : Nat
  sentAt : Nat
  retries : Nat
  retryAt : Option Nat
  timeout : Nat
  deriving DecidableEq, Repr

/-- An entry of the replay table (R318): its key, the stored reply, and when it was last touched. -/
structure REntry where
  dev : Nat
  core : Nat
  tag : Nat
  t0 : Nat
  reply : Option Pkt
  touched : Nat
  deriving DecidableEq, Repr

/-- The transport: slots by 8 core key + tag's slot, replay tables by port stop 20 to 23, when each
came into service, and acknowledgements not yet sent (R313 to R325). -/
structure XportState where
  slots : SMap (Option XSlot)
  table : SMap (List REntry)
  tUp : SMap (Option Nat)
  acks : List (Nat × Nat × Nat × Nat)
  deriving DecidableEq, Repr

/-- The transport after reset. -/
def XportState.reset : XportState := { slots := [], table := [], tUp := [], acks := [] }

/-- What a sequenced Bolmin frame carries (R367, R368): up to four message headers, link credits returned, and
up to 39 data slots. -/
structure BolFrame where
  hdrs : List Nat
  lcr : Nat
  data : List Byte
  deriving DecidableEq, Repr

/-- What the device sends or drives, in order (log entry 6). -/
inductive Out where
  /-- A packet put on the base or the fabric towards its destination. -/
  | pkt (p : Pkt)
  /-- A packet put on a die's mesh at router `k`: at the attachment of port 0 to 3, by the core (4), or by the router
  itself, on its output N, S, W or E (8 to 11) or to the attachment of an egress group (13). -/
  | mesh (k port : Nat) (p : Pkt)
  /-- A packet that a writer sends to a reader in a burst on the base: seq, waveguide, and whether it crosses on the
  seam link (R209). -/
  | burst (writer reader seq wg : Nat) (seam : Bool) (p : Pkt)
  /-- A control word of a stop (R198). -/
  | ctl (stop : Nat) (w : Word)
  /-- A sequenced flit on a port, with the last seq received in order that it carries back (R265). -/
  | flit (port : Nat) (f : Flit) (ack : Option Nat)
  /-- A NAK flit that names the expected seq. -/
  | nak (port seq : Nat)
  /-- A TRAIN flit: device index, port, FAB_TOPO digest and lane map (R270). -/
  | train (port dev digest : Nat) (lanes : BitVec 18)
  /-- An IDLE flit of a port: the last seq received in order, and the buffer and
  count of credits returned (R265). -/
  | idle (port : Nat) (ack : Option Nat) (crIdx crCnt : Nat)
  /-- A codeword of a port, as the symbols of each wavelength in use (R264). -/
  | codeword (port : Nat) (lanes : List (List Nat))
  /-- A slot of a context that frees: credit to the adjacent member in a direction (R290). -/
  | colCredit (dir ctx : Nat)
  /-- An alignment block's management field on a port (R399). -/
  | align (port word : Nat)
  /-- A Nogar message: type, tag, address, status, data (R331). -/
  | nogar (type tag addr status : Nat) (data : List Byte)
  /-- Replay begins from a seq, or a codeword asks the host for replay from one (R332); a message that goes again in the
  codeword of a seq. -/
  | nogarCtl (nak : Bool) (seq : Nat)
  | nogarAgain (seq type tag addr status : Nat) (data : List Byte)
  /-- A Nogar codeword, as the symbols of each lane in use, and an alignment block on every lane (R328). -/
  | nogarWord (lanes : List (List Nat))
  | nogarAlign
  /-- A Bolmin frame: its seq, none for a fill frame, nak, the last frame received in order, and what it carries. -/
  | bolFrame (seq : Option Nat) (nak : Bool) (ack : Nat) (f : BolFrame)
  /-- A Bolmin train frame with its capability block (R372). -/
  | bolTrain (block : List Byte)
  /-- A Bolmin codeword, as the symbols of each lane in use, and an alignment block on every lane (R367). -/
  | bolWord (lanes : List (List Nat))
  | bolAlign
  /-- A mirror record or acknowledgement between the stags (R433, R434). -/
  | mirror (kind seq : Nat) (data : List Byte)
  /-- A stag heartbeat (R443). -/
  | heartbeat (stag : Nat) (claim : Bool)
  /-- A block of an image transfer, to an entry of the list; the pass of the CHAIN_OUT pair (R489, R490); and
  its acknowledgement or refusal. -/
  | chain (dest : Nat) (h : ChainHead) (block pass : Nat) (data : List Byte)
  | chainAck (id block : Nat) (ok : Bool)
  /-- Bytes that the device answers on its management bus (R551 to R553). -/
  | smbus (data : List Byte)
  /-- A pin driven, by name code, with its level or pulse. -/
  | pin (pin : Nat) (level : Bool)
  /-- A pin floated, or given back to its own driver; a bit pattern that the JTAG port shifts out (R554). -/
  | float (pin : Nat)
  | jtag (bits : Nat) (value : Nat)
  /-- A management message to a die controller or stag: code and arguments. -/
  | mgmt (dst code a b : Nat)
  deriving DecidableEq, Repr

end Sys2Proof.Machine
end

