-- ==== Sys2Proof/Machine/HostState.lean ====
section
/-!
DEFINITION. State of the host attachment (10_host_interface.md): the Nogar link, requests to host
memory, rings, completions, events and the configuration swap.
-/

namespace Sys2Proof.Machine

/-- What an outstanding request to host memory is for (R331). -/
inductive HostUse where
  /-- A submission entry of a ring (R340). -/
  | sqEntry (ring index : Nat)
  /-- A watched doorbell line (R344). -/
  | doorbell (line : Nat)
  /-- One line of a packet's read or write, by the packet's number and the offset of the line's bytes in
  its data; and the steps of an atomic (R333, R334). -/
  | read (id off : Nat)
  | write (id off : Nat)
  | own (p : Pkt)
  | back (p : Pkt) (old : List Byte)
  /-- A completion entry, an event entry, an interrupt message (R348, R350, R354). -/
  | compl (ring : Nat)
  | event (ring : Nat)
  | irq (vec : Nat)
  /-- A congestion map, a write of a stream to its ring or control block, host-bound data of a command. -/
  | cmap
  | stream (id : Nat)
  | data (ring index : Nat)
  deriving DecidableEq, Repr

/-- An outstanding request: its use, its line address, and since when it is held (R332). -/
structure HostReq where
  use : HostUse
  addr : Nat
  since : Nat
  deriving DecidableEq, Repr

/-- A packet for host memory, cut into its lines (R331): its number, the lines that have not ended, the
first failure code, and the bytes and poisoned line indices so far. -/
structure HostPkt where
  id : Nat
  pkt : Pkt
  left : Nat
  code : Nat
  got : List (Nat × List Byte)
  poison : List Nat
  deriving DecidableEq, Repr

/-- A message to the host (R330): type, tag, address, status and data. -/
structure HostMsg where
  type : Nat
  tag : Nat
  addr : Nat
  status : Nat
  data : List Byte
  deriving DecidableEq, Repr

/-- A submission entry: ring, index and its eight words (R345). -/
structure SqEntry where
  ring : Nat
  index : Nat
  words : List Word
  deriving DecidableEq, Repr

/-- A completion waiting to be written (R348): ring, index, job, status, cookie, result, and whether
it is written only when the status is not OK. -/
structure Compl where
  ring : Nat
  index : Nat
  job : Nat
  status : Nat
  cookie : Word
  result : Word
  nocqe : Bool
  time : Nat
  deriving DecidableEq, Repr

/-- An event waiting to be written (R350): code, detail bytes, SYSTIME. -/
structure Event where
  code : Nat
  detail : List Byte
  time : Nat
  deriving DecidableEq, Repr

/-- A launch that runs (R347): its entry, the cores it started, and those that have halted under
`halt`. -/
structure Launch where
  ring : Nat
  index : Nat
  job : Nat
  cookie : Word
  nocqe : Bool
  cores : List Nat
  deriving DecidableEq, Repr

/-- A submission ring beside its registers: entries fetched and not started, entries started and not
completed, and whether a fetch is in flight. -/
structure Sq where
  fetched : List SqEntry
  started : List SqEntry
  fetching : Bool
  deriving DecidableEq, Repr

/-- A ring that nothing used. -/
def Sq.reset : Sq := { fetched := [], started := [], fetching := false }

/-- A vector's count of entries since its last message, and the time of the first (R354). -/
structure Vec where
  count : Nat
  first : Nat
  deriving DecidableEq, Repr

/-- The host attachment. -/
structure HostState where
  txSeq : Nat
  rxSeq : Nat
  acked : Nat
  /-- The codewords not acknowledged, oldest first: when each was sent, and its message; when replay last made progress
  and the seq it must reach; since when the link is not active (R332). -/
  sent : List (Nat × HostMsg)
  replayAt : Option Nat
  replayTo : Nat
  retrainAt : Option Nat
  nakSent : Bool
  /-- Credits that the host returned for REQ, RSP and SNP messages, and those spent; those that it is owed, at 3 whether it is owed an
  acknowledgement, and at 4 a request for replay (R329). -/
  credits : SMap Nat
  spent : SMap Nat
  owed : SMap Nat
  /-- Entries of the device's output that its codewords carry; the scrambler's state, and the codewords since the last
  alignment block (R328). -/
  seen : Nat
  scr : Nat
  cws : Nat
  /-- Messages that wait for the link, and requests that wait for a tag, oldest first. -/
  msgs : List HostMsg
  waiting : List (Nat × Nat × HostUse × List Byte)
  reqs : SMap (Option HostReq)
  nextTag : Nat
  pkts : List HostPkt
  nextPkt : Nat
  /-- The host-line cache: address / 64 and the bytes of each line of which the device keeps a shared copy, the oldest
  first (R333). -/
  lines : List (Nat × List Byte)
  /-- Lines whose invalidation waits for the write back of an atomic (R334). -/
  snoops : List Nat
  /-- Doorbell words: 16 * line + word (R343). -/
  words : SMap Nat
  /-- When each watched line is to be read again after a failed reread (R344). -/
  rereadAt : SMap (Option Nat)
  sqs : SMap Sq
  turn : Nat
  compls : List Compl
  launches : List Launch
  /-- JOB_KILL entries whose cores may still hold tracked slots (R347). -/
  kills : List Launch
  /-- Commands queued at the die controllers, by die, and at the holder stag (R346). -/
  dieq : SMap (List SqEntry)
  mgmt : List SqEntry
  events : List Event
  evSeq : Nat
  eqLost : SMap Nat
  vecs : SMap Vec
  /-- CFG_SWAP: lower half held, scheduled time, start of the transition, start of a copy (R358). -/
  swapLow : Nat
  swapAt : Option Nat
  swapStart : Option Nat
  copyStart : Option Nat
  /-- Lower halves held of other WO registers (R567). -/
  halves : SMap Nat
  /-- Upper half of SYSTIME captured by a read of its lower half (R567). -/
  capture : Option Nat
  deriving DecidableEq, Repr

/-- The host attachment after reset. -/
def HostState.reset : HostState :=
  { txSeq := 0, rxSeq := 0, acked := 0, sent := [], replayAt := none, replayTo := 0, retrainAt := none,
    nakSent := false, credits := [], spent := [], owed := [], seen := 0, scr := 0, cws := 0, msgs := [], waiting := [], reqs := [], nextTag := 0, pkts := [], nextPkt := 0, lines := [], snoops := [], words := [], rereadAt := [], sqs := [],
    turn := 0, compls := [], launches := [], kills := [], dieq := [], mgmt := [], events := [],
    evSeq := 0, eqLost := [], vecs := [], swapLow := 0, swapAt := none, swapStart := none, copyStart := none,
    halves := [], capture := none }

end Sys2Proof.Machine
end

