-- ==== Sys2Proof/Machine/LifeState.lean ====
section
/-!
DEFINITION. State of the lifetime ledger (17_lifetime_records.md). Items are numbered as LIFE_SEL
numbers them: counter 0 to 63, and 64 + 16 h + b for bin b of histogram h (R523).
-/

namespace Sys2Proof.Machine

/-- A stored record: sequence and its 4,096 bytes, at a sector of its log (R517, R518). -/
structure LifeRec where
  seq : Nat
  sector : Nat
  bytes : List Byte
  deriving DecidableEq, Repr

/-- The ledger (R512 to R520): the counts of the hour and day window in force, those of the windows
that began and whose predecessor is not yet closed, and the lifetime counts; the flags of the hour
record to come; the two logs, oldest first; the sectors that failed; the sequence and sector of the
next records; the seconds counted so far; and whether the session's counts are still held apart, in
`hour`, until SYSTIME is aligned (R520). -/
structure LifeState where
  hour : SMap Nat
  hourNext : SMap Nat
  day : SMap Nat
  dayNext : SMap Nat
  life : SMap Nat
  continued : Bool
  hourLog : List LifeRec
  dayLog : List LifeRec
  hourBad : List Nat
  dayBad : List Nat
  hourSeq : Nat
  daySeq : Nat
  hourSector : Nat
  daySector : Nat
  second : Nat
  apart : Bool
  deriving DecidableEq, Repr

/-- The ledger of a first session: a cold reset of code 1, and no closing record before it (R515, R519). -/
def LifeState.reset : LifeState :=
  { hour := [(1, 1), (52, 1)], hourNext := [], day := [], dayNext := [], life := [(1, 1), (52, 1)], continued := false, hourLog := [], dayLog := [],
    hourBad := [], dayBad := [], hourSeq := 0, daySeq := 0, hourSector := 0, daySector := 0, second := 0, apart := true }

/-- Adds to an item of a table, saturating at 2^64 - 1 (R515). -/
def itemAdd (m : SMap Nat) (i n : Nat) : SMap Nat :=
  SMap.set (fun _ => 0) m i (min (2 ^ 64 - 1) (SMap.get (fun _ => 0) m i + n))

/-- The length of an hour and of a day window in ns (R512). -/
def hourNs : Nat := 3600000000000
def dayNs : Nat := 86400000000000

/-- Adds to an item at a SYSTIME: the windows that contain it, and the lifetime (R512, R513). -/
def LifeState.add (l : LifeState) (now hourStart dayStart i n : Nat) : LifeState :=
  let l := { l with life := itemAdd l.life i n }
  if l.apart then { l with hour := itemAdd l.hour i n } else
  let l := if now < (hourStart / hourNs + 1) * hourNs then { l with hour := itemAdd l.hour i n }
    else { l with hourNext := itemAdd l.hourNext i n }
  if now < (dayStart / dayNs + 1) * dayNs then { l with day := itemAdd l.day i n }
  else { l with dayNext := itemAdd l.dayNext i n }

end Sys2Proof.Machine
end

