-- ==== Sys2Proof/Machine/Crypto.lean ====
section
/-!
DEFINITION. The cryptographic functions that the manual names: SHA-384 of FIPS 180-4 and the verification
of ECDSA on brainpoolP384r1 of RFC 5639 (R481, R483; PRESUMED from those standards, log entry 30).
-/

namespace Sys2Proof.Machine

/-! SHA-384. -/

/-- The round constants. -/
def shaK : List Word := (
  [0x428A2F98D728AE22, 0x7137449123EF65CD, 0xB5C0FBCFEC4D3B2F, 0xE9B5DBA58189DBBC, 0x3956C25BF348B538,
   0x59F111F1B605D019, 0x923F82A4AF194F9B, 0xAB1C5ED5DA6D8118, 0xD807AA98A3030242, 0x12835B0145706FBE,
   0x243185BE4EE4B28C, 0x550C7DC3D5FFB4E2, 0x72BE5D74F27B896F, 0x80DEB1FE3B1696B1, 0x9BDC06A725C71235,
   0xC19BF174CF692694, 0xE49B69C19EF14AD2, 0xEFBE4786384F25E3, 0x0FC19DC68B8CD5B5, 0x240CA1CC77AC9C65,
   0x2DE92C6F592B0275, 0x4A7484AA6EA6E483, 0x5CB0A9DCBD41FBD4, 0x76F988DA831153B5, 0x983E5152EE66DFAB,
   0xA831C66D2DB43210, 0xB00327C898FB213F, 0xBF597FC7BEEF0EE4, 0xC6E00BF33DA88FC2, 0xD5A79147930AA725,
   0x06CA6351E003826F, 0x142929670A0E6E70, 0x27B70A8546D22FFC, 0x2E1B21385C26C926, 0x4D2C6DFC5AC42AED,
   0x53380D139D95B3DF, 0x650A73548BAF63DE, 0x766A0ABB3C77B2A8, 0x81C2C92E47EDAEE6, 0x92722C851482353B,
   0xA2BFE8A14CF10364, 0xA81A664BBC423001, 0xC24B8B70D0F89791, 0xC76C51A30654BE30, 0xD192E819D6EF5218,
   0xD69906245565A910, 0xF40E35855771202A, 0x106AA07032BBD1B8, 0x19A4C116B8D2D0C8, 0x1E376C085141AB53,
   0x2748774CDF8EEB99, 0x34B0BCB5E19B48A8, 0x391C0CB3C5C95A63, 0x4ED8AA4AE3418ACB, 0x5B9CCA4F7763E373,
   0x682E6FF3D6B2B8A3, 0x748F82EE5DEFB2FC, 0x78A5636F43172F60, 0x84C87814A1F0AB72, 0x8CC702081A6439EC,
   0x90BEFFFA23631E28, 0xA4506CEBDE82BDE9, 0xBEF9A3F7B2C67915, 0xC67178F2E372532B, 0xCA273ECEEA26619C,
   0xD186B8C721C0C207, 0xEADA7DD6CDE0EB1E, 0xF57D4F7FEE6ED178, 0x06F067AA72176FBA, 0x0A637DC5A2C898A6,
   0x113F9804BEF90DAE, 0x1B710B35131C471B, 0x28DB77F523047D84, 0x32CAAB7B40C72493, 0x3C9EBE0A15C9BEBC,
   0x431D67C49C100D4C, 0x4CC5D4BECB3E42B6, 0x597F299CFC657E2A, 0x5FCB6FAB3AD6FAEC, 0x6C44198C4A475817] : List Nat).map (BitVec.ofNat 64)

/-- The initial hash value. -/
def shaInit : List Word := (
  [0xCBBB9D5DC1059ED8, 0x629A292A367CD507, 0x9159015A3070DD17, 0x152FECD8F70E5939, 0x67332667FFC00B31,
   0x8EB44A8768581511, 0xDB0C2E0D64F98FA7, 0x47B5481DBEFA4FA4] : List Nat).map (BitVec.ofNat 64)

/-- Bytes as a number, the first byte most significant. -/
def bytesBig (l : List Byte) : Nat := l.foldl (fun n b => 256 * n + b.toNat) 0

/-- A number as `n` bytes, the first most significant. -/
def bigBytes (n v : Nat) : List Byte := (natToBytes n v).reverse

/-- The message with its padding. -/
def shaPad (l : List Byte) : List Byte :=
  l ++ 0x80#8 :: (List.replicate ((239 - l.length % 128) % 128) 0#8 ++ bigBytes 16 (8 * l.length))

/-- The small sigma functions and the big ones: two rotations and a shift or a third rotation. -/
def sig3 (a b c : Nat) (x : Word) : Word := x.rotateRight a ^^^ x.rotateRight b ^^^ (x >>> c)
def rot3 (a b c : Nat) (x : Word) : Word := x.rotateRight a ^^^ x.rotateRight b ^^^ x.rotateRight c

/-- The message schedule, from the last 16 words on: `n` words. -/
def shaWords : Nat → List Word → List Word
  | 0, _ => []
  | n + 1, w =>
    let g := fun i => (w[i]?).getD 0
    g 0 :: shaWords n (w.tail ++ [sig3 19 61 6 (g 14) + g 9 + sig3 1 8 7 (g 1) + g 0])

/-- The eight working variables. -/
structure ShaVars where
  a : Word
  b : Word
  c : Word
  d : Word
  e : Word
  f : Word
  g : Word
  h : Word
  deriving DecidableEq, Repr

/-- One round. -/
def shaRound (v : ShaVars) (kw : Word × Word) : ShaVars :=
  let t1 := v.h + rot3 14 18 41 v.e + ((v.e &&& v.f) ^^^ (~~~v.e &&& v.g)) + kw.1 + kw.2
  let t2 := rot3 28 34 39 v.a + ((v.a &&& v.b) ^^^ (v.a &&& v.c) ^^^ (v.b &&& v.c))
  { a := t1 + t2, b := v.a, c := v.b, d := v.c, e := v.d + t1, f := v.e, g := v.f, h := v.g }

/-- One block of 128 bytes. -/
def shaBlock (s : List Word) (blk : List Byte) : List Word :=
  let w := (rangeFrom 0 16).map fun i => BitVec.ofNat 64 (bytesBig ((blk.drop (8 * i)).take 8))
  let g := fun i => (s[i]?).getD 0
  let v := ((shaK.zip (shaWords 80 w)).foldl shaRound
    { a := g 0, b := g 1, c := g 2, d := g 3, e := g 4, f := g 5, g := g 6, h := g 7 } : ShaVars)
  (s.zip [v.a, v.b, v.c, v.d, v.e, v.f, v.g, v.h]).map fun x => x.1 + x.2

/-- `n` blocks of a message. -/
def shaBlocks : Nat → List Word → List Byte → List Word
  | 0, s, _ => s
  | n + 1, s, l => shaBlocks n (shaBlock s (l.take 128)) (l.drop 128)

/-- SHA-384: 48 bytes. -/
def sha384 (l : List Byte) : List Byte :=
  let p := shaPad l
  ((shaBlocks (p.length / 128) shaInit p).take 6).flatMap fun w => bigBytes 8 w.toNat

/-! brainpoolP384r1. -/

/-- The field prime, the coefficient a, and b. -/
def bpP : Nat := 0x8CB91E82A3386D280F5D6F7E50E641DF152F7109ED5456B412B1DA197FB71123ACD3A729901D1A71874700133107EC53
def bpA : Nat := 0x7BC382C63D8C150C3C72080ACE05AFA0C2BEA28E4FB22787139165EFBA91F90F8AA5814A503AD4EB04A8C7DD22CE2826
def bpB : Nat := 0x04A8C7DD22CE28268B39B55416F0447C2FB77DE107DCD2A62E880EA53EEB62D57CB4390295DBC9943AB78696FA504C11
/-- The base point and its order. -/
def bpX : Nat := 0x1D1C64F068CF45FFA2A63A81B7C13F6B8847A3E77EF14FE3DB7FCAFE0CBD10E8E826E03436D646AAEF87B2E247D4AF1E
def bpY : Nat := 0x8ABE1D7520F9C2A45CB1EB8E95CFD55262B70B29FEEC5864E19C054FF99129280E4646217791811142820341263C5315
def bpQ : Nat := 0x8CB91E82A3386D280F5D6F7E50E641DF152F7109ED5456B31F166E6CAC0425A7CF3AB6AF6B7FC3103B883202E9046565

/-- Power modulo a number, over the low `n` bits of the exponent from the highest. -/
def powBits (m b e : Nat) : Nat → Nat
  | 0 => 1
  | n + 1 =>
    let r := powBits m b (e / 2) n
    if e % 2 = 1 then r * r % m * b % m else r * r % m

/-- The inverse modulo a prime. -/
def invMod (m a : Nat) : Nat := powBits m (a % m) (m - 2) 384

/-- A point in Jacobian coordinates; z = 0 is the point at infinity. -/
structure JacPt where
  x : Nat
  y : Nat
  z : Nat
  deriving DecidableEq, Repr

/-- Difference in the field. -/
def bpSub (a b : Nat) : Nat := (a + bpP - b % bpP) % bpP

/-- Doubles a point. -/
def JacPt.dbl (p : JacPt) : JacPt :=
  let yy := p.y * p.y % bpP
  let s := 4 * p.x * yy % bpP
  let zz := p.z * p.z % bpP
  let m := (3 * p.x * p.x + bpA * (zz * zz % bpP)) % bpP
  let x := bpSub (m * m) (2 * s)
  { x := x, y := bpSub (m * bpSub s x) (8 * yy * yy), z := 2 * p.y * p.z % bpP }

/-- Adds two points. -/
def JacPt.add (p q : JacPt) : JacPt :=
  if p.z = 0 then q else if q.z = 0 then p
  else
    let zp := p.z * p.z % bpP
    let zq := q.z * q.z % bpP
    let u1 := p.x * zq % bpP
    let u2 := q.x * zp % bpP
    let s1 := p.y * zq % bpP * q.z % bpP
    let s2 := q.y * zp % bpP * p.z % bpP
    if u1 = u2 then (if s1 = s2 then p.dbl else { x := 1, y := 1, z := 0 })
    else
      let h := bpSub u2 u1
      let r := bpSub s2 s1
      let hh := h * h % bpP
      let hhh := hh * h % bpP
      let v := u1 * hh % bpP
      let x := bpSub (r * r) (hhh + 2 * v)
      { x := x, y := bpSub (r * bpSub v x) (s1 * hhh), z := h * p.z % bpP * q.z % bpP }

/-- A multiple of a point by the low `n` bits of a number. -/
def JacPt.mul (p : JacPt) (k : Nat) : Nat → JacPt
  | 0 => { x := 1, y := 1, z := 0 }
  | n + 1 =>
    let d := (p.mul (k / 2) n).dbl
    if k % 2 = 1 then d.add p else d

/-- The x coordinate of a point that is not at infinity. -/
def JacPt.affineX (p : JacPt) : Nat :=
  let i := invMod bpP p.z
  p.x * (i * i % bpP) % bpP

/-- A public key of R481: 0x04, X, Y, zeros up to 128 bytes, on the curve. -/
def keyPoint (k : List Byte) : Option JacPt :=
  let x := bytesBig ((k.drop 1).take 48)
  let y := bytesBig ((k.drop 49).take 48)
  if k.length = 128 ∧ k[0]? = some 4#8 ∧ (k.drop 97).all (fun b => decide (b = 0)) ∧ x < bpP ∧ y < bpP
      ∧ y * y % bpP = (x * x % bpP * x + bpA * x + bpB) % bpP then some { x := x, y := y, z := 1 }
  else none

/-- Is a signature, r then s, of a message by a key valid (R481)? -/
def ecdsaOk (key msg sig : List Byte) : Bool :=
  match keyPoint key with
  | none => false
  | some k =>
    let r := bytesBig (sig.take 48)
    let s := bytesBig ((sig.drop 48).take 48)
    if sig.length ≠ 96 ∨ r = 0 ∨ bpQ ≤ r ∨ s = 0 ∨ bpQ ≤ s then false
    else
      let w := invMod bpQ s
      let e := bytesBig (sha384 msg)
      let p := (JacPt.mul { x := bpX, y := bpY, z := 1 } (e * w % bpQ) 384).add (k.mul (r * w % bpQ) 384)
      decide (p.z ≠ 0) && decide (p.affineX % bpQ = r)

end Sys2Proof.Machine
end

