-- ==== Sys2Proof/Machine/Image.lean ====
section
/-!
DEFINITION. Firmware images and the owner's records: their layout and their checks (R481 to R483, R499 to
R501).
-/

namespace Sys2Proof.Machine

/-- A little-endian field of a byte list. -/
def leAt (d : List Byte) (off n : Nat) : Nat := bytesToNat ((d.drop off).take n)

/-- Some bytes of a list. -/
def slice (d : List Byte) (off n : Nat) : List Byte := (d.drop off).take n

/-- Are some bytes of a list all zero? -/
def zeroAt (d : List Byte) (off n : Nat) : Bool := (slice d off n).all fun b => decide (b = 0)

/-- The version and the security version of an image (R481). -/
def imgVersion (d : List Byte) : Nat := leAt d 8 6
def imgSecver (d : List Byte) : Nat := leAt d 0x10 4

/-- Its number of sections; kind, offset and length of a section (R482). -/
def imgCount (d : List Byte) : Nat := leAt d 0x20 1
def secKind (d : List Byte) (i : Nat) : Nat := leAt d (0x208 + 64 * i) 1
def secOff (d : List Byte) (i : Nat) : Nat := leAt d (0x200 + 64 * i) 4
def secLen (d : List Byte) (i : Nat) : Nat := leAt d (0x204 + 64 * i) 4
def secData (d : List Byte) (i : Nat) : List Byte := slice d (secOff d i) (secLen d i)

/-- The section of a kind, empty where there is none. -/
def imgSection (d : List Byte) (kind : Nat) : List Byte :=
  match (rangeFrom 0 (imgCount d)).find? fun i => decide (secKind d i = kind) with
  | some i => secData d i
  | none => []

/-- Do the format fields hold the values of R481 and R482? -/
def imgFormatOk (d : List Byte) (kind : Nat) : Bool :=
  let n := imgCount d
  let used := rangeFrom 0 n
  let count := fun k => (used.filter fun i => decide (secKind d i = k)).length
  decide (0x600 ≤ d.length) && decide (leAt d 0 8 = 0x4649 * 2 ^ 48 + 2 ^ 40 + kind) && decide (leAt d 0x18 8 ≤ 2 ^ 24)
    && decide (leAt d 0x18 8 ≤ d.length) && decide (1 ≤ n) && decide (n ≤ 16) && zeroAt d 0x28 24
    && (used.all fun i => decide (secOff d i % 4096 = 0) && decide (0x600 ≤ secOff d i)
      && decide (secOff d i + secLen d i ≤ leAt d 0x18 8) && zeroAt d (0x209 + 64 * i) 7)
    && zeroAt d (0x200 + 64 * n) (64 * (16 - n))
    && (if kind = 1 then decide (n = 3) && decide (count 1 = 1) && decide (count 2 = 1) && decide (count 3 = 1)
          && decide ((imgSection d 1).length ≤ 0x400000)
        else decide (n = 1) && decide (count 4 = 1))

/-- Are the two signatures valid and the sections' hashes right (R483)? -/
def imgSigned (d : List Byte) : Bool :=
  ecdsaOk (slice d 0x40 128) (slice d 0xC0 128) (slice d 0x140 96)
    && ecdsaOk (slice d 0xC0 128) (slice d 0 0x1A0 ++ slice d 0x200 0x400) (slice d 0x1A0 96)
    && (rangeFrom 0 (imgCount d)).all fun i => decide (sha384 (secData d i) = slice d (0x210 + 64 * i) 48)

/-- A Jowald image whose signatures, root key and format are right; the factory's image counts as one (log
entry 31). -/
def jowaldOk (d : List Byte) : Bool :=
  decide (d = Config.factoryImage)
    || (imgFormatOk d 1 && decide (sha384 (slice d 0x40 128) = Config.rootKeyHash) && imgSigned d)

/-- Why a Jowald image does not verify: 0 signature, hash or format, 1 below the minimum (R483, R509). -/
def imageFault (minv : Nat) (d : List Byte) : Option Nat :=
  if !jowaldOk d then some 0 else if imgSecver d < minv then some 1 else none

/-- An owner key record names a key; its sequence (R499). -/
def ownerPub (r : List Byte) : List Byte := slice r 8 128
def ownerSeq (r : List Byte) : Nat := leAt r 0 4

/-- Does an owner extension verify under an enrolled owner record (R483, R501)? -/
def extOk (owner : List Byte) (minv : Nat) (d : List Byte) : Bool :=
  !owner.isEmpty && imgFormatOk d 2 && decide (slice d 0x40 128 = ownerPub owner) && imgSigned d && decide (minv ≤ imgSecver d)

/-- Does a device accept an owner key record (R499)? With no owner the signature field is 0; else the
enrolled owner signed it, with the serial number, and its sequence is higher. -/
def ownerOk (cur r : List Byte) : Bool :=
  decide (r.length = 256) && decide (leAt r 6 2 = 0x4F4B) && decide (leAt r 4 2 = 0) && zeroAt r 0xE8 24
    && (if cur.isEmpty then zeroAt r 0x88 96
        else decide (ownerSeq cur < ownerSeq r) && ecdsaOk (ownerPub cur) (slice r 0 0x88 ++ wordBytes Config.serial) (slice r 0x88 96))

/-- The first 8 bytes of SHA-384 of the owner key; 0 with no owner (R511). -/
def ownerId (r : List Byte) : Nat := if r.isEmpty then 0 else leAt (sha384 (ownerPub r)) 0 8

/-- Fields of an owner policy (R500). -/
def policySeq (p : List Byte) : Nat := leAt p 8 8
def policyMin (p : List Byte) : Nat := leAt p 16 4
def policyHost (p : List Byte) : Bool := decide (leAt p 24 1 % 2 = 1)

/-- Does a policy carry its format, a valid signature and a sequence above the stored one (R500)? -/
def policyOk (owner cur p : List Byte) : Bool :=
  decide (p.length = 256) && decide (leAt p 0 8 = 0x4F50 * 2 ^ 48 + 2 ^ 40) && zeroAt p 20 4 && decide (leAt p 24 8 ≤ 1) && zeroAt p 32 128
    && !owner.isEmpty && (cur.isEmpty || decide (policySeq cur < policySeq p))
    && ecdsaOk (ownerPub owner) (slice p 0 0xA0 ++ wordBytes Config.serial) (slice p 0xA0 96)

/-- What measurements 0 to 3 measure of an image (R504): its header, and its stag, die-controller and
calibration sections. -/
def imgMeas (d : List Byte) : List (List Byte) := [slice d 0 0x600, imgSection d 1, imgSection d 2, imgSection d 3]

end Sys2Proof.Machine
end

