-- ==== Sys2Proof/Machine/ManageState.lean ====
section
/-!
DEFINITION. State of the optics (12), the stags (14), resets and temperature (15), firmware and package
flash (16), debug memory (18) and the package's pins (19), beside their registers.
-/

namespace Sys2Proof.Machine

/-! Optics. -/

/-- A ring (R390, R395): set-point, lock target, error in 0.1 GHz, locked, failed. -/
structure RingVal where
  set : Nat
  target : Nat
  err : Int
  locked : Bool
  failed : Bool
  deriving DecidableEq, Repr

/-- A receive channel (R400, R402): equaliser taps, quality figures as OPT_CH_QUAL shows them, and consecutive
rejections. -/
structure ChanVal where
  taps : Word
  qual : Word
  rejects : Nat
  deriving DecidableEq, Repr

/-- A switch of a laser source under way (R404): the source, its standby, the trigger and, once it began, the
crossfade; and whether the source failed. -/
structure LaserSwitch where
  old : Nat
  new : Nat
  start : Nat
  fade : Option Nat
  failed : Bool
  deriving DecidableEq, Repr

/-- The optics: rings and channels by address, where they differ from what the search of a session left; the
session; switches of sources; the wavelength of each logical lane, by 32 * port + lane, its generation by
port, and moves that the far end has not acknowledged; channels under recalibration, and those that had their
turn in the window of a number; an eye scan that waits; waveguides out of their bundle for lock or light; the margin that each port's far end reports; since when a channel, or a port's far end (2^32 + port), reports a margin
below 2.0 dB; and in step 4 of the start-up, when its wait ends and the rings that the search will fail. -/
structure OptState where
  rings : SMap RingVal
  chans : SMap ChanVal
  session : Nat
  switches : List LaserSwitch
  lanes : SMap Nat
  gens : SMap Nat
  moves : List (Nat × Nat × Nat)
  recal : List Nat
  window : Nat
  done : List Nat
  eye : Option Nat
  lost : List (Nat × Nat)
  farMargin : SMap Nat
  low : SMap (Option Nat)
  search : Option (Nat × List Nat)
  deriving DecidableEq, Repr

/-- The optics after the search. -/
def OptState.reset : OptState :=
  { rings := [], chans := [], session := 1, switches := [], lanes := [], gens := [], moves := [], recal := [], window := 0,
    done := [], eye := none, lost := [], farMargin := [], low := [], search := none }

/-! Stags. -/

/-- The stags beside MGT_STAG_STATUS (R428 to R445): resets by watchdog and their hour window, by stag;
whether a first sync since the cold reset is over; the number of the last output record, the outputs held for
an acknowledgement, and the last output that the receivers accepted; the start of stag A's hold-off window;
whether the 40 ms in which only stag A may start holding are running; when each stag last received and sent a
heartbeat; what the reports of lost interrupts counted (R420). -/
structure StagState where
  wd : SMap (Nat × Nat)
  started : Bool
  mirror : Nat
  held : List (Nat × StagOut)
  acked : Nat
  holdoff : Option Nat
  startWait : Bool
  beatRx : SMap Nat
  beatTx : SMap Nat
  lostSent : SMap Nat
  lostSeen : SMap Nat
  deriving DecidableEq, Repr

/-- The stags with A holding and B in STANDBY. -/
def StagState.reset : StagState :=
  { wd := [], started := true, mirror := 0, held := [], acked := 0, holdoff := none, startWait := false, beatRx := [], beatTx := [],
    lostSent := [], lostSeen := [] }

/-! Reset and temperature. -/

/-- Resets and temperature beside their registers (R448 to R474). -/
structure ThermState where
  tripped : Bool
  /-- TRIP_READ's state: 0 no trip since VIO rose, 1 tripped now, 2 before the last cold reset; and the
  record: sensor, reading, SYSTIME. -/
  tripState : Nat
  trip : Option (Nat × Int × Nat)
  /-- Start of the restart window (R471). -/
  coolAt : Nat
  /-- Measured readings by sensor, and when the last condition of R461 held. -/
  raw : SMap (Int × Nat)
  condAt : SMap (Option Nat)
  /-- The activity average of each stack (R463), as an exact fraction. -/
  act : SMap (Nat × Nat)
  /-- Throttle outputs of the stags, by core key (R466). -/
  pstag : SMap Nat
  /-- 1 s windows in which a die (0 to 7) or stack (8 to 19) reported its throttle. -/
  told : SMap (Option Nat)
  /-- Hour window of each die's automatic resets. -/
  autoHour : SMap Nat
  /-- A swap that waits for the end of a warm reset (R455). -/
  swapWaits : Bool
  /-- The device is held in cold reset, with the code of its cause (R449, R450). -/
  cold : Option Nat
  deriving DecidableEq, Repr

/-- After a start-up. -/
def ThermState.reset : ThermState :=
  { tripped := false, tripState := 0, trip := none, coolAt := 0, raw := [], condAt := [], act := [], pstag := [],
    told := [], autoHour := [], swapWaits := false, cold := none }

/-! Firmware and package flash. -/

/-- Boot control (R480). -/
structure BootCtl where
  seq : Nat
  stateA : Nat
  stateB : Nat
  arm : Bool
  trial : Bool
  confirmed : Bool
  atTime : Nat
  deriving DecidableEq, Repr

/-- A write of package flash that waits or runs (R529); with the submission entry, ring and index, that it
ends. -/
inductive FlashOp where
  /-- A ledger record of an hour, or of a day (R517). -/
  | ledger (day : Bool) (seq : Nat) (rec_ : List Byte)
  /-- Records that replace those of their kinds; a cold reset follows (R498). -/
  | defaults (ring index : Nat) (l : List (Nat × List Byte)) (apply : Bool)
  /-- Owner key record 0, policy 1, extension 2 (R479). -/
  | owner (ring index what : Nat) (d : List Byte)
  /-- An image into slot B (true) or A. -/
  | slot (b : Bool) (d : List Byte)
  /-- Boot control, a pseudo-channel of the map-out list, the retired list, the laser source map (R529). -/
  | boot (c : BootCtl)
  | mapOut (pc : Nat)
  | retired (l : List Retired)
  | sources (d : List Byte)
  deriving DecidableEq, Repr

/-- The reload of a die controller (R494): the die, when it began, and the fault replies that wait: id and abort. -/
structure Reload where
  die : Nat
  since : Nat
  late : List (Nat × Bool)
  deriving DecidableEq, Repr

/-- An image on its way into the inactive slot (R491): the image, at_time, the submission entry that waits for
it, if one does, and whether the slot is written. -/
structure Staging where
  image : List Byte
  atTime : Nat
  entry : Option (Nat × Nat)
  written : Bool
  deriving DecidableEq, Repr

/-- A transfer that arrives (R488 to R490): its identity, its blocks, the list, the position of this device,
at_time, and the blocks held. -/
structure ChainRx where
  head : ChainHead
  blocks : List (Nat × List Byte)
  deriving DecidableEq, Repr

/-- A transfer sent on over the fabric (R489): the image, what goes with its blocks, blocks acknowledged, and
when the last block went. -/
structure ChainTx where
  image : List Byte
  head : ChainHead
  sent : Nat
  time : Nat
  deriving DecidableEq, Repr

/-- Firmware, package flash and identity beside their registers: the slots, boot control, the default records,
the owner's records; flash writes in order of request; staging and transfers; pulses that a due activation
let pass (R492); a recovery image; die controllers still to reload, and the one that reloads; the stags that run the
trial slot; the two copies of boot control in package flash, none for one without a valid CRC (R480); and what each of the seven measurements measures (R504). -/
structure FwState where
  slotA : List Byte
  slotB : List Byte
  boot : BootCtl
  copies : Option BootCtl × Option BootCtl
  defaults : List (Nat × List Byte)
  ownerKey : List Byte
  policy : List Byte
  ext : List Byte
  queue : List FlashOp
  staging : Option Staging
  rx : Option ChainRx
  tx : Option ChainTx
  pulses : Nat
  recovery : SMap Byte
  reload : List Nat
  pausing : Option Reload
  onTrial : List Nat
  meas : List (List Byte)
  deriving DecidableEq, Repr

/-- Boot control with neither copy valid: slot A counts as confirmed and slot B as valid (R480). -/
def BootCtl.none : BootCtl :=
  { seq := 0, stateA := 2, stateB := 1, arm := false, trial := false, confirmed := false, atTime := 0 }

/-- The copy of boot control in force: the valid one with the higher sequence (R480). -/
def bootInForce : Option BootCtl × Option BootCtl → BootCtl
  | (some a, some b) => if a.seq < b.seq then b else a
  | (some a, none) => a
  | (none, some b) => b
  | (none, none) => BootCtl.none

/-- Writes a record into the copy that is not in force (R480). -/
def bootWrite (x : Option BootCtl × Option BootCtl) (c : BootCtl) : Option BootCtl × Option BootCtl :=
  if x.1 = some (bootInForce x) then (x.1, some c) else (some c, x.2)

/-- The factory's image in slot A, and no boot control. -/
def FwState.reset : FwState :=
  { slotA := Config.factoryImage, slotB := [],
    boot := BootCtl.none, copies := (none, none),
    defaults := [], ownerKey := [], policy := [], ext := [], queue := [], staging := none, rx := none, tx := none,
    pulses := 0, recovery := [], reload := [], pausing := none, onTrial := [], meas := imgMeas Config.factoryImage ++ [[], [], []] }

/-! Debug memory and pins. -/

/-- Debug memory (R530), and the package's pins and ports (R541 to R554): whether a trace records, and entries still to record after its
trigger; VIO, PWRGOOD and RESET_N asserted; whether PWRGOOD rose since the last cold reset (R542); the
levels of the straps; SYSTIME of the last accepted SYNC_IN pulse and of the last one generated; the MCTP endpoint; ALERT_N asserted; the JTAG instruction, 0 BYPASS,
1 IDCODE, 2 SAMPLE/PRELOAD, 3 EXTEST, 4 CLAMP, 5 HIGHZ, and the boundary register, one bit a pin; consecutive samples of a rail outside its range. -/
structure PkgState where
  sram : SMap Byte
  tracing : Bool
  traceLeft : Nat
  vio : Bool
  pwrgood : Bool
  resetN : Bool
  rose : Bool
  straps : Nat
  pulse : Option Nat
  made : Option Nat
  eid : Nat
  alert : Bool
  jtag : Nat
  boundary : Word
  rails : SMap Nat
  deriving DecidableEq, Repr

/-- A powered device out of reset. -/
def PkgState.reset : PkgState :=
  { sram := [], tracing := false, traceLeft := 0, vio := true, pwrgood := true, resetN := false, rose := false, straps := 0, pulse := none,
    made := none, eid := 0, alert := false, jtag := 1, boundary := 0, rails := [] }

/-! The Bolmin stream. -/

/-- A record received whole whose pointers are not written yet (R378): the count at which it begins, its
tag, error flag and data bytes, and the write that is next: 0 its header slot, 1 W0, 2 W2. -/
structure InRec where
  start : Nat
  utag : Nat
  err : Bool
  len : Nat
  stage : Nat
  deriving DecidableEq, Repr

/-- A stream beside its registers (R376 to R382). Ingress: `tail`, `done` are W0 and W2 as written, `head`
the last W1 read, `fill` the count after the records received whole, `part` the data bytes and tag of a
partial record at `fill`, `credit` what the peer holds. Egress: `head`, `done` are W1 and W2, `tail` the
last W0 read, `fill` the count after the records sent or waiting to be sent, `again` that the next record starts over,
`credit` what this end holds. -/
structure Stream where
  tail : Nat
  head : Nat
  done : Nat
  fill : Nat
  part : Option (Nat × Nat)
  credit : Nat
  ready : List InRec
  again : Bool
  opened : Bool
  /-- A SCLOSE was sent that the peer has not acknowledged. -/
  unclosed : Bool
  polled : Nat
  /-- A notification outstanding, and that another is due (R378). -/
  noteOut : Bool
  noteDue : Bool
  deriving DecidableEq, Repr

/-- A stream never opened. -/
def Stream.reset : Stream :=
  { tail := 0, head := 0, done := 0, fill := 0, part := none, credit := 0, ready := [], again := false,
    opened := false, unclosed := false, polled := 0, noteOut := false, noteDue := false }

/-- What the end of a message's transmission means once its frame is acknowledged: a record is complete up to a
count of its stream's ring (R379), or a SCLOSE has arrived (R381). -/
inductive BolNote where
  | record (stream fin : Nat)
  | close (stream : Nat)
  deriving DecidableEq, Repr

/-- A message that waits to start: its header as a number, and its data in whole slots (R373). -/
structure BolMsg where
  hdr : Nat
  data : List Byte
  note : List BolNote
  deriving DecidableEq, Repr

/-- A frame that is not acknowledged: its seq, when it was last sent, what it carries, and what ends in it. -/
structure BolSent where
  seq : Nat
  sent : Nat
  frame : BolFrame
  note : List BolNote
  deriving DecidableEq, Repr

/-- The Bolmin link (R366 to R372) and its streams: the next seq to send and to receive, the frames not
acknowledged, when replay last made progress and the seq it must reach, when retraining began, the link credits held
and those to return; the messages that wait, and the rest of the data of the message that was started; the frames
since the last fill frame; and the scrambler, the codewords since an alignment block and the output coded so far. -/
structure BolState where
  txSeq : Nat
  rxSeq : Nat
  frames : List BolSent
  replayAt : Option Nat
  replayTo : Nat
  retrainAt : Option Nat
  nakSent : Bool
  lcr : Nat
  owed : Nat
  queue : List BolMsg
  cur : List Byte
  curNote : List BolNote
  fills : Nat
  scr : Nat
  words : Nat
  seen : Nat
  streams : SMap Stream
  deriving DecidableEq, Repr

/-- A link that is disabled. -/
def BolState.reset : BolState :=
  { txSeq := 0, rxSeq := 0, frames := [], replayAt := none, replayTo := 0, retrainAt := none, nakSent := false, lcr := 0,
    owed := 0, queue := [], cur := [], curNote := [], fills := 0, scr := 0, words := 0, seen := 0, streams := [] }

/-- The link as it starts again, with its streams; what was put out stays coded. -/
def BolState.fresh (b : BolState) : BolState :=
  { BolState.reset with scr := b.scr, words := b.words, seen := b.seen, streams := b.streams }

end Sys2Proof.Machine
end

