-- ==== Sys2Proof/Machine/Regs.lean ====
section
/-!
DEFINITION. The registers of the configuration window: the offset of each, and the table of access
types, reset values and defined bits (R561, R562 and the register table of each chapter).
-/

namespace Sys2Proof.Machine

/-- The access types of R6. -/
inductive Access where
  | ro | rov | rw | wo | w1c | rws
  deriving DecidableEq, Repr

/-- One row of the index: first offset, number of registers 8 B apart, access type, reset value where
the spec prints one, and the bits that are not reserved (R9). -/
structure RegRow where
  base : Nat
  count : Nat
  access : Access
  reset : Word
  mask : Word
  deriving DecidableEq, Repr

/-- ID_PART (R563). -/
def R.idPart : Nat := 0x0000000

/-- ID_SERIAL (R563). -/
def R.idSerial : Nat := 0x0000008

/-- CLK_SYSTIME (R564). -/
def R.clkSystime : Nat := 0x0020010

/-- CLK_TIME_STATUS (R564). -/
def R.clkTimeStatus : Nat := 0x0020018

/-- CLK_TIME_CTL (R564). -/
def R.clkTimeCtl : Nat := 0x0020020

/-- CLK_TIME_SET (R564). -/
def R.clkTimeSet : Nat := 0x0020028

/-- CLK_TIME_OFFSET (R564). -/
def R.clkTimeOffset : Nat := 0x0020030

/-- Registers of 20_register_index.md. -/
def regTable1 : List RegRow := [
  ⟨0x0000000, 1, .ro, 0x0#64, 0xFFFFFF0007FF000F#64⟩,
  ⟨0x0000008, 1, .ro, 0x0#64, 0xFFFFFFFFFFFFFFFF#64⟩,
  ⟨0x0020010, 1, .rov, 0x0#64, 0xFFFFFFFFFFFFFFFF#64⟩,
  ⟨0x0020018, 1, .rov, 0x0#64, 0xFFFF00000001#64⟩,
  ⟨0x0020020, 1, .rw, 0x1#64, 0x3#64⟩,
  ⟨0x0020028, 1, .wo, 0x0#64, 0xFFFFFFFFFFFFFFFF#64⟩,
  ⟨0x0020030, 1, .rov, 0x0#64, 0x3F0F0000FFFFFFFF#64⟩]

/-- RST_STATUS (R476). -/
def R.rstStatus : Nat := 0x0010000

/-- RST_CAUSE (R476). -/
def R.rstCause : Nat := 0x0010008

/-- RST_CMD (R476). -/
def R.rstCmd : Nat := 0x0010010

/-- RST_DIE_CMD (R476). -/
def R.rstDieCmd : Nat := 0x0010018

/-- RST_DIE_STATUS (R476). -/
def R.rstDieStatus (n : Nat) : Nat := 0x0010040 + 8 * n

/-- CLK_REF_STATUS (R477). -/
def R.clkRefStatus : Nat := 0x0020000

/-- CLK_ISLAND_LOSS (R477). -/
def R.clkIslandLoss : Nat := 0x0020008

/-- THM_STATUS (R478). -/
def R.thmStatus : Nat := 0x0030000

/-- THM_LIMITS (R478). -/
def R.thmLimits : Nat := 0x0030008

/-- THM_PFLOOR (R478). -/
def R.thmPfloor : Nat := 0x0030010

/-- THM_MASK (R478). -/
def R.thmMask (n : Nat) : Nat := 0x0030100 + 8 * n

/-- THM_THROTTLE (R478). -/
def R.thmThrottle (n : Nat) : Nat := 0x0030300 + 8 * n

/-- THM_HBM_THROTTLE (R478). -/
def R.thmHbmThrottle (n : Nat) : Nat := 0x0030340 + 8 * n

/-- THM_EST_COEF (R478). -/
def R.thmEstCoef (n : Nat) : Nat := 0x0030400 + 8 * n

/-- THM_READ (R478). -/
def R.thmRead (n : Nat) : Nat := 0x0031000 + 8 * n

/-- THM_AON_MASK (R478). -/
def R.thmAonMask (n : Nat) : Nat := 0x0032400 + 8 * n

/-- Registers of 15_reset_power_thermal.md. -/
def regTable2 : List RegRow := [
  ⟨0x0010000, 1, .rov, 0x0#64, 0xFFFFFFFF00000303#64⟩,
  ⟨0x0010008, 1, .ro, 0x0#64, 0xFFFFFFFF0FFFFFFF#64⟩,
  ⟨0x0010010, 1, .wo, 0x0#64, 0x3#64⟩,
  ⟨0x0010018, 1, .wo, 0x0#64, 0x307#64⟩,
  ⟨0x0010040, 8, .rov, 0x0#64, 0x1FFFFFF00000F77#64⟩,
  ⟨0x0020000, 1, .rov, 0x0#64, 0xFFFF00000003#64⟩,
  ⟨0x0020008, 1, .rov, 0x0#64, 0x7FFF0000FFFFFFFF#64⟩,
  ⟨0x0030000, 1, .rov, 0x0#64, 0xFFFF0FFF0FFFFF01#64⟩,
  ⟨0x0030008, 1, .rws, 0x5F64#64, 0xFFFF#64⟩,
  ⟨0x0030010, 1, .rws, 0x0#64, 0x3F3F3F3F3F3F3F3F#64⟩,
  ⟨0x0030100, 39, .rws, 0x0#64, 0xFFFFFFFFFFFFFFFF#64⟩,
  ⟨0x0030238, 1, .rws, 0x0#64, 0xFFFF#64⟩,
  ⟨0x0030300, 8, .rov, 0x0#64, 0x3F3F3F3F#64⟩,
  ⟨0x0030340, 12, .rov, 0x0#64, 0xFFF003F#64⟩,
  ⟨0x0030400, 12, .rw, 0x0#64, 0xFFFFFF0000FFFF#64⟩,
  ⟨0x0031000, 628, .rov, 0x0#64, 0xEFFFEFFFEFFFEFFF#64⟩,
  ⟨0x0032400, 2, .ro, 0x0#64, 0x8FFF8FFF8FFF8FFF#64⟩]

/-- CFG_SWAP (R363). -/
def R.cfgSwap : Nat := 0x0040000

/-- CFG_SWAP_STATUS (R363). -/
def R.cfgSwapStatus : Nat := 0x0040008

/-- CFG_SWAP_LAST (R363). -/
def R.cfgSwapLast : Nat := 0x0040010

/-- CFG_VIEW (R363). -/
def R.cfgView : Nat := 0x0040018

/-- CFG_COPY (R363). -/
def R.cfgCopy : Nat := 0x0040020

/-- HIF_LINK_STATUS (R364). -/
def R.hifLinkStatus : Nat := 0x0050000

/-- HIF_LINK_ERR (R364). -/
def R.hifLinkErr : Nat := 0x0050008

/-- HIF_HLC_STATS (R364). -/
def R.hifHlcStats : Nat := 0x0050010

/-- HIF_SQ_BASE (R364). -/
def R.hifSqBase (n : Nat) : Nat := 0x0051000 + 8 * n

/-- HIF_SQ_CFG (R364). -/
def R.hifSqCfg (n : Nat) : Nat := 0x0051800 + 8 * n

/-- HIF_SQ_STATUS (R364). -/
def R.hifSqStatus (n : Nat) : Nat := 0x0052000 + 8 * n

/-- HIF_CQ_BASE (R364). -/
def R.hifCqBase (n : Nat) : Nat := 0x0052800 + 8 * n

/-- HIF_CQ_CFG (R364). -/
def R.hifCqCfg (n : Nat) : Nat := 0x0053000 + 8 * n

/-- HIF_CQ_STATUS (R364). -/
def R.hifCqStatus (n : Nat) : Nat := 0x0053800 + 8 * n

/-- HIF_EQ_BASE (R364). -/
def R.hifEqBase (n : Nat) : Nat := 0x0054000 + 8 * n

/-- HIF_EQ_CFG (R364). -/
def R.hifEqCfg (n : Nat) : Nat := 0x0054040 + 8 * n

/-- HIF_EQ_STATUS (R364). -/
def R.hifEqStatus (n : Nat) : Nat := 0x0054080 + 8 * n

/-- HIF_EVT_ROUTE0 (R364). -/
def R.hifEvtRoute0 : Nat := 0x0054100

/-- HIF_EVT_ROUTE1 (R364). -/
def R.hifEvtRoute1 : Nat := 0x0054108

/-- HIF_EVT_SEQ (R364). -/
def R.hifEvtSeq : Nat := 0x0054110

/-- HIF_DBL (R364). -/
def R.hifDbl (n : Nat) : Nat := 0x0055000 + 8 * n

/-- HIF_DBL_STATUS (R364). -/
def R.hifDblStatus (n : Nat) : Nat := 0x0055800 + 8 * n

/-- HIF_JOB (R364). -/
def R.hifJob (n : Nat) : Nat := 0x0056000 + 8 * n

/-- HIRQ_VEC_ADDR (R365). -/
def R.hirqVecAddr (n : Nat) : Nat := 0x0060000 + 8 * n

/-- HIRQ_VEC_CTL (R365). -/
def R.hirqVecCtl (n : Nat) : Nat := 0x0060800 + 8 * n

/-- HIRQ_PEND (R365). -/
def R.hirqPend (n : Nat) : Nat := 0x0061000 + 8 * n

/-- HIRQ_STATS (R365). -/
def R.hirqStats : Nat := 0x0061100

/-- Registers of 10_host_interface.md. -/
def regTable3 : List RegRow := [
  ⟨0x0040000, 1, .wo, 0x0#64, 0xFFFFFFFFFFFFFFFF#64⟩,
  ⟨0x0040008, 1, .rov, 0x0#64, 0xFFFFFFFFFFFF0303#64⟩,
  ⟨0x0040010, 1, .rov, 0x0#64, 0xFFFFFFFFFFFFFFFF#64⟩,
  ⟨0x0040018, 1, .rw, 0x0#64, 0x1#64⟩,
  ⟨0x0040020, 1, .wo, 0x0#64, 0x1#64⟩,
  ⟨0x0050000, 1, .rov, 0x0#64, 0x37#64⟩,
  ⟨0x0050008, 1, .rov, 0x0#64, 0xFFFFFFFFFFFFFFFF#64⟩,
  ⟨0x0050010, 1, .rov, 0x0#64, 0xFFFFFFFFFFFFFFFF#64⟩,
  ⟨0x0051000, 256, .rw, 0x0#64, 0xFFFFFFFFFF000#64⟩,
  ⟨0x0051800, 256, .rw, 0x0#64, 0xC01FFF3F00FF000F#64⟩,
  ⟨0x0052000, 256, .rov, 0x0#64, 0x3300000FFFFFFFF#64⟩,
  ⟨0x0052800, 256, .rw, 0x0#64, 0xFFFFFFFFFF000#64⟩,
  ⟨0x0053000, 256, .rw, 0x0#64, 0x801FFF0000FF000F#64⟩,
  ⟨0x0053800, 256, .rov, 0x0#64, 0x1FFFFFFFFFFFF#64⟩,
  ⟨0x0054000, 8, .rw, 0x0#64, 0xFFFFFFFFFF000#64⟩,
  ⟨0x0054040, 8, .rw, 0x0#64, 0x801FFF0000FF000F#64⟩,
  ⟨0x0054080, 8, .rov, 0x0#64, 0xFFFFFFFFFFFFFFFF#64⟩,
  ⟨0x0054100, 1, .rw, 0x0#64, 0x7777777777777777#64⟩,
  ⟨0x0054108, 1, .rw, 0x0#64, 0x7777777777777777#64⟩,
  ⟨0x0054110, 1, .rov, 0x0#64, 0xFFFFFFFF#64⟩]

/-- Registers of 10_host_interface.md. -/
def regTable4 : List RegRow := [
  ⟨0x0055000, 256, .rw, 0x0#64, 0xFFFFFFFFFFFC1#64⟩,
  ⟨0x0055800, 256, .rov, 0x0#64, 0x1FFFFFFFF#64⟩,
  ⟨0x0056000, 64, .rw, 0x0#64, 0x80000000000000FF#64⟩,
  ⟨0x0060000, 256, .rw, 0x0#64, 0xFFFFFFFFFFFFC#64⟩,
  ⟨0x0060800, 256, .rw, 0x8000000000000000#64, 0x8FFFFF00FFFFFFFF#64⟩,
  ⟨0x0061000, 4, .rov, 0x0#64, 0xFFFFFFFFFFFFFFFF#64⟩,
  ⟨0x0061100, 1, .rov, 0x0#64, 0xFFFFFFFFFFFFFFFF#64⟩]

/-- MEM_STACK_STATUS (R258). -/
def R.memStackStatus (n : Nat) : Nat := 0x0080000 + 8 * n

/-- MEM_STACK_MAPOUT (R258). -/
def R.memStackMapout (n : Nat) : Nat := 0x0080100 + 8 * n

/-- MEM_STACK_ERR (R258). -/
def R.memStackErr (n : Nat) : Nat := 0x0080200 + 8 * n

/-- MEM_CAPACITY (R258). -/
def R.memCapacity : Nat := 0x0080300

/-- MEM_INTERLEAVE (R258). -/
def R.memInterleave : Nat := 0x0080308

/-- MEM_RETIRE_STATUS (R258). -/
def R.memRetireStatus : Nat := 0x0080310

/-- MEM_RETIRE_THRESH (R258). -/
def R.memRetireThresh : Nat := 0x0080318

/-- MEM_RETIRED (R258). -/
def R.memRetired (n : Nat) : Nat := 0x0088000 + 8 * n

/-- MMU_JOB_ROOT (R259). -/
def R.mmuJobRoot (n : Nat) : Nat := 0x00A0000 + 8 * n

/-- MMU_INV (R259). -/
def R.mmuInv : Nat := 0x00A0200

/-- MMU_INV_STATUS (R259). -/
def R.mmuInvStatus : Nat := 0x00A0208

/-- MMU_FAULT_TIMEOUT (R259). -/
def R.mmuFaultTimeout : Nat := 0x00A0210

/-- MMU_FAULT_STATUS (R259). -/
def R.mmuFaultStatus : Nat := 0x00A0218

/-- DIE_MMU_STATUS (R260). -/
def R.dieMmuStatus (d : Nat) : Nat := 0x05C0000 + 0x100000 * d

/-- DIE_MMU_STATS (R260). -/
def R.dieMmuStats (d : Nat) : Nat := 0x05C0008 + 0x100000 * d

/-- Registers of 07_memory.md. -/
def regTable5 : List RegRow := [
  ⟨0x0080000, 12, .rov, 0x0#64, 0xFFFFFFFF0000FF03#64⟩,
  ⟨0x0080100, 12, .ro, 0x0#64, 0xFFFFFFFF#64⟩,
  ⟨0x0080200, 12, .rov, 0x0#64, 0xFFFFFFFFFFFFFFFF#64⟩,
  ⟨0x0080300, 1, .ro, 0x0#64, 0x1FF00FFFFFFFFFF#64⟩,
  ⟨0x0080308, 1, .ro, 0x0#64, 0x1FFFF#64⟩,
  ⟨0x0080310, 1, .rov, 0x0#64, 0x11FFF#64⟩,
  ⟨0x0080318, 1, .rw, 0x4#64, 0xFF#64⟩,
  ⟨0x0088000, 4096, .rov, 0x0#64, 0xFF80007FFFFF0007#64⟩,
  ⟨0x00A0000, 64, .rw, 0x0#64, 0xFFFFFFFFF031#64⟩,
  ⟨0x00A0200, 1, .wo, 0x0#64, 0xF03FFFFFFFFF0000#64⟩,
  ⟨0x00A0208, 1, .rov, 0x0#64, 0xFFFFFFFFFFFF0001#64⟩,
  ⟨0x00A0210, 1, .rw, 0x1F4#64, 0xFFFFFFFF#64⟩,
  ⟨0x00A0218, 1, .rov, 0x0#64, 0xFFFF0FFFFFFFFFFF#64⟩,
  ⟨0x05C0000, 1, .rov, 0x0#64, 0x1FF003F0000#64⟩,
  ⟨0x05C0008, 1, .rov, 0x0#64, 0xFFFFFFFFFFFFFFFF#64⟩]

/-- BASE_STOP_STATUS (R219). -/
def R.baseStopStatus (n : Nat) : Nat := 0x0100000 + 8 * n

/-- BASE_STOP_ERR (R219). -/
def R.baseStopErr (n : Nat) : Nat := 0x0100100 + 8 * n

/-- BASE_SEAM_STATUS (R219). -/
def R.baseSeamStatus : Nat := 0x0100200

/-- BASE_SEAM_ERR (R219). -/
def R.baseSeamErr : Nat := 0x0100208

/-- VLI_GROUP_STATUS (R220). -/
def R.vliGroupStatus (n : Nat) : Nat := 0x0140000 + 8 * n

/-- VLI_GROUP_ERR (R220). -/
def R.vliGroupErr (n : Nat) : Nat := 0x0141000 + 8 * n

/-- VLI_GROUP_TEST (R220). -/
def R.vliGroupTest (n : Nat) : Nat := 0x0142000 + 8 * n

/-- VLI_ROLE_MAP (R220). -/
def R.vliRoleMap (n : Nat) : Nat := 0x0143000 + 8 * n

/-- VLI_DIE_STATUS (R220). -/
def R.vliDieStatus (n : Nat) : Nat := 0x0143100 + 8 * n

/-- VLI_THRESH (R220). -/
def R.vliThresh : Nat := 0x0143200

/-- Registers of 06_chomet_base.md. -/
def regTable6 : List RegRow := [
  ⟨0x0100000, 28, .rov, 0x0#64, 0xFF3FFD#64⟩,
  ⟨0x0100100, 28, .rov, 0x0#64, 0xFFFFFFFFFFFFFFFF#64⟩,
  ⟨0x0100200, 1, .rov, 0x0#64, 0x1F1F0FF1#64⟩,
  ⟨0x0100208, 1, .rov, 0x0#64, 0xFFFFFFFFFFFFFFFF#64⟩,
  ⟨0x0140000, 320, .rov, 0x0#64, 0x3F7013#64⟩,
  ⟨0x0141000, 320, .rov, 0x0#64, 0xFFFFFFFFFFFFFFFF#64⟩,
  ⟨0x0142000, 320, .ro, 0x0#64, 0x7FFFFFFFFFFFFF#64⟩,
  ⟨0x0143000, 16, .ro, 0x0#64, 0xFFFFFFFFFFFFFFFF#64⟩,
  ⟨0x0143100, 8, .rov, 0x0#64, 0x103033F3F#64⟩,
  ⟨0x0143200, 1, .rw, 0x10000000010#64, 0xFFFF0000FFFF#64⟩]

/-- OPT_STATUS (R412). -/
def R.optStatus : Nat := 0x0180000

/-- OPT_LOCK_STATS (R412). -/
def R.optLockStats : Nat := 0x0180008

/-- OPT_CAL_STATS (R412). -/
def R.optCalStats : Nat := 0x0180010

/-- OPT_RECAL_CTL (R412). -/
def R.optRecalCtl : Nat := 0x0180018

/-- OPT_RING_SEL (R412). -/
def R.optRingSel : Nat := 0x0180020

/-- OPT_RING_VAL (R412). -/
def R.optRingVal : Nat := 0x0180028

/-- OPT_RING_STATE (R412). -/
def R.optRingState : Nat := 0x0180030

/-- OPT_CH_SEL (R412). -/
def R.optChSel : Nat := 0x0180038

/-- OPT_CH_TAPS (R412). -/
def R.optChTaps : Nat := 0x0180040

/-- OPT_CH_QUAL (R412). -/
def R.optChQual : Nat := 0x0180048

/-- OPT_EYE_CTL (R412). -/
def R.optEyeCtl : Nat := 0x0180050

/-- OPT_EYE_RESULT (R412). -/
def R.optEyeResult : Nat := 0x0180058

/-- OPT_SRC_STATUS (R412). -/
def R.optSrcStatus (n : Nat) : Nat := 0x0180100 + 8 * n

/-- OPT_SRC_CMD (R412). -/
def R.optSrcCmd : Nat := 0x0180300

/-- Registers of 12_optics_calibration.md. -/
def regTable7 : List RegRow := [
  ⟨0x0180000, 1, .rov, 0x0#64, 0xFFFF00000007#64⟩,
  ⟨0x0180008, 1, .rov, 0x0#64, 0xFFFFFFFFFFFFFFFF#64⟩,
  ⟨0x0180010, 1, .rov, 0x0#64, 0xFFFFFFFFFFFFFFFF#64⟩,
  ⟨0x0180018, 1, .rw, 0x8000000000000E10#64, 0x80000000FFFFFFFF#64⟩,
  ⟨0x0180020, 1, .rw, 0x0#64, 0xFFFFFFFF#64⟩,
  ⟨0x0180028, 1, .rw, 0x0#64, 0xFFFFFFFF#64⟩,
  ⟨0x0180030, 1, .rov, 0x0#64, 0xFF00FFFF0003#64⟩,
  ⟨0x0180038, 1, .rw, 0x0#64, 0xFFFFFFFF#64⟩,
  ⟨0x0180040, 1, .rw, 0x0#64, 0xFFFFFFFFFFFFFFFF#64⟩,
  ⟨0x0180048, 1, .rov, 0x0#64, 0xFFFFFFFFFFFFF003#64⟩,
  ⟨0x0180050, 1, .rw, 0x0#64, 0x80000000FFFFFFFF#64⟩,
  ⟨0x0180058, 1, .rov, 0x0#64, 0x80FFFFFF00000000#64⟩,
  ⟨0x0180100, 44, .rov, 0x0#64, 0xFFFFFFFFFFFF3F07#64⟩,
  ⟨0x0180300, 1, .wo, 0x0#64, 0x33F#64⟩]

/-- PORT_LANE_STATUS (R300). -/
def R.portLaneStatus (n : Nat) : Nat := 0x0200000 + 8 * n

/-- PORT_ERR (R300). -/
def R.portErr (n : Nat) : Nat := 0x0200100 + 8 * n

/-- PORT_LINK_STATS (R300). -/
def R.portLinkStats (n : Nat) : Nat := 0x0200200 + 8 * n

/-- PORT_CMD (R300). -/
def R.portCmd (n : Nat) : Nat := 0x0200300 + 8 * n

/-- PORT_NEIGHBOUR (R300). -/
def R.portNeighbour (n : Nat) : Nat := 0x0200400 + 8 * n

/-- FAB_TOPO (R301). -/
def R.fabTopo : Nat := 0x0280000

/-- FAB_STOP_DIR (R301). -/
def R.fabStopDir : Nat := 0x0280008

/-- FAB_ROUTE_CTL (R301). -/
def R.fabRouteCtl : Nat := 0x0280010

/-- FAB_STATUS (R301). -/
def R.fabStatus : Nat := 0x0280018

/-- FAB_DISCARD (R301). -/
def R.fabDiscard : Nat := 0x0280020

/-- FAB_RELAY (R301). -/
def R.fabRelay : Nat := 0x0280028

/-- FAB_FENCE (R301). -/
def R.fabFence (n : Nat) : Nat := 0x0280040 + 8 * n

/-- FAB_CMAP_CTL (R301). -/
def R.fabCmapCtl : Nat := 0x0280080

/-- FAB_CMAP_BASE (R301). -/
def R.fabCmapBase : Nat := 0x0280088

/-- FAB_CMAP_STATUS (R301). -/
def R.fabCmapStatus : Nat := 0x0280090

/-- FAB_RANK (R301). -/
def R.fabRank (n : Nat) : Nat := 0x0290000 + 8 * n

/-- COL_CTX (R302). -/
def R.colCtx (n : Nat) : Nat := 0x0300000 + 8 * n

/-- COL_CTX_STATUS (R302). -/
def R.colCtxStatus (n : Nat) : Nat := 0x0300200 + 8 * n

/-- COL_CTX_CMD (R302). -/
def R.colCtxCmd : Nat := 0x0300400

/-- COL_POOL (R302). -/
def R.colPool : Nat := 0x0300408

/-- Registers of 08_system_fabric.md. -/
def regTable8 : List RegRow := [
  ⟨0x0200000, 12, .rov, 0x0#64, 0x3FFFF000000033F#64⟩,
  ⟨0x0200100, 12, .rov, 0x0#64, 0xFFFFFFFFFFFFFFFF#64⟩,
  ⟨0x0200200, 12, .rov, 0x0#64, 0xFFFFFFFFFFFFFFFF#64⟩,
  ⟨0x0200300, 12, .wo, 0x0#64, 0x3#64⟩,
  ⟨0x0200400, 12, .rov, 0x0#64, 0x8000000001FF000F#64⟩,
  ⟨0x0280000, 1, .rws, 0x0#64, 0x800000001F3F0F1F#64⟩,
  ⟨0x0280008, 1, .rws, 0x688#64, 0xFFF#64⟩,
  ⟨0x0280010, 1, .rws, 0x101#64, 0xFF01#64⟩,
  ⟨0x0280018, 1, .rov, 0x0#64, 0x3FF00000001#64⟩,
  ⟨0x0280020, 1, .rov, 0x0#64, 0xFFFFFFFFFFFFFFFF#64⟩,
  ⟨0x0280028, 1, .rov, 0x0#64, 0xFFFFFFFF#64⟩,
  ⟨0x0280040, 8, .rov, 0x0#64, 0xFFFFFFFFFFFFFFFF#64⟩,
  ⟨0x0280080, 1, .rws, 0x0#64, 0x80000000000001FF#64⟩,
  ⟨0x0280088, 1, .rw, 0x0#64, 0xFFFFFFFFFFFF8000#64⟩,
  ⟨0x0280090, 1, .rov, 0x0#64, 0xFFFFFFFFFFFFFFFF#64⟩,
  ⟨0x0290000, 8192, .rws, 0x0#64, 0x81FF81FF81FF81FF#64⟩,
  ⟨0x0300000, 64, .rws, 0x0#64, 0x3FFFFFFFFFFFFF#64⟩,
  ⟨0x0300200, 64, .rov, 0x0#64, 0xFFFFFFFF000000F7#64⟩,
  ⟨0x0300400, 1, .wo, 0x0#64, 0x33F#64⟩,
  ⟨0x0300408, 1, .rov, 0x400040004000400#64, 0x7FF07FF07FF07FF#64⟩]

/-- FAB_XPORT_CTL (R327). -/
def R.fabXportCtl : Nat := 0x02800A0

/-- FAB_XPORT_STATS (R327). -/
def R.fabXportStats : Nat := 0x02800A8

/-- FAB_REPLAY_STATUS (R327). -/
def R.fabReplayStatus : Nat := 0x02800B0

/-- FAB_REPLAY_STATS (R327). -/
def R.fabReplayStats : Nat := 0x02800B8

/-- FAB_HERD (R327). -/
def R.fabHerd (n : Nat) : Nat := 0x0280200 + 8 * n

/-- Registers of 09_herd_memory.md. -/
def regTable9 : List RegRow := [
  ⟨0x02800A0, 1, .rw, 0x8#64, 0xFFFF#64⟩,
  ⟨0x02800A8, 1, .rov, 0x0#64, 0xFFFFFFFFFFFFFFFF#64⟩,
  ⟨0x02800B0, 1, .rov, 0x0#64, 0xFFFFFFFF3FFF3FFF#64⟩,
  ⟨0x02800B8, 1, .rov, 0x0#64, 0xFFFFFFFFFFFFFFFF#64⟩,
  ⟨0x0280200, 32, .rws, 0x0#64, 0x81FF81FF81FF81FF#64⟩]

/-- BOL_CTL (R385). -/
def R.bolCtl : Nat := 0x0340000

/-- BOL_CMD (R385). -/
def R.bolCmd : Nat := 0x0340008

/-- BOL_LINK_STATUS (R385). -/
def R.bolLinkStatus : Nat := 0x0340010

/-- BOL_LINK_ERR (R385). -/
def R.bolLinkErr : Nat := 0x0340018

/-- BOL_PEER (R385). -/
def R.bolPeer : Nat := 0x0340020

/-- BOL_STREAM_ERR (R385). -/
def R.bolStreamErr : Nat := 0x0340028

/-- BOL_STREAM_BASE (R385). -/
def R.bolStreamBase (n : Nat) : Nat := 0x0341000 + 8 * n

/-- BOL_STREAM_CTRL (R385). -/
def R.bolStreamCtrl (n : Nat) : Nat := 0x0341800 + 8 * n

/-- BOL_STREAM_CFG (R385). -/
def R.bolStreamCfg (n : Nat) : Nat := 0x0342000 + 8 * n

/-- BOL_STREAM_STATUS (R385). -/
def R.bolStreamStatus (n : Nat) : Nat := 0x0342800 + 8 * n

/-- Registers of 11_bolmin_stream.md. -/
def regTable10 : List RegRow := [
  ⟨0x0340000, 1, .rw, 0x0#64, 0x1#64⟩,
  ⟨0x0340008, 1, .wo, 0x0#64, 0x3#64⟩,
  ⟨0x0340010, 1, .rov, 0x0#64, 0x137#64⟩,
  ⟨0x0340018, 1, .rov, 0x0#64, 0xFFFFFFFFFFFFFFFF#64⟩,
  ⟨0x0340020, 1, .rov, 0x0#64, 0x80FFFFFFFFFFFFFF#64⟩,
  ⟨0x0340028, 1, .rov, 0x0#64, 0xFFFFFFFFFFFFFFFF#64⟩,
  ⟨0x0341000, 256, .rw, 0x0#64, 0x800FFFFFFFFFF000#64⟩,
  ⟨0x0341800, 256, .rw, 0x0#64, 0x800FFFFFFFFFFFC0#64⟩,
  ⟨0x0342000, 256, .rw, 0x0#64, 0xC03FFFC0FF07FF00#64⟩,
  ⟨0x0342800, 256, .rov, 0x0#64, 0xFFFFFFFFFFFFFFFF#64⟩]

/-- MGT_STAG_STATUS (R447). -/
def R.mgtStagStatus : Nat := 0x0380000

/-- MGT_STAG_HOLDOFF (R447). -/
def R.mgtStagHoldoff : Nat := 0x0380008

/-- MGT_STAG_STATS (R447). -/
def R.mgtStagStats : Nat := 0x0380010

/-- MGT_STAG_LAST (R447). -/
def R.mgtStagLast : Nat := 0x0380018

/-- MGT_STAG_CMD (R447). -/
def R.mgtStagCmd : Nat := 0x0380020

/-- Registers of 14_stag_redundancy.md. -/
def regTable11 : List RegRow := [
  ⟨0x0380000, 1, .rov, 0x0#64, 0x10773#64⟩,
  ⟨0x0380008, 1, .rov, 0x0#64, 0x80000000FFFFFFFF#64⟩,
  ⟨0x0380010, 1, .rov, 0x0#64, 0xFFFFFFFFFFFFFFFF#64⟩,
  ⟨0x0380018, 1, .rov, 0x0#64, 0xFFFFFFFFFFFFFFFF#64⟩,
  ⟨0x0380020, 1, .wo, 0x0#64, 0x3#64⟩]

/-- MGT_GPIO_FUNC (R533). -/
def R.mgtGpioFunc : Nat := 0x0380100

/-- MGT_GPIO_OUT (R533). -/
def R.mgtGpioOut : Nat := 0x0380108

/-- MGT_GPIO_STATUS (R533). -/
def R.mgtGpioStatus : Nat := 0x0380110

/-- DBG_SRAM_STATUS (R532). -/
def R.dbgSramStatus : Nat := 0x0480000

/-- DBG_TRACE_CTL (R532). -/
def R.dbgTraceCtl : Nat := 0x0480008

/-- DBG_HIST_CTL (R532). -/
def R.dbgHistCtl : Nat := 0x0480010

/-- DBG_SRAM_ADDR (R532). -/
def R.dbgSramAddr : Nat := 0x0480018

/-- DBG_SRAM_DATA (R532). -/
def R.dbgSramData : Nat := 0x0480020

/-- Registers of 18_fault_catalogue.md. -/
def regTable12 : List RegRow := [
  ⟨0x0380100, 1, .rw, 0x0#64, 0x77777777#64⟩,
  ⟨0x0380108, 1, .rw, 0x0#64, 0xFF#64⟩,
  ⟨0x0380110, 1, .rov, 0x0#64, 0xFFFF#64⟩,
  ⟨0x0480000, 1, .rov, 0x0#64, 0xFFFF00010303#64⟩,
  ⟨0x0480008, 1, .rw, 0x0#64, 0x800000000000FF1F#64⟩,
  ⟨0x0480010, 1, .rw, 0x0#64, 0x800000000000001F#64⟩,
  ⟨0x0480018, 1, .rw, 0x0#64, 0x1FFFF8#64⟩,
  ⟨0x0480020, 1, .rov, 0x0#64, 0xFFFFFFFFFFFFFFFF#64⟩]

/-- MGT_BOARD (R560). -/
def R.mgtBoard : Nat := 0x0380120

/-- MGT_IO_SLEW (R560). -/
def R.mgtIoSlew : Nat := 0x0380128

/-- MGT_SYNC_CTL (R560). -/
def R.mgtSyncCtl : Nat := 0x0380130

/-- MGT_SYNC_STATUS (R560). -/
def R.mgtSyncStatus : Nat := 0x0380138

/-- MGT_ALERT_EN (R560). -/
def R.mgtAlertEn : Nat := 0x0380140

/-- MGT_ALERT_PEND (R560). -/
def R.mgtAlertPend : Nat := 0x0380148

/-- MGT_RAIL_STATUS (R560). -/
def R.mgtRailStatus : Nat := 0x0380150

/-- MGT_AVS (R560). -/
def R.mgtAvs : Nat := 0x0380158

/-- Registers of 19_package_electrical.md. -/
def regTable13 : List RegRow := [
  ⟨0x0380120, 1, .ro, 0x0#64, 0x7F013F#64⟩,
  ⟨0x0380128, 1, .rw, 0x0#64, 0xFF#64⟩,
  ⟨0x0380130, 1, .rw, 0x0#64, 0xFFFFF3FFFF#64⟩,
  ⟨0x0380138, 1, .rov, 0x0#64, 0xFFFFFFFFFFFFFFFF#64⟩,
  ⟨0x0380140, 1, .rw, 0x3F#64, 0x3F#64⟩,
  ⟨0x0380148, 1, .w1c, 0x0#64, 0x3F#64⟩,
  ⟨0x0380150, 1, .rov, 0x0#64, 0xFF03FFFF#64⟩,
  ⟨0x0380158, 1, .rov, 0x0#64, 0xFFFFFFFFFFFFFFFF#64⟩]

/-- MGT_INT_PEND (R427). -/
def R.mgtIntPend (u n : Nat) : Nat := 0x03A0000 + 0x1000 * u + 8 * n

/-- MGT_INT_INSERVICE (R427). -/
def R.mgtIntInservice (u n : Nat) : Nat := 0x03A0020 + 0x1000 * u + 8 * n

/-- MGT_INT_LEVEL (R427). -/
def R.mgtIntLevel (u n : Nat) : Nat := 0x03A0040 + 0x1000 * u + 8 * n

/-- MGT_INT_CTL (R427). -/
def R.mgtIntCtl (u : Nat) : Nat := 0x03A00C0 + 0x1000 * u

/-- MGT_INT_LOST (R427). -/
def R.mgtIntLost (u : Nat) : Nat := 0x03A00C8 + 0x1000 * u

/-- DIE_INT_PEND (R426). -/
def R.dieIntPend (d : Nat) : Nat := 0x05D0000 + 0x100000 * d

/-- DIE_INT_INSERVICE (R426). -/
def R.dieIntInservice (d : Nat) : Nat := 0x05D0008 + 0x100000 * d

/-- DIE_INT_LEVEL (R426). -/
def R.dieIntLevel (d n : Nat) : Nat := 0x05D0010 + 0x100000 * d + 8 * n

/-- DIE_INT_CTL (R426). -/
def R.dieIntCtl (d : Nat) : Nat := 0x05D0030 + 0x100000 * d

/-- DIE_INT_LOST (R426). -/
def R.dieIntLost (d : Nat) : Nat := 0x05D0038 + 0x100000 * d

/-- Registers of 13_interrupts.md. -/
def regTable14 : List RegRow := [
  ⟨0x03A0000, 4, .rov, 0x0#64, 0xFFFFFFFFFFFFFFFF#64⟩,
  ⟨0x03A0020, 4, .rov, 0x0#64, 0xFFFFFFFFFFFFFFFF#64⟩,
  ⟨0x03A0040, 16, .ro, 0x0#64, 0xFFFFFFFFFFFFFFFF#64⟩,
  ⟨0x03A00C0, 1, .rov, 0x0#64, 0x1F0F0F#64⟩,
  ⟨0x03A00C8, 1, .rov, 0x0#64, 0xFF00FFFFFFFF#64⟩,
  ⟨0x05D0000, 1, .rov, 0x0#64, 0xFFFFFFFFFFFFFFFF#64⟩,
  ⟨0x05D0008, 1, .rov, 0x0#64, 0xFFFFFFFFFFFFFFFF#64⟩,
  ⟨0x05D0010, 4, .ro, 0x0#64, 0xFFFFFFFFFFFFFFFF#64⟩,
  ⟨0x05D0030, 1, .rov, 0x0#64, 0x1F0F0F#64⟩,
  ⟨0x05D0038, 1, .rov, 0x0#64, 0x3F00FFFFFFFF#64⟩]

/-- FW_STATUS (R510). -/
def R.fwStatus : Nat := 0x03C0000

/-- FW_SLOT_A (R510). -/
def R.fwSlotA : Nat := 0x03C0008

/-- FW_SLOT_B (R510). -/
def R.fwSlotB : Nat := 0x03C0010

/-- FW_SECVER (R510). -/
def R.fwSecver : Nat := 0x03C0018

/-- FW_ACT_TIME (R510). -/
def R.fwActTime : Nat := 0x03C0020

/-- FW_HEALTH_DEADLINE (R510). -/
def R.fwHealthDeadline : Nat := 0x03C0028

/-- FW_HEALTH_CONFIRM (R510). -/
def R.fwHealthConfirm : Nat := 0x03C0030

/-- FW_CHAIN_STATUS (R510). -/
def R.fwChainStatus : Nat := 0x03C0038

/-- FW_STATS (R510). -/
def R.fwStats : Nat := 0x03C0040

/-- SEC_STATUS (R511). -/
def R.secStatus : Nat := 0x0400000

/-- SEC_OWNER_ID (R511). -/
def R.secOwnerId : Nat := 0x0400008

/-- SEC_POLICY_SEQ (R511). -/
def R.secPolicySeq : Nat := 0x0400010

/-- SEC_MEAS_SEQ (R511). -/
def R.secMeasSeq : Nat := 0x0400018

/-- SEC_MCTP_VID (R511). -/
def R.secMctpVid : Nat := 0x0400020

/-- SEC_MEAS (R511). -/
def R.secMeas (n : Nat) : Nat := 0x0400100 + 8 * n

/-- Registers of 16_firmware_security.md. -/
def regTable15 : List RegRow := [
  ⟨0x03C0000, 1, .rov, 0x0#64, 0x718#64⟩,
  ⟨0x03C0008, 1, .rov, 0x0#64, 0xC000FFFFFFFFFFFF#64⟩,
  ⟨0x03C0010, 1, .rov, 0x0#64, 0xC000FFFFFFFFFFFF#64⟩,
  ⟨0x03C0018, 1, .rov, 0x0#64, 0xFFFFFFFFFFFFFFFF#64⟩,
  ⟨0x03C0020, 1, .rov, 0x0#64, 0xBFFFFFFFFFFFFFFF#64⟩,
  ⟨0x03C0028, 1, .rov, 0x0#64, 0xFFFFFFFFFFFFFFFF#64⟩,
  ⟨0x03C0030, 1, .ro, 0x0#64, 0x3#64⟩,
  ⟨0x03C0038, 1, .rov, 0x0#64, 0x1FF03FF1FFF#64⟩,
  ⟨0x03C0040, 1, .rov, 0x0#64, 0xFFFFFFFFFFFFFFFF#64⟩,
  ⟨0x0400000, 1, .rov, 0x0#64, 0xFFFFFFFF0000000F#64⟩,
  ⟨0x0400008, 1, .ro, 0x0#64, 0xFFFFFFFFFFFFFFFF#64⟩,
  ⟨0x0400010, 1, .ro, 0x0#64, 0xFFFFFFFFFFFFFFFF#64⟩,
  ⟨0x0400018, 1, .rov, 0x0#64, 0xFFFFFFFF#64⟩,
  ⟨0x0400020, 1, .ro, 0x0#64, 0xFFFFFFFF#64⟩,
  ⟨0x0400100, 42, .rov, 0x0#64, 0xFFFFFFFFFFFFFFFF#64⟩]

/-- LIFE_STATUS (R523). -/
def R.lifeStatus : Nat := 0x0440000

/-- LIFE_SEL (R523). -/
def R.lifeSel : Nat := 0x0440008

/-- LIFE_VAL (R523). -/
def R.lifeVal : Nat := 0x0440010

/-- LIFE_HOUR_START (R523). -/
def R.lifeHourStart : Nat := 0x0440018

/-- LIFE_DAY_START (R523). -/
def R.lifeDayStart : Nat := 0x0440020

/-- LIFE_LAST_SEQ (R523). -/
def R.lifeLastSeq : Nat := 0x0440028

/-- Registers of 17_lifetime_records.md. -/
def regTable16 : List RegRow := [
  ⟨0x0440000, 1, .rov, 0x0#64, 0xFFFFFFFF97FF01FF#64⟩,
  ⟨0x0440008, 1, .rw, 0x0#64, 0x3FF#64⟩,
  ⟨0x0440010, 1, .rov, 0x0#64, 0xFFFFFFFFFFFFFFFF#64⟩,
  ⟨0x0440018, 1, .rov, 0x0#64, 0xFFFFFFFFFFFFFFFF#64⟩,
  ⟨0x0440020, 1, .rov, 0x0#64, 0xFFFFFFFFFFFFFFFF#64⟩,
  ⟨0x0440028, 1, .rov, 0x0#64, 0xFFFFFFFFFFFFFFFF#64⟩]

/-- DIE_MESH_STATUS (R194). -/
def R.dieMeshStatus (d : Nat) : Nat := 0x05E0000 + 0x100000 * d

/-- DIE_MESH_ERR (R194). -/
def R.dieMeshErr (d : Nat) : Nat := 0x05E0008 + 0x100000 * d

/-- DIE_MESH_SPARE_MAP (R194). -/
def R.dieMeshSpareMap (d n : Nat) : Nat := 0x05E0020 + 0x100000 * d + 8 * n

/-- DIE_MESH_SEG_H (R194). -/
def R.dieMeshSegH (d n : Nat) : Nat := 0x05E0040 + 0x100000 * d + 8 * n

/-- DIE_MESH_SEG_V (R194). -/
def R.dieMeshSegV (d n : Nat) : Nat := 0x05E0080 + 0x100000 * d + 8 * n

/-- DIE_MESH_EGRESS_MAP (R194). -/
def R.dieMeshEgressMap (d n : Nat) : Nat := 0x05E0100 + 0x100000 * d + 8 * n

/-- DIE_MESH_RED_USE (R194). -/
def R.dieMeshRedUse (d : Nat) : Nat := 0x05E0300 + 0x100000 * d

/-- Registers of 05_die_mesh.md. -/
def regTable17 : List RegRow := [
  ⟨0x05E0000, 1, .rov, 0x0#64, 0x3FF0001FF03#64⟩,
  ⟨0x05E0008, 1, .rov, 0x0#64, 0xFFFFFFFFFFFFFFFF#64⟩,
  ⟨0x05E0020, 4, .ro, 0x0#64, 0x3FF03FF03FF03FF#64⟩,
  ⟨0x05E0040, 5, .ro, 0x0#64, 0xFFFFFFFFFFFFFFFF#64⟩,
  ⟨0x05E0080, 5, .ro, 0x0#64, 0xFFFFFFFFFFFFFFFF#64⟩,
  ⟨0x05E0100, 36, .ro, 0x0#64, 0x3F3F3F3F3F3F3F3F#64⟩,
  ⟨0x05E0300, 1, .rov, 0x0#64, 0xFFFFFFFFFFFFFFFF#64⟩]

/-- The index of R562; registers that repeat in each die window, or for each stag core, stand once. -/
def regTable : List RegRow :=
  regTable1 ++ regTable2 ++ regTable3 ++ regTable4 ++ regTable5 ++ regTable6 ++ regTable7 ++ regTable8 ++ regTable9 ++ regTable10 ++ regTable11 ++ regTable12 ++ regTable13 ++ regTable14 ++ regTable15 ++ regTable16 ++ regTable17

/-- Folds the eight die windows, and the four stag cores' interrupt registers, onto the first. -/
def Regs.fold (off : Nat) : Nat :=
  if 0x500000 ≤ off ∧ off < 0xD00000 then 0x500000 + (off - 0x500000) % 0x100000
  else if 0x3A0000 ≤ off ∧ off < 0x3A4000 then 0x3A0000 + (off - 0x3A0000) % 0x1000
  else off

/-- The row of the index that holds an 8-byte-aligned offset. -/
def Regs.findIn (off : Nat) : List RegRow → Option RegRow
  | [] => none
  | r :: t =>
    if r.base ≤ off ∧ off < r.base + 8 * r.count ∧ (off - r.base) % 8 = 0 then some r
    else Regs.findIn off t

/-- The row of the index for an offset of the window, if a register lies there (R10). -/
def Regs.find (off : Nat) : Option RegRow := Regs.findIn (Regs.fold off) regTable

end Sys2Proof.Machine
end

