-- ==== Sys2Proof/Machine/RegInit.lean ====
section
/-!
DEFINITION. What each register of the window holds after step 8 of the cold reset (R11, R451, R562):
the index's reset value, and where the index says Loaded or Die start-up the value the start-up
leaves with nothing in package flash (log entry 3).
-/

namespace Sys2Proof.Machine

/-- Row and physical column of the router that lane group `g` attaches to (R167). -/
def groupPos (g : Nat) : Nat × Nat :=
  if g < 18 then (0, g) else if g < 36 then (15, g - 18)
  else if g = 36 then (7, 0) else if g = 37 then (8, 0) else if g = 38 then (7, 17) else (8, 17)

/-- Distance of two numbers. -/
def natDist (a b : Nat) : Nat := (a - b) + (b - a)

/-- Mesh hops from a position to the router of a group (R168). -/
def groupHops (r c g : Nat) : Nat := natDist r (groupPos g).1 + natDist c (groupPos g).2

/-- The group at the fewest hops, the lower number on a tie. -/
def nearest (r c : Nat) : List Nat → Option Nat
  | [] => none
  | g :: t =>
    match nearest r c t with
    | none => some g
    | some h => if groupHops r c g ≤ groupHops r c h then some g else some h

/-- The group for a position among the in-service groups of a role (R168, R213): of the edge on the
position's side first, else of all. -/
def chooseGroup (inService : List Nat) (r c : Nat) : Option Nat :=
  let edge := inService.filter fun g => if r < 8 then decide (g < 18) else decide (18 ≤ g) && decide (g < 36)
  match nearest r c edge with
  | some g => some g
  | none => nearest r c inService

/-- The default role of a group: 0 egress, 1 ingress, 2 management and time, 3 spare (R212). -/
def defaultRole (g : Nat) : Nat :=
  if g < 36 then g % 2 else if g = 36 ∨ g = 39 then 2 else 3

/-- Entry of DIE_MESH_EGRESS_MAP for a position. -/
def egressEntry (inService : List Nat) (p : Nat) : Nat := (chooseGroup inService (p / 18) (p % 18)).getD 0

/-- Packs bytes into a word, lowest first. -/
def packBytes (l : List Nat) : Word := BitVec.ofNat 64 (l.foldr (fun b v => b % 256 + 256 * v) 0)

/-- Register `k` of DIE_MESH_EGRESS_MAP for a set of egress groups. -/
def egressReg (inService : List Nat) (k : Nat) : Word :=
  packBytes ((rangeFrom (8 * k) 8).map (egressEntry inService))

/-- The egress groups of the default role map. -/
def defaultEgress : List Nat := (rangeFrom 0 40).filter fun g => decide (defaultRole g = 0)

/-- Source status after the start-up (R388, R392): combs of both halves and port sources active, standbys dark. -/
def optSrcInit (n : Nat) : Word :=
  let standby := decide (n = 8) || decide (n = 9) || decide (n = 18) || decide (n = 19) || decide (32 ≤ n)
  let maxBias := if n < 20 then 12000 else 10000
  if standby then BitVec.ofNat 64 (0x3F * 2 ^ 8 + maxBias * 2 ^ 32)
  else BitVec.ofNat 64 (2 + (if n < 10 then n else if n < 20 then n - 10 else n - 20) * 2 ^ 8 + maxBias * 2 ^ 32)

/-- Values that the start-up leaves in registers marked Loaded or Die start-up, or that the device
has moved on by the end of step 8 (log entry 3). -/
def Regs.started (off : Nat) : Option Word :=
  let o := Regs.fold off
  if o = 0x0000000 then
    some (BitVec.ofNat 64 (0x9240 * 2 ^ 48 + 0xB0 * 2 ^ 40 + Config.jedec.toNat * 2 ^ 16 + 1))
  else if o = 0x0000008 then some Config.serial
  else if o = 0x0010000 then some 1
  else if o = 0x0010008 then some 1
  else if o = 0x0020000 then some 3
  else if 0x0030400 ≤ o ∧ o < 0x0030460 then
    some (BitVec.ofNat 64 (4915 + 48 * 2 ^ 32 + 16 * 2 ^ 40 + 20 * 2 ^ 48))
  else if o = 0x0030000 then some 1
  else if o = 0x0050000 then some 2
  else if o = 0x0180000 then some 2
  else if o = 0x0380000 then some 0x340
  else if o = 0x0054080 then some (BitVec.ofNat 64 (5 * 2 ^ 32))
  else if o = 0x0380120 then some (BitVec.ofNat 64 (0x58 * 2 ^ 16))
  else if o = 0x0380158 then some 0x7D7D7D7D7D7D7D7D
  else if o = 0x03C0008 then some (BitVec.ofNat 64 (2 * 2 ^ 62 + imgVersion Config.factoryImage))
  else if o = 0x03C0010 then some (BitVec.ofNat 64 (2 ^ 62))
  else if o = 0x03C0018 then some (BitVec.ofNat 64 (imgSecver Config.factoryImage))
  else if o = 0x0400000 then some 1
  else if o = 0x0400020 then some (BitVec.ofNat 64 Config.mctpVendor.toNat)
  else if o = 0x0440000 then some (BitVec.ofNat 64 (2 ^ 32 + 2 ^ 28))
  else if 0x0080000 ≤ o ∧ o < 0x0080060 then some 1
  else if o = 0x0080300 then some (BitVec.ofNat 64 (384 * 2 ^ 48 + 463856467968))
  else if o = 0x0080308 then some (BitVec.ofNat 64 (2 ^ 16))
  else if 0x0100000 ≤ o ∧ o < 0x01000E0 then some 1
  else if o = 0x0100200 then some 1
  else if 0x0140000 ≤ o ∧ o < 0x0140A00 then
    let g := (o - 0x0140000) / 8 % 40
    some (BitVec.ofNat 64 (0x3F * 2 ^ 16 + defaultRole g))
  else if 0x0142000 ≤ o ∧ o < 0x0142A00 then some (BitVec.ofNat 64 (100 * 2 ^ 48 + 0xFFFFFFFF))
  else if 0x0143000 ≤ o ∧ o < 0x0143080 then
    let k := (o - 0x0143000) / 8 % 2
    some (BitVec.ofNat 64 ((rangeFrom (32 * k) (if k = 0 then 32 else 8)).foldr (fun g v => defaultRole g + 4 * v) 0))
  else if 0x0143100 ≤ o ∧ o < 0x0143140 then
    some (BitVec.ofNat 64 (2 * 2 ^ 24 + 2 * 2 ^ 16 + 18 * 2 ^ 8 + 18))
  else if 0x0180100 ≤ o ∧ o < 0x0180260 then some (optSrcInit ((o - 0x0180100) / 8))
  else if 0x0200000 ≤ o ∧ o < 0x0200060 then some 0x21
  else if o = 0x05E0000 then some 1
  else if 0x05E0020 ≤ o ∧ o < 0x05E0040 then
    some (BitVec.ofNat 64 ((16 + 17 * 2 ^ 5) * (1 + 2 ^ 16 + 2 ^ 32 + 2 ^ 48)))
  else if 0x05E0100 ≤ o ∧ o < 0x05E0220 then some (egressReg defaultEgress ((o - 0x05E0100) / 8))
  else none

/-- The value a register of the window holds when nothing has written it. -/
def Regs.initial (off : Nat) : Word :=
  match Regs.started off with
  | some w => w
  | none => match Regs.find off with
    | some r => r.reset
    | none => 0

end Sys2Proof.Machine
end

