-- ==== Sys2Proof/Machine/State.lean ====
section
/-!
DEFINITION. The state of the whole device, the stops, and the state after reset.
-/

namespace Sys2Proof.Machine

/-- Time (R295, R297): SYSTIME, the count of nominal core cycles, the correction still to be taken up,
consecutive corrections within 4 ns, when the source last corrected; whether CLK_TIME_SET was written since the cold reset; and, by core key, the 64ths of core cycles
that throttling suppressed (R465). -/
structure TimeState where
  systime : Nat
  coreClk : Nat
  slew : Int
  good : Nat
  lastCorr : Nat
  given : Bool
  suppressed : SMap Nat
  deriving DecidableEq, Repr

/-- The state of the block. -/
structure State where
  pending : List Instr
  free : Nat
  time : TimeState
  cores : SMap Core
  regs : SMap Word
  shadow : SMap Word
  mem : MemState
  routers : SMap Router
  mesh : MeshState
  base : BaseState
  mmu : MmuState
  fab : FabState
  xport : XportState
  host : HostState
  life : LifeState
  opt : OptState
  stag : StagState
  therm : ThermState
  fw : FwState
  pkg : PkgState
  bol : BolState
  dieCtl : SMap IntCtl
  stagCtl : SMap IntCtl
  out : List Out
  deriving DecidableEq, Repr

/-- The default interleave map (R225). -/
def defaultMap : List Nat :=
  (rangeFrom 0 384).map fun j =>
    32 * nth 0 [0, 6, 1, 7, 2, 8, 3, 9, 4, 10, 5, 11] (j % 12) + j / 12

/-- Events that the start-up reports on a device with nothing in package flash: the default interleave map,
stag A's take of the interlock, the end of the ring search, stag B in sync, no closing ledger record (R225,
R392, R446, R519). Every event ring was disabled when they were sent, so they are dropped and counted (R352). -/
def startLost : Nat := 5

/-- The state after reset: the end of step 8 of R451 on a device with nothing in package flash. -/
def State.reset : State :=
  { pending := [], free := 0,
    time := { systime := 0, coreClk := 0, slew := 0, good := 0, lastCorr := 0, given := false, suppressed := [] },
    cores := [], regs := [], shadow := [],
    mem := { bytes := [], bad := [], corrected := [], pcBad := [], lanes := [], repairs := [], trained := [],
             repairing := [], held := [], retired := [], recorded := [], map := defaultMap, mapOut := [] },
    routers := [], mesh := MeshState.reset, base := BaseState.reset, mmu := MmuState.reset, fab := FabState.reset,
    xport := XportState.reset, host := { HostState.reset with evSeq := startLost, eqLost := [(0, startLost)] }, life := LifeState.reset,
    opt := OptState.reset, stag := StagState.reset, therm := ThermState.reset, fw := FwState.reset,
    pkg := PkgState.reset, bol := BolState.reset, dieCtl := [], stagCtl := [], out := [] }

/-- Faults: none. A block raises no exception: what the spec calls an error is an error status, a fault record, a
count or an event in `State`, and where it gives a command no effect the state stays as it is (log entries 2, 7). -/
inductive Fault where
  deriving DecidableEq, Repr

/-- Refusals. -/
inductive Refusal where
  /-- A command without a meaning, named as spec/opcode_table.json names it: raised by no arm of `exec`, since
  every row has its meaning. Safe: the block would stop where the hardware goes on. -/
  | notModelled (mnemonic : String)
  deriving DecidableEq, Repr

end Sys2Proof.Machine
end

