-- ==== Sys2Proof/Machine/Ops.lean ====
section
/-!
DEFINITION. Named operations over the whole state: registers of the window, free values, what the
device sends and reports, interrupt sources of the die controllers and stag cores, cores.
-/

namespace Sys2Proof.Machine

/-! Registers. -/

/-- The active value of a register. -/
def State.reg (s : State) (off : Nat) : Word := SMap.get Regs.initial s.regs off

/-- Writes the active value of a register. -/
def State.setReg (s : State) (off : Nat) (v : Word) : State :=
  { s with regs := SMap.set Regs.initial s.regs off v }

/-- A field of a register. -/
def State.rfld (s : State) (off lo len : Nat) : Nat := fld (s.reg off) lo len

/-- Writes a field of a register. -/
def State.setRfld (s : State) (off lo len v : Nat) : State := s.setReg off (setFld (s.reg off) lo len v)

/-- Counts in a saturating field of a register. -/
def State.count (s : State) (off lo len : Nat) : State := s.setReg off (satInc (s.reg off) lo len)

/-- Adds to a saturating field of a register. -/
def State.countBy (s : State) (off lo len n : Nat) : State :=
  s.setRfld off lo len (min (2 ^ len - 1) (s.rfld off lo len + n))

/-- The shadow value of an RWS register (R357). -/
def State.shadowReg (s : State) (off : Nat) : Word := SMap.get Regs.initial s.shadow off

/-- SYSTIME now. -/
def State.now (s : State) : Nat := s.time.systime

/-- The ledger hour and day windows that contain the present moment (R5, R512). -/
def State.hourWin (s : State) : Nat := s.now / hourNs
def State.dayWin (s : State) : Nat := s.now / dayNs

/-! Free values, output, events. -/

/-- A free value of the device (R526, log entry 5). -/
def State.freeWord (s : State) (i : Nat) : Word := Config.freeBits ((s.free + i) * 4096)

/-- Counts draws of free values. -/
def State.drew (s : State) (n : Nat) : State := { s with free := s.free + n }

/-- Free bytes of the device. -/
def State.freeBytes (s : State) (n : Nat) : State × List Byte :=
  (s.drew ((n + 7) / 8), ((rangeFrom 0 ((n + 7) / 8)).flatMap fun i => wordBytes (s.freeWord i)).take n)

/-- A write of a register that has reserved bits set leaves the others with free values (R9). -/
def State.reservedOk (s : State) (m v : Word) : Word × State :=
  if v &&& ~~~ m = 0 then (v, s) else (s.freeWord 0 &&& m, s.drew 1)

/-- The device sends or drives something. -/
def State.emit (s : State) (o : Out) : State := { s with out := s.out ++ [o] }

/-- The device sends a list of things. -/
def State.emits (s : State) (l : List Out) : State := { s with out := s.out ++ l }

/-- Pins by their place in the boundary register (R548, R554): THERMTRIP_N, ALERT_N, SYNC_OUT, GPIO0 to 7. -/
def Pin.thermtrip : Nat := 5
def Pin.alert : Nat := 6
def Pin.syncOut : Nat := 7
def Pin.gpio (n : Nat) : Nat := 8 + n

/-- The device drives a pin of its own, unless the JTAG port drives or floats it (R554). -/
def State.drive (s : State) (pin : Nat) (level : Bool) : State :=
  if 3 ≤ s.pkg.jtag then s else s.emit (.pin pin level)

/-- Reports an event to the host (R350, R351): it waits for EVENT_ENTRY_WRITE. -/
def State.event (s : State) (code : Nat) (detail : List Byte) : State :=
  { s with host := { s.host with events := s.host.events ++ [{ code := code, detail := detail, time := s.now }] } }

/-- One byte of event detail. -/
def b1 (n : Nat) : List Byte := natToBytes 1 n

/-! Cores. -/

/-- A core by its key. -/
def State.coreAt (s : State) (k : Nat) : Core := SMap.get Core.initial s.cores k

/-- Writes a core. -/
def State.setCore (s : State) (k : Nat) (c : Core) : State :=
  { s with cores := SMap.set Core.initial s.cores k c }

/-- The two spare physical columns of a row (R164). -/
def State.spares (s : State) (d r : Nat) : Nat × Nat :=
  let w := s.reg (R.dieMeshSpareMap d (r / 4))
  (fld w (16 * (r % 4)) 5, fld w (16 * (r % 4) + 5) 5)

/-- The physical column of a logical one (R164). -/
def State.physCol (s : State) (d r l : Nat) : Nat :=
  let (lo, hi) := s.spares d r
  let c := if lo ≤ l then l + 1 else l
  if hi ≤ c then c + 1 else c

/-- The logical column of a physical one; a spare has none and reads 0. -/
def State.logCol (s : State) (d r c : Nat) : Nat :=
  let (lo, hi) := s.spares d r
  if c = lo ∨ c = hi then 0
  else c - (if lo < c then 1 else 0) - (if hi < c then 1 else 0)

/-- Die, row and physical column of a core's key. -/
def keyPos (k : Nat) : Nat × Nat × Nat := (k / 288, k % 288 / 18, k % 18)

/-- The key of a position. -/
def posKey (d r c : Nat) : Nat := 288 * d + 18 * r + c

/-- CORE_ID of a core (R59). -/
def State.coreIdWord (s : State) (k : Nat) : Word :=
  let (d, r, c) := keyPos k
  BitVec.ofNat 64 (s.logCol d r c + r * 2 ^ 4 + d * 2 ^ 8 + c * 2 ^ 16)

/-- What a core reads of the world outside it, by its key. -/
def State.envAt (s : State) (k : Nat) : CoreEnv :=
  { systime := s.time.systime, clk := s.time.coreClk - SMap.get (fun _ => 0) s.time.suppressed k / 64, idWord := s.coreIdWord k, key := k }

/-- What a core reads of the world outside it. -/
def State.coreEnv (s : State) (c : CoreId) : CoreEnv := s.envAt c.key

/-- Applies a core-local effect by key. -/
def State.onKey (s : State) (k : Nat) (f : CoreEnv → Core → Core) : State :=
  s.setCore k (f (s.envAt k) (s.coreAt k))

/-- Applies a core-local effect. -/
def State.onCore (s : State) (c : CoreId) (f : CoreEnv → Core → Core) : State := s.onKey c.key f

/-- Applies a core-local effect to every position of a die. -/
def State.onDieCores (s : State) (d : Nat) (f : CoreEnv → Core → Core) : State :=
  (rangeFrom (288 * d) 288).foldl (fun s k => s.onKey k f) s

/-- Issues an instruction on its core. -/
def State.issue (s : State) (i : Issue) (word : Nat) (legal : Bool) (f : CoreEnv → Core → Core) : State :=
  s.onCore i.core fun env c => c.issue i word legal (f env)

/-! Interrupt controllers of the die controllers and stag cores (R423, R424). -/

/-- The controller of a die controller. -/
def State.dieIntc (s : State) (d : Nat) : IntCtl := SMap.get (fun _ => IntCtl.reset) s.dieCtl d

/-- Writes the controller of a die controller. -/
def State.setDieIntc (s : State) (d : Nat) (c : IntCtl) : State :=
  { s with dieCtl := SMap.set (fun _ => IntCtl.reset) s.dieCtl d c }

/-- The controller of a stag core. -/
def State.stagIntc (s : State) (u : Nat) : IntCtl := SMap.get (fun _ => IntCtl.reset) s.stagCtl u

/-- Writes the controller of a stag core. -/
def State.setStagIntc (s : State) (u : Nat) (c : IntCtl) : State :=
  { s with stagCtl := SMap.set (fun _ => IntCtl.reset) s.stagCtl u c }

/-- An edge of a die-controller source (R423). -/
def State.dieEdge (s : State) (d n : Nat) : State := s.setDieIntc d ((s.dieIntc d).edge n)

/-- An edge of a stag source that only one stag sees: 0 stag A, 1 stag B. -/
def State.stagEdgeOf (s : State) (stag n : Nat) : State :=
  let s := s.setStagIntc (2 * stag) ((s.stagIntc (2 * stag)).edge n)
  s.setStagIntc (2 * stag + 1) ((s.stagIntc (2 * stag + 1)).edge n)

/-- An edge of a stag source that both stags see (R424). -/
def State.stagEdge (s : State) (n : Nat) : State := (s.stagEdgeOf 0 n).stagEdgeOf 1 n

/-- Is a core's notice to the die controller set (R423)? -/
def Core.notice (c : Core) : Bool := c.noticeHalt || c.noticeFault || c.noticeLost || c.handshake

/-- Conditions of the level sources of a die controller (R423): a notice of a row, a pending fault, a
queued host command. -/
def State.dieCond (s : State) (d : Nat) : BitVec 256 :=
  let rows := (rangeFrom 0 16).foldl (fun m r =>
    if (rangeFrom (posKey d r 0) 18).any (fun k => (s.coreAt k).notice) then m ||| srcBit r else m) (0 : BitVec 256)
  rows ||| (if s.mmu.faults.any (fun f => f.core / 288 = d) then srcBit 16 else 0)
    ||| (if (SMap.get (fun _ => []) s.host.dieq d).isEmpty then 0 else srcBit 18)

/-- Does a stag send outputs (R428, R437): is one in HOLDER? -/
def State.sends (s : State) : Bool := decide (s.rfld R.mgtStagStatus 4 3 = 4) || decide (s.rfld R.mgtStagStatus 8 3 = 4)

/-! The ledger. -/

/-- Counts in the ledger (R515). -/
def State.ledgerBy (s : State) (i n : Nat) : State :=
  { s with life := s.life.add s.now (s.reg R.lifeHourStart).toNat (s.reg R.lifeDayStart).toNat i n }

/-- Counts one in the ledger. -/
def State.ledger (s : State) (i : Nat) : State := s.ledgerBy i 1

/-- Adds a sample to a bin of a histogram (R516). -/
def State.hist (s : State) (h b : Nat) : State := s.ledgerBy (64 + 16 * h + min b 15) 1

/-! Dies. -/

/-- State of a die (R476): 0 running, 1 resetting, 2 starting, 3 held, 4 down. -/
def State.dieState (s : State) (d : Nat) : Nat := s.rfld (R.rstDieStatus d) 0 3

/-- Does the die answer requests? -/
def State.dieUp (s : State) (d : Nat) : Bool := decide (s.dieState d = 0)

/-- The index of this device in the torus (R261). -/
def State.devIndex (s : State) : Nat := 32 * s.rfld R.fabTopo 8 4 + s.rfld R.fabTopo 0 5

/-- Does the controller of a die reload (R494)? -/
def State.reloading (s : State) (d : Nat) : Bool := match s.fw.pausing with | some x => decide (x.die = d) | none => false

/-! Short writes of package flash (R529). -/

/-- In overlap mode, do the 200 µs after a takeover run, in which no stag starts a flash write (R443, R444)? -/
def State.justTaken (s : State) : Bool :=
  bit (s.reg R.mgtStagStatus) 16 && decide (s.now < (s.reg R.mgtStagLast).toNat + 200000) && decide (s.reg R.mgtStagLast ≠ 0)

/-- A short write takes its place in package flash. -/
def State.flashKeep (s : State) (o : FlashOp) : State :=
  match o with
  | .boot c => { s with fw := { s.fw with copies := bootWrite s.fw.copies c } }
  | .mapOut pc => { s with mem := { s.mem with mapOut := s.mem.mapOut ++ [pc] } }
  | .retired l => { s with mem := { s.mem with recorded := l } }
  | .sources d => { s with fw := { s.fw with defaults := s.fw.defaults.filter (fun r => decide (r.1 ≠ 6)) ++ [(6, d)] } }
  | _ => s

/-- Performs a short write that finds no other before it, else asks for it (log entry 33). -/
def State.shortWrite (s : State) (o : FlashOp) : State :=
  if s.fw.queue.isEmpty && !s.justTaken then s.flashKeep o else { s with fw := { s.fw with queue := s.fw.queue ++ [o] } }

/-- The configuration epoch (R360). -/
def State.epoch (s : State) : Bool := bit (s.reg R.cfgSwapStatus) 8

/-- Capacity of device memory (R223). -/
def State.capacity (s : State) : Nat := s.rfld R.memCapacity 0 40

end Sys2Proof.Machine
end

