-- ==== Sys2Proof/Machine/Debug.lean ====
section
/-!
DEFINITION. The debug SRAM: trace capture, latency histograms and the GPIO pins (R530, R531).
-/

namespace Sys2Proof.Machine

/-! The header of a packet on the base (R201, R266, R314). -/

/-- The header but for its CRC, as a number. -/
def hdrFields (w r seq : Nat) (cast : Bool) (p : Pkt) : Nat :=
  let core := fun (k : Nat) => k / 288 % 8 * 2 ^ 9 + k % 288 / 18 * 2 ^ 5 + k % 18
  let put := fun (v lo len : Nat) => v % 2 ^ len * 2 ^ lo
  put w 251 5 + put (if cast then 31 else r) 246 5 + put p.type 241 5 + put seq 225 16 + put p.srcDev 216 9
    + put p.srcDie 213 3 + put p.srcRow 209 4 + put p.srcCol 204 5 + put p.tag 196 8 + put p.job 190 6 + put p.epoch.toNat 189 1
    + put p.red 186 3 + put p.ctx 180 6 + put p.aux 172 8 + put p.chunk 165 7 + put p.data.length 156 9 + put p.addr 108 48
    + put p.dstDev 99 9 + put p.dstDie 96 3 + put p.dstRow 92 4 + put p.dstCol 87 5
    + put p.relay.toNat 86 1 + put p.ordered.toNat 85 1 + put (p.t0 / 2 ^ 27) 80 5
    + (match p.xack with | some (k, tag) => put 1 79 1 + put (core k) 67 12 + put tag 59 8 | none => 0) + put p.t0 32 27

/-- The 32 bytes of a header, the lowest bits first. -/
def hdrBytes (w r seq : Nat) (cast : Bool) (p : Pkt) : List Byte :=
  let b := natToBytes 32 (hdrFields w r seq cast p)
  natToBytes 4 (crc32 (b.drop 4 ++ p.data)) ++ b.drop 4

/-! The SRAM (R530). -/

def State.sramByte (s : State) (a : Nat) : Byte := SMap.get (fun _ => 0) s.pkg.sram (a % 2 ^ 21)
def State.sramWord (s : State) (a : Nat) : Nat := bytesToNat ((rangeFrom a 8).map s.sramByte)

/-- Writes bytes to the SRAM. -/
def State.sramPut (s : State) (a : Nat) (d : List Byte) : State :=
  { s with pkg := { s.pkg with
      sram := (d.zip (rangeFrom a d.length)).foldl (fun m x => SMap.set (fun _ => 0) m (x.2 % 2 ^ 21) x.1) s.pkg.sram } }

/-- Which feature holds the SRAM: 0 none, 1 trace, 2 histogram. -/
def State.sramOwner (s : State) : Nat := s.rfld R.dbgSramStatus 0 2

/-- A stop receives a packet: trace capture records its header, a histogram counts its latency in ns. -/
def State.traceRecv (s : State) (w r seq ns : Nat) (cast : Bool) (p : Pkt) : State :=
  if s.sramOwner = 1 then
    let trig := bit (s.reg R.dbgSramStatus) 16
    if !s.pkg.tracing ∨ s.rfld R.dbgTraceCtl 0 5 ≠ r ∨ (trig ∧ s.pkg.traceLeft = 0) then s
    else
      let n := s.rfld R.dbgSramStatus 32 16
      let s := (s.sramPut (32 * n) (hdrBytes w r seq cast p)).setRfld R.dbgSramStatus 32 16 (n + 1)
      if trig then { s with pkg := { s.pkg with traceLeft := s.pkg.traceLeft - 1 } } else s
  else if s.sramOwner = 2 ∧ s.rfld R.dbgHistCtl 0 5 = r then
    let a := 512 * w + 8 * min ns 63
    s.sramPut a (natToBytes 8 (s.sramWord a + 1))
  else s

/-! GPIO (R531, R533). -/

/-- The function that MGT_GPIO_FUNC selects for a pin: its level, or none for an input. -/
def State.gpioFunc (s : State) (n : Nat) : Option Bool :=
  let f := s.rfld R.mgtGpioFunc (4 * n) 3
  if f = 1 then some (bit (s.reg R.mgtGpioOut) n)
  else if f = 2 then some (decide (s.rfld R.mgtStagStatus 0 2 = 0))
  else if f = 3 then some (decide (0 < s.rfld R.thmStatus 8 20))
  else none

/-- Does TRIG_OUT of trace capture take the pin? -/
def State.gpioTrig (s : State) (n : Nat) : Bool := bit (s.reg R.dbgTraceCtl) 15 && decide (s.rfld R.dbgTraceCtl 12 3 = n)

/-- Does the boundary register drive the pins? -/
def State.gpioJtag (s : State) : Bool := decide (s.pkg.jtag = 3) || decide (s.pkg.jtag = 4)

/-- The level that the device drives on a pin, if it drives it: the highest function first. TRIG_OUT is low but
for its pulse. -/
def State.gpioLevel (s : State) (n : Nat) : Option Bool :=
  if s.gpioJtag then some (bit s.pkg.boundary (Pin.gpio n))
  else if s.pkg.jtag = 5 then none
  else if s.gpioTrig n then some false
  else s.gpioFunc n

/-- A function that has lost its pin to a higher one sets the pin's bit of MGT_GPIO_STATUS.lost. -/
def State.gpioLost (s : State) : State :=
  (rangeFrom 0 8).foldl (fun s n =>
    if (s.gpioJtag && (s.gpioTrig n || (s.gpioFunc n).isSome)) || (s.gpioTrig n && (s.gpioFunc n).isSome)
    then s.setRfld R.mgtGpioStatus (8 + n) 1 1 else s) s

/-! Commands. -/

/-- A feature's en is written: from 0 to 1 it takes a free SRAM or is busy; to 0 it releases what it holds. -/
def State.sramEn (s : State) (feature old new : Nat) : State :=
  let busy := if feature = 1 then 8 else 9
  if old = 0 ∧ new = 1 then
    if s.sramOwner = 0 then
      let s := (s.setRfld R.dbgSramStatus 0 2 feature).setRfld R.dbgSramStatus busy 1 0
      if feature = 1 then
        ({ s with pkg := { s.pkg with tracing := true, traceLeft := 0 } } : State).setRfld R.dbgSramStatus 16 1 0
      else s
    else s.setRfld R.dbgSramStatus busy 1 1
  else if new = 0 then
    let s := s.setRfld R.dbgSramStatus busy 1 0
    if s.sramOwner = feature then
      ({ s with pkg := { s.pkg with tracing := if feature = 1 then false else s.pkg.tracing } } : State).setRfld R.dbgSramStatus 0 2 0
    else s
  else s

/-- A write of DBG_TRACE_CTL or DBG_HIST_CTL. -/
def State.writeTrace (s : State) (v : Word) : State :=
  let (v, s) := s.reservedOk 0x800000000000FF1F v
  let old := s.rfld R.dbgTraceCtl 63 1
  ((s.setReg R.dbgTraceCtl v).sramEn 1 old (fld v 63 1)).gpioLost

def State.writeHist (s : State) (v : Word) : State :=
  let (v, s) := s.reservedOk 0x800000000000001F v
  let old := s.rfld R.dbgHistCtl 63 1
  (s.setReg R.dbgHistCtl v).sramEn 2 old (fld v 63 1)

def execDbgTraceCtlWrite (val : Word) (s : State) : Host.Outcome State Fault Refusal := .next (s.writeTrace val)

def execDbgHistCtlWrite (val : Word) (s : State) : Host.Outcome State Fault Refusal := .next (s.writeHist val)

/-- The trigger pin rises: 1,024 entries are still recorded, and TRIG_OUT drives a pulse of 1 µs. -/
def execTraceTrigger (s : State) : Host.Outcome State Fault Refusal :=
  .next (
    if s.sramOwner ≠ 1 ∨ !s.pkg.tracing ∨ !bit (s.reg R.dbgTraceCtl) 11 ∨ bit (s.reg R.dbgSramStatus) 16 then s
    else
      let s := ({ s with pkg := { s.pkg with traceLeft := 1024 } } : State).setRfld R.dbgSramStatus 16 1 1
      if bit (s.reg R.dbgTraceCtl) 15 then
        let n := Pin.gpio (s.rfld R.dbgTraceCtl 12 3)
        (s.drive n true).drive n false
      else s)

/-- The last entry after the trigger is recorded: capture stops. -/
def execTraceStop (s : State) : Host.Outcome State Fault Refusal :=
  .next (if bit (s.reg R.dbgSramStatus) 16 && decide (s.pkg.traceLeft = 0) then { s with pkg := { s.pkg with tracing := false } } else s)

end Sys2Proof.Machine
end

