-- ==== Sys2Proof/Machine/Phy.lean ====
section
/-!
DEFINITION. The line code that port links and the Bolmin stream share (R264, R367): 256b/257b transcoding of data blocks,
the scrambler 1 + x^39 + x^58, the code RS(544,514) over 10-bit symbols, and the distribution of a codeword over lanes.
The parts are those of IEEE 802.3 Clause 119, whose polynomials no rule prints (PRESUMED, log entry 85).
-/

namespace Sys2Proof.Machine

/-- Bits of a number, the lowest first. -/
def bitsOf (n v : Nat) : List Bool := (rangeFrom 0 n).map v.testBit

/-- The number of bits, the lowest first. -/
def ofBits (l : List Bool) : Nat := l.foldr (fun b v => b.toNat + 2 * v) 0

/-- 256b/257b transcoding of a block of 32 data bytes: the header bit of an all-data block, then the data. -/
def transcode (block : List Byte) : List Bool := true :: bitsOf 256 (bytesToNat block)

/-- One bit through the scrambler 1 + x^39 + x^58: the bit sent, and the state of the last 58 bits sent. -/
def scrambleBit (st : Nat) (b : Bool) : Bool × Nat :=
  let o := (b != st.testBit 38) != st.testBit 57
  (o, (st * 2 + o.toNat) % 2 ^ 58)

def scramble : Nat → List Bool → List Bool × Nat
  | st, [] => ([], st)
  | st, b :: t =>
    let (o, st) := scrambleBit st b
    let (l, st) := scramble st t
    (o :: l, st)

/-- Multiplication in the field of 2^10 elements, with x^10 + x^3 + 1. -/
def gfMul : Nat → Nat → Nat → Nat
  | 0, _, _ => 0
  | n + 1, a, b =>
    let d := if 512 ≤ a then (2 * a) ^^^ 0x409 else 2 * a
    gfMul n d (b / 2) ^^^ (if b.testBit 0 then a else 0)

/-- Coefficients of the product of (x + α^j) for j below `n`, the highest first, without the leading 1; α is x. -/
def rsGen : Nat → List Nat
  | 0 => []
  | n + 1 =>
    let g := rsGen n
    let r := (rangeFrom 0 n).foldl (fun v _ => gfMul 10 v 2) 1
    ((g ++ [0]).zip (1 :: g)).map fun (a, b) => a ^^^ gfMul 10 b r

/-- The 30 parity symbols of a message. -/
def rsParity (msg : List Nat) : List Nat :=
  let g := rsGen 30
  msg.foldl (fun reg m =>
    let fb := m ^^^ nth 0 reg 0
    ((reg.drop 1 ++ [0]).zip g).map fun (a, c) => a ^^^ gfMul 10 fb c) (List.replicate 30 0)

/-- The symbols of a codeword of 640 B, 20 blocks, after the scrambler's state; and the state after it. -/
def codeword (scr : Nat) (data : List Byte) : List Nat × Nat :=
  let bits := (rangeFrom 0 20).flatMap fun i => transcode ((data.drop (32 * i)).take 32)
  let (bits, scr) := scramble scr bits
  let msg := (rangeFrom 0 514).map fun i => ofBits ((bits.drop (10 * i)).take 10)
  (msg ++ rsParity msg, scr)

/-- A codeword over `n` lanes, symbol by symbol in round robin. -/
def onLanes (n : Nat) (syms : List Nat) : List (List Nat) :=
  (rangeFrom 0 n).map fun l => (rangeFrom 0 (syms.length / n)).map fun i => nth 0 syms (n * i + l)

end Sys2Proof.Machine
end

