-- ==== Sys2Proof/Machine/CoreEng.lean ====
section
/-!
DEFINITION. Engine queues, completion counters and short messages, as the controller reaches them
(R37, R41 to R50).
-/

namespace Sys2Proof.Machine

/-- `iss`: reserved fields, eng = 7, a field that is no quad, and pd with try = 0 are illegal. -/
def execIss (i : Issue) (eng : BitVec 3) (rq : Reg) (try_ : Bool) (pd : PReg) (res : BitVec 10)
    (s : State) : Host.Outcome State Fault Refusal :=
  .next (s.issue i (wordE i eng rq try_ pd res)
    (decide (eng ≠ 7) && quadOk rq && decide (res = 0) && (try_ || decide (pd = 0)))
    fun _ c => c.pushOrStall eng.toNat (.cmd (c.quad rq)) try_ pd)

/-- Ends the stall on a full queue: the entry is pushed once one frees (R41). -/
def Core.stallEnd (c : Core) : Core :=
  match c.rs, c.stall with
  | .stalled, some (.queue n e) =>
    if c.queueFull n then c else ({ c with rs := .running, stall := none }.push n e).next
  | _, _ => c

def execIssStallEnd (c : CoreId) (s : State) : Host.Outcome State Fault Refusal :=
  .next (s.onCore c fun _ c => c.stallEnd)

/-- `qwait`: a full queue stalls it as it stalls `iss` (R42, R59). -/
def execQwait (i : Issue) (eng : BitVec 3) (cnt : BitVec 4) (rs1 : Reg) (res : BitVec 10)
    (s : State) : Host.Outcome State Fault Refusal :=
  .next (s.issue i (wordQ i eng cnt rs1 res) (decide (eng ≠ 7) && decide (res = 0))
    fun _ c => c.pushOrStall eng.toNat (.token cnt (low32 (c.rg rs1))) false 0)

/-- The operand g[r] + u(imm13) of format K. -/
def Core.kOperand (c : Core) (r : Reg) (imm : BitVec 13) : BitVec 32 :=
  low32 (c.rg r + imm.setWidth 64)

def execWait (i : Issue) (r : Reg) (cnt : BitVec 4) (imm : BitVec 13) (s : State) :
    Host.Outcome State Fault Refusal :=
  .next (s.issue i (wordK i 0x23 r cnt imm) true fun _ c =>
    let t := c.kOperand r imm
    if reached (c.cntr cnt) t then c.ordered.next
    else { c with rs := .stalled, stall := some (.wait cnt t) })

/-- Ends a stalled `wait` whose counter reached the target (R62). -/
def Core.waitEnd (c : Core) : Core :=
  match c.rs, c.stall with
  | .stalled, some (.wait cnt t) =>
    if reached (c.cntr cnt) t then { c with rs := .running, stall := none }.ordered.next else c
  | _, _ => c

def execWaitComplete (c : CoreId) (s : State) : Host.Outcome State Fault Refusal :=
  .next (s.onCore c fun _ c => c.waitEnd)

/-- `cnt.rd`: imm13 must be 0. -/
def execCntRd (i : Issue) (r : Reg) (cnt : BitVec 4) (imm : BitVec 13) (s : State) :
    Host.Outcome State Fault Refusal :=
  .next (s.issue i (wordK i 0x24 r cnt imm) (decide (imm = 0)) fun _ c =>
    (c.setG r ((c.cntr cnt).setWidth 64)).next)

def execCntWr (i : Issue) (r : Reg) (cnt : BitVec 4) (imm : BitVec 13) (s : State) :
    Host.Outcome State Fault Refusal :=
  .next (s.issue i (wordK i 0x25 r cnt imm) true fun _ c => (c.setCnt cnt (c.kOperand r imm)).next)

def execCntAdd (i : Issue) (r : Reg) (cnt : BitVec 4) (imm : BitVec 13) (s : State) :
    Host.Outcome State Fault Refusal :=
  .next (s.issue i (wordK i 0x26 r cnt imm) true fun _ c =>
    (c.setCnt cnt (c.cntr cnt + c.kOperand r imm)).next)

/-- `snd.msg`: fn is pd [6:4], try [3], 0 [2:0]; rs2 is ce [4], counter [3:0] (R37, R47, R570). The
endpoint and the payload are captured now. -/
def execSndMsg (i : Issue) (rd rs1 rs2 : Reg) (fn : BitVec 7) (s : State) :
    Host.Outcome State Fault Refusal :=
  let try_ := fn.getLsbD 3
  let pd : PReg := fn.extractLsb' 4 3
  let ce := rs2.getLsbD 4
  let cnt : BitVec 4 := rs2.setWidth 4
  .next (s.issue i (wordR i 0x27 rd rs1 rs2 fn.toNat)
    (quadOk rd && decide (fn.toNat % 8 = 0) && (try_ || decide (pd = 0)) && (ce || decide (cnt = 0)))
    fun _ c => c.pushOrStall 6 (.msg (c.rg rs1) ce cnt (c.quad rd)) try_ pd)

/-- Takes the oldest mailbox entry: the payload into the quad, the sender word into rs1 (R50). The spec does not say
which write wins where rs1 lies in the quad: the sender word is written last (DESIGN CHOICE, log entry 78). -/
def Core.receive (c : Core) (rd rs1 : Reg) : Core :=
  match c.mail with
  | [] => c
  | m :: t => ({ c with mail := t }.setQuad rd m.payload).setG rs1 m.sender

/-- `rcv.msg`: rs2 must be 0; fn as for `snd.msg`. -/
def execRcvMsg (i : Issue) (rd rs1 rs2 : Reg) (fn : BitVec 7) (s : State) :
    Host.Outcome State Fault Refusal :=
  let try_ := fn.getLsbD 3
  let pd : PReg := fn.extractLsb' 4 3
  .next (s.issue i (wordR i 0x28 rd rs1 rs2 fn.toNat)
    (quadOk rd && decide (rs2 = 0) && decide (fn.toNat % 8 = 0) && (try_ || decide (pd = 0)))
    fun _ c =>
      if c.mail.isEmpty then
        if try_ then (c.setP pd false).next else { c with rs := .stalled, stall := some (.rcv rd rs1) }
      else
        let c := c.receive rd rs1
        (if try_ then c.setP pd true else c).next)

/-- Ends a stalled `rcv.msg` once a message is in the mailbox (R50). -/
def Core.rcvEnd (c : Core) : Core :=
  match c.rs, c.stall with
  | .stalled, some (.rcv rd rs1) =>
    if c.mail.isEmpty then c else ({ c with rs := .running, stall := none }.receive rd rs1).next
  | _, _ => c

def execRcvMsgStallEnd (c : CoreId) (s : State) : Host.Outcome State Fault Refusal :=
  .next (s.onCore c fun _ c => c.rcvEnd)

end Sys2Proof.Machine
end

