-- ==== Sys2Proof/Machine/Packet.lean ====
section
/-!
DEFINITION. Packets: their types, replies, destination and valid fields (R175 to R177, R201, R267).
-/

namespace Sys2Proof

/-- Type of MEM_RD (R175, R267, R320). -/
def PT.memRd : Nat := 0x01
/-- Type of MEM_WR (R175, R267, R320). -/
def PT.memWr : Nat := 0x02
/-- Type of MEM_ATOM (R175, R267, R320). -/
def PT.memAtom : Nat := 0x03
/-- Type of MEM_RD_DATA (R175, R267, R320). -/
def PT.memRdData : Nat := 0x04
/-- Type of MEM_ACK (R175, R267, R320). -/
def PT.memAck : Nat := 0x05
/-- Type of CPUT (R175, R267, R320). -/
def PT.cput : Nat := 0x06
/-- Type of CPUT_ACK (R175, R267, R320). -/
def PT.cputAck : Nat := 0x07
/-- Type of MSG (R175, R267, R320). -/
def PT.msg : Nat := 0x08
/-- Type of MSG_ACCEPT (R175, R267, R320). -/
def PT.msgAccept : Nat := 0x09
/-- Type of MSG_REFUSE (R175, R267, R320). -/
def PT.msgRefuse : Nat := 0x0A
/-- Type of STATUS (R175, R267, R320). -/
def PT.status : Nat := 0x0B
/-- Type of RED (R175, R267, R320). -/
def PT.red : Nat := 0x0C
/-- Type of MCAST (R175, R267, R320). -/
def PT.mcast : Nat := 0x0D
/-- Type of TAIL_ACK (R175, R267, R320). -/
def PT.tailAck : Nat := 0x0E
/-- Type of CSR_RD (R175, R267, R320). -/
def PT.csrRd : Nat := 0x0F
/-- Type of CSR_WR (R175, R267, R320). -/
def PT.csrWr : Nat := 0x10
/-- Type of PS_WR (R175, R267, R320). -/
def PT.psWr : Nat := 0x11
/-- Type of MGT_RSP (R175, R267, R320). -/
def PT.mgtRsp : Nat := 0x12
/-- Type of CTX_READY (R175, R267, R320). -/
def PT.ctxReady : Nat := 0x13
/-- Type of CTX_ABORT (R175, R267, R320). -/
def PT.ctxAbort : Nat := 0x14
/-- Type of FENCE (R175, R267, R320). -/
def PT.fence : Nat := 0x15
/-- Type of UNFENCE (R175, R267, R320). -/
def PT.unfence : Nat := 0x16
/-- Type of CMAP (R175, R267, R320). -/
def PT.cmap : Nat := 0x17
/-- Type of XACK (R175, R267, R320). -/
def PT.xack : Nat := 0x18
/-- Type of TIME (R175, R267, R320). -/
def PT.time : Nat := 0x19

/-- A packet with nothing in it. -/
def Pkt.empty : Pkt :=
  { type := 0, srcDev := 0, srcDie := 0, srcRow := 0, srcCol := 0, dstDev := 0, dstDie := 0, dstRow := 0,
    dstCol := 0, tag := 0, job := 0, epoch := false, mc := 0, mcLast := 0, red := 0, ctx := 0, aux := 0,
    chunk := 0, addr := 0, host := false, hc := false, inc := none, packed := none, rank := 0, lcol := 0, dcol := 0, data := [], poison := [],
    t0 := 0, xack := none, relay := false, ordered := false, hdr := .ok, fixed := 0, void := false, skip := false, err := false }

/-- The reply to a packet: addressed back, with its tag, job and t0 (R176, R314). -/
def Pkt.reply (p : Pkt) (type aux : Nat) (data : List Byte) (poison : List Nat) : Pkt :=
  { p with
    type := type, srcDev := p.dstDev, srcDie := p.dstDie, srcRow := p.dstRow, srcCol := p.dstCol,
    dstDev := p.srcDev, dstDie := p.srcDie, dstRow := p.srcRow, dstCol := p.srcCol, aux := aux, data := data,
    poison := poison, inc := none, packed := none, xack := none, hdr := .ok, fixed := 0, err := false,
    ordered := decide (type = 0x09) || decide (type = 0x0A) }

/-- The failure reply to a packet (R175, R177). -/
def Pkt.fail (p : Pkt) (code : Nat) : Pkt := p.reply PT.status code [] []

/-- A reply of MGT_RSP that reports DIE_DOWN (R190). -/
def Pkt.mgtFail (p : Pkt) : Pkt := { p.reply PT.mgtRsp 0 [] [] with err := true }

/-- Is a packet addressed to a position of this device's dies? -/
def Pkt.toCore (p : Pkt) : Option Nat :=
  if p.dstDie < 8 ∧ p.dstRow < 16 ∧ p.dstCol < 18 then some (288 * p.dstDie + 18 * p.dstRow + p.dstCol) else none

/-- Data flits of a packet (R175 to R177): those of a write into memory or scratch begin at its address. -/
def Pkt.len (p : Pkt) : Nat :=
  if p.data.isEmpty then 0
  else ((if p.type = PT.memWr ∨ p.type = PT.cput then p.addr % 64 else 0) + p.data.length + 63) / 64

/-- Has a mesh packet a valid type and valid fields (R175, R176)? -/
def Pkt.meshValid (p : Pkt) : Bool :=
  decide (1 ≤ p.type) && decide (p.type ≤ 0x12) && decide (p.mc ≠ 3) && decide (p.red < 5) && decide (p.len ≤ 4)

/-- The packet header of the mesh, 120 bits (R176). Of a packet to another core, the address field holds the scratch
address below the remote endpoint's device, die, row and column; the spec does not lay it out (DESIGN CHOICE, log
entry 83). -/
def Pkt.header (p : Pkt) : Nat :=
  let f := fun v lo len => v % 2 ^ len * 2 ^ lo
  let addr := if p.type = PT.cput then
      f p.addr 0 21 + f p.dstCol 21 5 + f p.dstRow 26 4 + f p.dstDie 30 3 + f p.dstDev 33 9
    else p.addr
  f p.type 115 5 + f p.dstRow 111 4 + f p.dstCol 106 5 + f p.srcRow 102 4 + f p.srcCol 97 5 + f p.len 94 3 + f p.tag 86 8
    + f p.job 80 6 + f p.epoch.toNat 79 1 + f p.mc 77 2 + f p.mcLast 72 5 + f p.red 69 3 + f p.ctx 63 6 + f p.aux 55 8
    + f p.chunk 48 7 + f addr 0 48

/-- The network of a packet on the mesh: 0 REQ, 1 RSP, 2 COL, 3 MGT (R175). -/
def Pkt.meshVn (p : Pkt) : Nat :=
  if p.type ≤ 0x03 ∨ p.type = PT.cput ∨ p.type = PT.msg then 0
  else if p.type ≤ 0x0B then 1
  else if p.type ≤ 0x0E then 2
  else 3

end Sys2Proof
end

