-- ==== Sys2Proof/Machine/MeshNet.lean ====
section
/-!
DEFINITION. The routers of a die's mesh (R163, R167 to R174, R178, R179, R185 to R187): the edge attachments, flits,
input buffers and credits, the grant of an output, a mesh cycle, and what has arrived where.
-/

namespace Sys2Proof.Machine

/-! Positions and attachments. -/

/-- The router beyond an output port (R163). -/
def nextRouter (k out : Nat) : Nat := if out = 0 then k - 18 else if out = 1 then k + 18 else if out = 2 then k - 1 else k + 1

/-- The port that faces another. -/
def oppPort (o : Nat) : Nat := nth 0 [1, 0, 3, 2] o

/-- The input of a reduction entry at which a sum arrives that left by an output (R181). -/
def redInput (out : Nat) : Nat := nth 0 [3, 4, 1, 2] out

/-- The port of its router that a lane group attaches to, and the router (R167). -/
def groupPort (g : Nat) : Nat := if g < 18 then 0 else if g < 36 then 1 else if g < 38 then 2 else 3
def groupKey (d g : Nat) : Nat := posKey d (groupPos g).1 (groupPos g).2

/-- The attachment of the die controller: router (0, 0), port W (R167). -/
def dieCtlPort : Nat := 2
def dieCtlKey (d : Nat) : Nat := posKey d 0 0

/-- The egress group of a position (R168). -/
def State.egressGroup (s : State) (d r c : Nat) : Nat := s.rfld (R.dieMeshEgressMap d ((18 * r + c) / 8)) (8 * ((18 * r + c) % 8)) 6

/-- The groups of a die that are in service in a role: 0 egress, 1 ingress, 2 management, 3 spare (R212). -/
def State.groupsIn (s : State) (d role : Nat) : List Nat :=
  (rangeFrom 0 40).filter fun g =>
    let w := s.reg (R.vliGroupStatus (40 * d + g))
    !bit w 4 && decide (fld w 0 2 = role)

/-- The ingress group by which a packet enters a die for a position (R213). -/
def State.ingressGroup (s : State) (d r c : Nat) : Option Nat := chooseGroup (s.groupsIn d 1) r c

/-- The attachment at which a packet enters a die: router and port (R168, R213). -/
def State.ingressAt (s : State) (d : Nat) (p : Pkt) : Nat × Nat :=
  match s.ingressGroup d p.dstRow p.dstCol with
  | some g => (groupKey d g, groupPort g)
  | none => (dieCtlKey d, 0)

/-! Packets and flits. -/

/-- The source of a packet that no core sends: a compute stop's. -/
def stopSrc : Nat := 10

/-- Does a packet on a die's mesh go to a core of that die, rather than leave it (R166, R168)? -/
def State.staysOn (s : State) (d : Nat) (p : Pkt) : Bool :=
  decide (p.dstDev = s.devIndex) && decide (p.dstDie = d) && decide (3 < p.type) && p.toCore.isSome

/-- Buffer class of a network and channel. -/
def bufOf (vn vc : Nat) : Nat := if vn = 2 then 2 + vc else if vn = 3 then 4 else vn

/-- Flits that an input buffers of a class (R172). -/
def meshBuf (b : Nat) : Nat := nth 0 [8, 8, 4, 8, 2] b

/-- Where a packet put on a mesh goes (R168, R178, R182, R183, R185). -/
def State.meshPkt (s : State) (k port : Nat) (p : Pkt) : MeshPkt :=
  let d := k / 288
  let at_ := fun (src dst exit inp buf : Nat) =>
    ({ id := s.mesh.nextId, src := src, dst := dst, exit := exit, inp := inp, buf := buf, pkt := p, here := false } : MeshPkt)
  let (_, r, c) := keyPos k
  let g := s.egressGroup d r c
  let own := p.toCore.getD k
  if port = 13 then at_ (8 * k + 5) k (groupPort g) 0 2
  else if 8 ≤ port then
    let n := nextRouter k (port - 8)
    if p.type = PT.red then at_ (8 * k + 5) n 5 (redInput (port - 8)) 2 else at_ (8 * k + 5) n 6 0 3
  else if p.type = PT.red then at_ (8 * k + port) k 5 0 2
  else if p.type = PT.mcast ∧ p.mc ≠ 0 then at_ (8 * k + port) own 6 0 2
  else if p.type = PT.mgtRsp then at_ (8 * k + port) (dieCtlKey d) dieCtlPort 0 4
  else
    let b := bufOf p.meshVn 0
    if s.staysOn d p then at_ (8 * k + port) own 4 0 b else at_ (8 * k + port) (groupKey d g) (groupPort g) 0 b

/-- The flits of a packet (R169, R175 to R177). -/
def meshFlits (id buf : Nat) (p : Pkt) : List MeshFlit :=
  let n := max 1 p.len
  let off := if p.type = PT.memWr ∨ p.type = PT.cput then p.addr % 64 else 0
  let bytes := List.replicate off 0#8 ++ p.data
  (rangeFrom 0 n).map fun i =>
    let d := (bytes.drop (64 * i)).take 64
    { id := id, head := decide (i = 0), tail := decide (i + 1 = n), vn := p.meshVn, vc := decide (buf = 3) |>.toNat
      header := if i = 0 then p.header else 0, data := d ++ List.replicate (64 - d.length) 0#8 }

/-- The 136 control bits of a flit (R169): par is even parity over [135:129], hchk is SECDED over the header. -/
def MeshFlit.control (f : MeshFlit) : BitVec 136 :=
  let top := f.head.toNat * 2 ^ 6 + f.tail.toNat * 2 ^ 5 + f.vn % 4 * 2 ^ 3 + f.vc % 2 * 2 ^ 2
  let par := ((rangeFrom 0 7).filter top.testBit).length % 2
  BitVec.ofNat 136 (top * 2 ^ 129 + par * 2 ^ 128 + f.header % 2 ^ 120 * 2 ^ 8
    + if f.head then Config.secded 120 f.header % 2 ^ 8 else 0)

/-- The 64 check bits of a flit: SECDED over each 64-bit data word (R169). -/
def MeshFlit.check (f : MeshFlit) : BitVec 64 :=
  BitVec.ofNat 64 ((rangeFrom 0 8).foldl (fun v i =>
    v + Config.secded 64 (bytesToNat ((f.data.drop (8 * i)).take 8)) % 2 ^ 8 * 2 ^ (8 * i)) 0)

/-- A flit as the wires carry it: data, check bits and control bits (R169). -/
def MeshFlit.bits (f : MeshFlit) : BitVec 712 :=
  BitVec.ofNat 712 (f.control.toNat * 2 ^ 576 + f.check.toNat * 2 ^ 512 + bytesToNat f.data)

/-- The CRC-16 of a lane-group frame, with polynomial 0x8BB7, over the bits of a number, the highest first (R211). -/
def crc16 (v : Nat) : Nat → Nat → Nat
  | 0, c => c
  | n + 1, c =>
    let top := (c.testBit 15) != (v.testBit n)
    crc16 v n (Nat.xor (c * 2 % 2 ^ 16) (if top then 0x8BB7 else 0))

/-- A frame of a lane group: the flit, its CRC, and a sideband of 40 bits with credit returns and time markers of the
opposite direction (R211). -/
def MeshFlit.frame (f : MeshFlit) (sideband : BitVec 40) : BitVec 768 :=
  BitVec.ofNat 768 (sideband.toNat * 2 ^ 728 + crc16 f.bits.toNat 712 0 * 2 ^ 712 + f.bits.toNat)

/-- Puts what the device has sent onto the meshes: each packet's flits wait at its input. A die that is down takes
none. -/
def State.meshPut (s : State) (k port : Nat) (p : Pkt) : State :=
  if !s.dieUp (k / 288) then s
  else
    let e := s.meshPkt k port p
    let w := SMap.get (fun _ => []) s.mesh.wait e.src ++ meshFlits e.id e.buf p
    { s with mesh := { s.mesh with
        nextId := e.id + 1, flying := s.mesh.flying ++ [e], wait := SMap.set (fun _ => []) s.mesh.wait e.src w } }

def State.meshSync (s : State) : State :=
  let s' := (s.out.drop s.mesh.seen).foldl (fun s o => match o with
    | .mesh k port p => s.meshPut k port p | _ => s) s
  { s' with mesh := { s'.mesh with seen := s.out.length } }

/-- A compute stop sends a packet into its die (R168, R213). -/
def State.enterDie (s : State) (d : Nat) (p : Pkt) : State :=
  let (k, port) := s.ingressAt d p
  s.emit (.mesh k port p)

/-! One mesh cycle (R172 to R174). -/

/-- A packet on the meshes. -/
def MeshState.pktOf (m : MeshState) (id : Nat) : Option MeshPkt := m.flying.find? fun e => decide (e.id = id)

/-- A buffer of an input. -/
def MeshState.buf (m : MeshState) (k i b : Nat) : List MeshFlit := SMap.get (fun _ => []) m.bufs (8 * (8 * k + i) + b)
def MeshState.setBuf (m : MeshState) (k i b : Nat) (l : List MeshFlit) : MeshState :=
  { m with bufs := SMap.set (fun _ => []) m.bufs (8 * (8 * k + i) + b) l }

/-- The next output of a packet in dimension order: along its row, then along the column (R178). -/
def meshDir (k dst : Nat) : Nat :=
  let (_, r, c) := keyPos k
  let (_, r', c') := keyPos dst
  if c < c' then 3 else if c' < c then 2 else if r < r' then 1 else 0

/-- The output of a router that a packet wants: a port, or what takes it at its destination. -/
def MeshPkt.out (e : MeshPkt) (k : Nat) : Nat := if k = e.dst then e.exit else meshDir k e.dst

/-- CPUT and MSG packets that a router holds delivered and not yet acknowledged (R191). -/
def MeshState.unacked (m : MeshState) (k : Nat) : List MeshPkt :=
  m.flying.filter fun e => e.here && decide (e.dst = k) && decide (e.exit = 4) && (decide (e.pkt.type = PT.cput) || decide (e.pkt.type = PT.msg))

/-- Is a lane group retired, or drained because it failed (R216)? -/
def State.groupStopped (s : State) (k port : Nat) : Bool :=
  (rangeFrom 0 40).any fun g => decide (groupKey (k / 288) g = k) && decide (groupPort g = port) &&
    (bit (s.reg (R.vliGroupStatus (40 * (k / 288) + g))) 4 || s.base.vliFailed.contains (40 * (k / 288) + g))

/-- Does what lies beyond an output take a flit of a class (R172, R186, R191)? A flit that has reached its VC1 buffer
stays there until its target takes the packet. -/
def State.meshCredit (s : State) (k i out b : Nat) (e : MeshPkt) : Bool :=
  let m := s.mesh
  if k ≠ e.dst then decide ((m.buf (nextRouter k out) (oppPort out) b).length < meshBuf b)
  else if out < 4 then decide (e.pkt.type = PT.mgtRsp) || !s.groupStopped k out
  else if out = 4 then
    !(decide (e.pkt.type = PT.cput) || decide (e.pkt.type = PT.msg)) || decide ((m.unacked k).length < 16)
  else if out = 5 then true
  else decide (b = 2) && decide ((m.buf k i 3).length < meshBuf 3)

/-- The flit of a class that an output could pass on: of the packet that holds it, else the head of a packet, from the
lowest input (DESIGN CHOICE, log entry 83). -/
def State.meshReady (s : State) (k out b : Nat) : Option (Nat × MeshFlit) :=
  let m := s.mesh
  let held := SMap.get (fun _ => none) m.lock (8 * (8 * k + out) + b)
  (rangeFrom 0 6).findSome? fun i =>
    match m.buf k i b with
    | [] => none
    | f :: _ =>
      match m.pktOf f.id with
      | none => none
      | some e =>
        if e.out k = out && (match held with | some id => decide (f.id = id) | none => f.head) && s.meshCredit k i out b e
        then some (i, f) else none

/-- The network of a buffer class. -/
def vnOf (b : Nat) : Nat := nth 0 [0, 1, 2, 2, 3] b

/-- Mesh cycles that a network has waited at an output. -/
def MeshState.aged (m : MeshState) (k out vn : Nat) : Nat := SMap.get (fun _ => 0) m.age (8 * (8 * k + out) + vn)

/-- The order of grants: RSP, MGT, COL, REQ (R173); of the two COL channels VC1 first (DESIGN CHOICE, log entry 83). -/
def grantOrder : List Nat := [1, 4, 3, 2, 0]

/-- What an output grants in a cycle: a network that has waited 64 cycles first, else in order (R173). -/
def State.meshGrant (s : State) (k out : Nat) : Option (Nat × Nat × MeshFlit) :=
  let ready := grantOrder.filterMap fun b => (s.meshReady k out b).map fun (i, f) => (b, i, f)
  match ready.find? fun (b, _, _) => decide (64 ≤ s.mesh.aged k out (vnOf b)) with
  | some x => some x
  | none => ready.head?

/-- Moves one flit through an output: into the next input, into VC1 at a multicast's entry (R174, R185), or to what
takes it; a packet whose tail gets there is there. -/
def State.meshMove (s : State) (k out b i : Nat) (f : MeshFlit) : State :=
  let m := s.mesh
  let m := m.setBuf k i b (m.buf k i b).tail
  let m := { m with lock := SMap.set (fun _ => none) m.lock (8 * (8 * k + out) + b) (if f.tail then none else some f.id) }
  match m.pktOf f.id with
  | none => { s with mesh := m }
  | some e =>
    let m :=
      if k ≠ e.dst then m.setBuf (nextRouter k out) (oppPort out) b (m.buf (nextRouter k out) (oppPort out) b ++ [f])
      else if out = 6 then m.setBuf k i 3 (m.buf k i 3 ++ [{ f with vc := 1 }])
      else m
    let arrived := f.tail && (decide (k = e.dst) || (decide (e.buf = 3) && decide (nextRouter k out = e.dst)))
    { s with mesh := if arrived then { m with flying := m.flying.map fun x => if x.id = f.id then { x with here := true } else x } else m }

/-- The ages after a cycle: a network that had a flit ready and got no grant has waited one cycle more. -/
def State.meshAges (s : State) (ks : List Nat) : SMap Nat :=
  ks.foldl (fun m k => (rangeFrom 0 7).foldl (fun m out =>
    let won := (s.meshGrant k out).map fun x => vnOf x.1
    (rangeFrom 0 4).foldl (fun m vn =>
      let ready := grantOrder.any fun b => decide (vnOf b = vn) && (s.meshReady k out b).isSome
      SMap.set (fun _ => 0) m (8 * (8 * k + out) + vn) (if ready && decide (won ≠ some vn) then s.mesh.aged k out vn + 1 else 0)) m) m)
    s.mesh.age

/-- Each input takes one flit that waits for it, if its buffer has room. -/
def MeshState.inject (m : MeshState) : MeshState :=
  m.wait.foldl (fun m (x : Nat × List MeshFlit) =>
    match x.2 with
    | [] => m
    | f :: t =>
      match m.pktOf f.id with
      | none => { m with wait := SMap.set (fun _ => []) m.wait x.1 t }
      | some e =>
        if (m.buf (x.1 / 8) (x.1 % 8) e.buf).length < meshBuf e.buf then
          { m.setBuf (x.1 / 8) (x.1 % 8) e.buf (m.buf (x.1 / 8) (x.1 % 8) e.buf ++ [f]) with
            wait := SMap.set (fun _ => []) m.wait x.1 t }
        else m) m

/-- One cycle of every router: the grants of all outputs are made on what stood in the buffers before. -/
def State.meshCycle (s : State) : State :=
  let s : State := { s with mesh := s.mesh.inject }
  let ks := (s.mesh.bufs.map fun x => x.1 / 64).eraseDups
  let moves := ks.flatMap fun k => (rangeFrom 0 7).filterMap fun out => (s.meshGrant k out).map fun x => (k, out, x)
  let ages := s.meshAges ks
  let s := moves.foldl (fun s (k, out, b, i, f) => s.meshMove k out b i f) s
  { s with mesh := { s.mesh with age := ages } }

/-- Mesh cycles in one cycle of the reference clock (R26). -/
def meshCycles : Nat := 16

/-- `n` mesh cycles, as long as anything moves. -/
def State.meshRun (s : State) : Nat → State
  | 0 => s
  | n + 1 => if s.mesh.wait.isEmpty && s.mesh.bufs.isEmpty then s else s.meshCycle.meshRun n

/-! What has arrived. -/

/-- Is a packet the one that was put on the mesh? What the receiver checked of it may differ. -/
def MeshPkt.carries (e : MeshPkt) (p : Pkt) : Bool :=
  decide ({ p with hdr := .ok, poison := [], fixed := 0, dstDie := 0, dstRow := 0, dstCol := 0 } =
    { e.pkt with hdr := .ok, poison := [], fixed := 0, dstDie := 0, dstRow := 0, dstCol := 0 })

/-- Takes a packet off the mesh: its flits leave the buffer that they hold. -/
def MeshState.remove (m : MeshState) (id : Nat) : MeshState :=
  { m with
    flying := m.flying.filter fun e => decide (e.id ≠ id)
    bufs := (m.bufs.map fun (k, l) => (k, l.filter fun f => decide (f.id ≠ id))).filter fun (_, l) => !l.isEmpty }

/-- A packet is taken where `there` says (R179): one that the device put on a mesh only once it has arrived, and after
those that were sent before it from the same source to the same destination in the same network and channel, or that
stand before it in its buffer (R187). A packet that is on no mesh comes from outside the model's sight (log entry 6). None: it is not there yet. -/
def State.meshTake (s : State) (p : Pkt) (there : MeshPkt → Bool) : Option State :=
  let s := s.meshSync
  match s.mesh.flying.find? fun e => there e && e.carries p with
  | none => some s
  | some e =>
    let ahead := s.mesh.flying.any fun x => decide (x.id < e.id) && decide (x.src = e.src) && decide (x.dst = e.dst) &&
      decide (x.exit = e.exit) && decide (x.buf = e.buf)
    let front := s.mesh.bufs.all fun (_, l) => !(l.any fun f => decide (f.id = e.id)) || (l.head?.any fun f => decide (f.id = e.id))
    if e.here && !ahead && front then some { s with mesh := s.mesh.remove e.id } else none

/-- At a core; at a router's combining slots by an input; in VC1 of a router; at an edge attachment of a die. -/
def atCore (k : Nat) (e : MeshPkt) : Bool := decide (e.dst = k) && decide (e.exit = 4)
def atInput (k inp : Nat) (e : MeshPkt) : Bool := decide (e.dst = k) && decide (e.exit = 5) && decide (e.inp = inp)
def atVc1 (k : Nat) (e : MeshPkt) : Bool := decide (e.dst = k) && decide (e.exit = 6)
def atEdge (d : Nat) (e : MeshPkt) : Bool := decide (e.dst / 288 = d) && decide (e.exit < 4)

/-- Nothing of a die is left on its mesh (R192, R256). -/
def MeshState.dropDie (m : MeshState) (d : Nat) : MeshState :=
  { m with
    flying := m.flying.filter fun e => decide (e.dst / 288 ≠ d)
    wait := m.wait.filter fun x => decide (x.1 / 8 / 288 ≠ d)
    bufs := m.bufs.filter fun x => decide (x.1 / 64 / 288 ≠ d)
    lock := m.lock.filter fun x => decide (x.1 / 64 / 288 ≠ d)
    age := m.age.filter fun x => decide (x.1 / 64 / 288 ≠ d) }

end Sys2Proof.Machine
end

