-- ==== Sys2Proof/Machine/Notify.lean ====
section
/-!
DEFINITION. The streams' table, and the short messages that tell a core of a record (R378, R382).
-/

namespace Sys2Proof.Machine

/-- A stream. -/
def State.stream (s : State) (n : Nat) : Stream := SMap.get (fun _ => Stream.reset) s.bol.streams n

/-- Writes a stream; its status shows the credit outstanding and the records completed (R385). -/
def State.setStream (s : State) (n : Nat) (x : Stream) : State :=
  let s := { s with bol := { s.bol with streams := SMap.set (fun _ => Stream.reset) s.bol.streams n x } }
  (s.setRfld (R.bolStreamStatus n) 29 29 x.credit).setRfld (R.bolStreamStatus n) 0 29 (min (2 ^ 29 - 1) x.done)

/-- What stands for the Bolmin stop as the sender of a message: stop 25. -/
def noteSrc : Nat := 25

/-- Sends the notification of a stream, with the latest values (R378). -/
def State.sendNote (s : State) (n : Nat) : State :=
  let x := s.stream n
  let cfg := s.reg (R.bolStreamCfg n)
  let d := fld cfg 16 3
  let r := fld cfg 12 4
  (s.setStream n { x with noteOut := true, noteDue := false }).emit (.pkt { Pkt.empty with
    type := PT.msg, srcDev := s.devIndex, srcDie := noteSrc, dstDev := s.devIndex, dstDie := d, dstRow := r,
    dstCol := s.physCol d r (fld cfg 8 4), tag := n, epoch := s.epoch,
    data := natToBytes 8 n ++ natToBytes 8 x.tail ++ natToBytes 8 x.done ++ natToBytes 8 0 })

/-- A notification ended: the next one goes if a record completed meanwhile. -/
def State.noteEnd (s : State) (n : Nat) : State :=
  let x := s.stream n
  let s := s.setStream n { x with noteOut := false }
  if x.noteDue then s.sendNote n else s

end Sys2Proof.Machine
end

