-- ==== Sys2Proof/Machine/Num.lean ====
section
/-!
DEFINITION. Number formats and arithmetic (04_number_formats.md): the value a code stands for, the
one rounding into each format, exact sums and products, and the microscaling scale.
-/

namespace Sys2Proof.Machine

/-- A number as the datapaths see it: NaN, an infinity, or the exact value
(-1)^neg * mag * 2^exp. A zero keeps its sign (R127, R129). -/
inductive Num where
  | nan
  | inf (neg : Bool)
  | fin (neg : Bool) (mag : Nat) (exp : Int)
  deriving DecidableEq, Repr

/-- The fourteen format codes of R85. -/
inductive Fmt where
  | fp32 | bf16 | fp16 | e4m3 | e5m2 | mxE4m3 | mxE5m2 | mxE3m2 | mxE2m3 | mxE2m1 | mxInt8
  | int8 | l8 | int32
  deriving DecidableEq, Repr

/-- The format a 4-bit format field names; codes 0xE and 0xF are reserved (R85). -/
def Fmt.ofCode : Nat → Option Fmt
  | 0 => some .fp32 | 1 => some .bf16 | 2 => some .fp16 | 3 => some .e4m3 | 4 => some .e5m2
  | 5 => some .mxE4m3 | 6 => some .mxE5m2 | 7 => some .mxE3m2 | 8 => some .mxE2m3
  | 9 => some .mxE2m1 | 10 => some .mxInt8 | 11 => some .int8 | 12 => some .l8 | 13 => some .int32
  | _ => none

/-- Bits per element (R85). -/
def Fmt.bits : Fmt → Nat
  | .fp32 => 32 | .bf16 => 16 | .fp16 => 16 | .e4m3 => 8 | .e5m2 => 8 | .mxE4m3 => 8
  | .mxE5m2 => 8 | .mxE3m2 => 6 | .mxE2m3 => 6 | .mxE2m1 => 4 | .mxInt8 => 8 | .int8 => 8
  | .l8 => 8 | .int32 => 32

/-- Is the format a microscaling format (codes 0x5 to 0xA, R132)? -/
def Fmt.mx : Fmt → Bool
  | .mxE4m3 | .mxE5m2 | .mxE3m2 | .mxE2m3 | .mxE2m1 | .mxInt8 => true
  | _ => false

/-- Exponent bits, mantissa bits and bias of a floating-point format (R127). -/
def Fmt.layout : Fmt → Nat × Nat × Int
  | .fp32 => (8, 23, 127) | .bf16 => (8, 7, 127) | .fp16 => (5, 10, 15)
  | .e4m3 => (4, 3, 7) | .mxE4m3 => (4, 3, 7) | .e5m2 => (5, 2, 15) | .mxE5m2 => (5, 2, 15)
  | .mxE3m2 => (3, 2, 3) | .mxE2m3 => (2, 3, 1) | .mxE2m1 => (2, 1, 1)
  | _ => (0, 0, 0)

/-- The code of the largest finite magnitude (R127). -/
def Fmt.maxCode : Fmt → Nat
  | .fp32 => 0x7F7FFFFF | .bf16 => 0x7F7F | .fp16 => 0x7BFF | .e4m3 => 0x7E | .mxE4m3 => 0x7E
  | .e5m2 => 0x7B | .mxE5m2 => 0x7B | .mxE3m2 => 0x1F | .mxE2m3 => 0x1F | .mxE2m1 => 0x7
  | _ => 0

/-- The canonical NaN of a format that has one (R131). -/
def Fmt.nanCode : Fmt → Nat
  | .fp32 => 0x7FC00000 | .bf16 => 0x7FC0 | .fp16 => 0x7E00 | .e4m3 => 0x7F | .mxE4m3 => 0x7F
  | .e5m2 => 0x7F | .mxE5m2 => 0x7F | .l8 => 0xC0 | _ => 0

/-- Does the format have infinities (R127)? -/
def Fmt.hasInf : Fmt → Bool
  | .fp32 | .bf16 | .fp16 | .e5m2 | .mxE5m2 => true
  | _ => false

/-- The table T of R136, in units of 2^-12. -/
def l8Table : List Nat :=
  [4096, 4277, 4467, 4664, 4871, 5087, 5312, 5547, 5793, 6049, 6317, 6597, 6889, 7194, 7512, 7845]

/-- The linear value of a log code or a sum of two (R136, R137): 2^floor(S/16) * T[S mod 16]. -/
def l8Linear (neg : Bool) (s : Int) : Num :=
  .fin neg (nth 0 l8Table (s % 16).toNat) (s / 16 - 12)

/-- The value a floating-point code stands for (R127). -/
def decodeFloat (f : Fmt) (c : Nat) : Num :=
  let (eb, mb, bias) := f.layout
  let neg := c.testBit (eb + mb)
  let e := c / 2 ^ mb % 2 ^ eb
  let m := c % 2 ^ mb
  if f.hasInf && e == 2 ^ eb - 1 then (if m = 0 then .inf neg else .nan)
  else if (f == .e4m3 || f == .mxE4m3) && e == 15 && m == 7 then .nan
  else if e = 0 then .fin neg m (1 - bias - mb)
  else .fin neg (2 ^ mb + m) ((e : Int) - bias - mb)

/-- An integer as an exact number; zero is positive. -/
def Num.ofInt (v : Int) : Num := .fin (decide (v < 0)) v.natAbs 0

/-- The value of an element code, without a microscaling scale (R127, R128, R132, R135). -/
def decodeElem (f : Fmt) (c : Nat) : Num :=
  match f with
  | .int8 => .ofInt (signed c 8)
  | .int32 => .ofInt (signed c 32)
  | .mxInt8 => match Num.ofInt (signed c 8) with
    | .fin n m _ => .fin n m (-6)
    | x => x
  | .l8 =>
    if c % 256 = 0x40 then .fin false 0 0
    else if c % 256 = 0xC0 then .nan
    else l8Linear (c.testBit 7) (signed c 7)
  | f => decodeFloat f c

/-- The number of bits of a magnitude; 0 for 0. -/
def bitLen (m : Nat) : Nat := if m = 0 then 0 else Nat.log2 m + 1

/-- Is the number zero? -/
def Num.isZero : Num → Bool
  | .fin _ 0 _ => true
  | _ => false

/-- The sign of the number; NaN counts as positive (R131). -/
def Num.isNeg : Num → Bool
  | .nan => false
  | .inf n => n
  | .fin n _ _ => n

/-- The number with its sign cleared; a NaN stays NaN (R150). -/
def Num.abs : Num → Num
  | .nan => .nan
  | .inf _ => .inf false
  | .fin _ m e => .fin false m e

/-- The number with its sign inverted. -/
def Num.neg : Num → Num
  | .nan => .nan
  | .inf n => .inf (!n)
  | .fin n m e => .fin (!n) m e

/-- The signed magnitude on the grid 2^e, for e no larger than the number's own exponent. -/
def gridInt (neg : Bool) (m : Nat) (e' e : Int) : Int :=
  let v : Int := (m * 2 ^ (e' - e).toNat : Nat)
  if neg then -v else v

/-- The exact sum. `down` is round toward minus infinity, under which an exact zero of unlike
signs is -0 (IEEE 754, R149, R151). -/
def Num.add (a b : Num) (down : Bool := false) : Num :=
  match a, b with
  | .nan, _ => .nan
  | _, .nan => .nan
  | .inf n, .inf n' => if n = n' then .inf n else .nan
  | .inf n, _ => .inf n
  | _, .inf n => .inf n
  | .fin n m e, .fin n' m' e' =>
    let g := min e e'
    let v := gridInt n m e g + gridInt n' m' e' g
    if v = 0 then
      .fin (if m = 0 ∧ m' = 0 then (if n = n' then n else down) else down) 0 0
    else .fin (decide (v < 0)) v.natAbs g

/-- The exact product (R151). -/
def Num.mul (a b : Num) : Num :=
  match a, b with
  | .nan, _ => .nan
  | _, .nan => .nan
  | .inf n, .inf n' => .inf (n != n')
  | .inf n, .fin n' m _ => if m = 0 then .nan else .inf (n != n')
  | .fin n m _, .inf n' => if m = 0 then .nan else .inf (n != n')
  | .fin n m e, .fin n' m' e' => .fin (n != n') (m * m') (e + e')

/-- The quotient to far more bits than any format holds, its last bit set where bits were cut:
rounding it into a format equals rounding the exact quotient. -/
def Num.div (a b : Num) : Num :=
  match a, b with
  | .nan, _ => .nan
  | _, .nan => .nan
  | .inf _, .inf _ => .nan
  | .inf n, .fin n' _ _ => .inf (n != n')
  | .fin n _ _, .inf n' => .fin (n != n') 0 0
  | .fin n m e, .fin n' m' e' =>
    if m' = 0 then (if m = 0 then .nan else .inf (n != n'))
    else
      let k := 80 + bitLen m'
      let q := m * 2 ^ k / m'
      let r := m * 2 ^ k % m'
      .fin (n != n') (2 * q + (if r = 0 then 0 else 1)) (e - e' - k - 1)

/-- Numeric less-than of two numbers that are not NaN; the zeros are equal. -/
def Num.lt (a b : Num) : Bool :=
  match a, b with
  | .inf n, .inf n' => n && !n'
  | .inf n, .fin _ _ _ => n
  | .fin _ _ _, .inf n => !n
  | .fin n m e, .fin n' m' e' =>
    let g := min e e'
    decide (gridInt n m e g < gridInt n' m' e' g)
  | _, _ => false

/-- Less-than with -0 below +0 (R150). -/
def Num.ltz (a b : Num) : Bool :=
  a.lt b || (a.isZero && b.isZero && a.isNeg && !b.isNeg)

/-- The maximum of R150: NaN when either operand is NaN. -/
def Num.max (a b : Num) : Num :=
  match a, b with
  | .nan, _ => .nan
  | _, .nan => .nan
  | a, b => if a.ltz b then b else a

/-- The minimum of R150: NaN when either operand is NaN. -/
def Num.min (a b : Num) : Num :=
  match a, b with
  | .nan, _ => .nan
  | _, .nan => .nan
  | a, b => if b.ltz a then b else a

/-! Rounding (R139 to R142). -/

/-- One step of the Galois LFSR (R141). -/
def lfsrStep (s : BitVec 32) : BitVec 32 :=
  if s.getLsbD 0 then (s >>> 1) ^^^ 0x80200003#32 else s >>> 1

/-- `n` steps of the LFSR. -/
def lfsrSteps : Nat → BitVec 32 → BitVec 32
  | 0, s => s
  | n + 1, s => lfsrSteps n (lfsrStep s)

/-- A draw: the LFSR after 16 steps (R141). The 16 random bits are its bits [15:0]. -/
def lfsrDraw (s : BitVec 32) : BitVec 32 := lfsrSteps 16 s

/-- Does a magnitude that lies `rem / 2^s` above a representable one go to the value farther from
zero? `odd` is the low bit of the nearer one, `r` the random draw (R139, R140). -/
def roundUp (rnd r : Nat) (neg odd : Bool) (rem s : Nat) : Bool :=
  if rem = 0 then false
  else match rnd with
    | 0 => decide (2 * rem > 2 ^ s) || (decide (2 * rem = 2 ^ s) && odd)
    | 1 => false
    | 2 => !neg
    | 3 => neg
    | _ =>
      let d := if 16 ≤ s then rem / 2 ^ (s - 16) else rem * 2 ^ (16 - s)
      decide (2 ^ 16 ≤ d + r)

/-- Rounds the magnitude m * 2^e to a multiple of 2^q. -/
def roundMag (rnd r : Nat) (neg : Bool) (m : Nat) (e q : Int) : Nat :=
  if q ≤ e then m * 2 ^ (e - q).toNat
  else
    let s := (q - e).toNat
    let n := m / 2 ^ s
    if roundUp rnd r neg (n % 2 == 1) (m % 2 ^ s) s then n + 1 else n

/-- What an overflow gives (R144): true for the largest finite value, false for infinity, or for
NaN where the target has none. -/
def overflowToMax (rnd : Nat) (sat neg : Bool) : Bool :=
  sat || (match rnd with | 1 => true | 2 => neg | 3 => !neg | _ => false)

/-- The code of an infinity, or NaN for a target without one. -/
def infCode (f : Fmt) (neg : Bool) : Nat :=
  let (eb, mb, _) := f.layout
  if f.hasInf then (2 ^ eb - 1) * 2 ^ mb + neg.toNat * 2 ^ (eb + mb) else f.nanCode

/-- Rounds into a floating-point format; `sat` as in R144, and `mx` for an MX element, which always
takes the largest magnitude of its sign (R134). -/
def encodeFloat (f : Fmt) (rnd r : Nat) (sat : Bool) (v : Num) : Nat :=
  let (eb, mb, bias) := f.layout
  let sgn (n : Bool) : Nat := n.toNat * 2 ^ (eb + mb)
  match v with
  | .nan => f.nanCode
  | .inf n => if f.hasInf then infCode f n else if sat then f.maxCode + sgn n else f.nanCode
  | .fin n m e =>
    if m = 0 then sgn n
    else
      let k : Int := (Nat.log2 m : Int) + e
      let emin := 1 - bias
      let kk := max k emin
      let c := roundMag rnd r n m e (kk - mb)
      -- the carry out of the mantissa moves into the exponent field by itself
      let code : Nat := if k < emin then c else (k + bias - 1).toNat * 2 ^ mb + c
      if code > f.maxCode then
        if f.mx || overflowToMax rnd sat n then f.maxCode + sgn n else infCode f n
      else code + sgn n

/-- The bits of an integer in `len` bits. -/
def intBits (v : Int) (len : Nat) : Nat := (v % (2 ^ len : Nat)).toNat

/-- Rounds into a two's-complement integer of `len` bits (R145, R146). -/
def encodeInt (len rnd r : Nat) (sat : Bool) (v : Num) : Nat :=
  let lo : Int := -(2 ^ (len - 1) : Nat)
  let hi : Int := (2 ^ (len - 1) : Nat) - 1
  match v with
  | .nan => if sat then 0 else intBits lo len
  | .inf n => if sat then intBits (if n then lo else hi) len else intBits lo len
  | .fin n m e =>
    let c := roundMag rnd r n m e 0
    let i : Int := if n then -(c : Int) else c
    if i < lo then intBits lo len
    else if i > hi then (if sat then intBits hi len else intBits lo len)
    else intBits i len

/-- Rounds an MXINT8 element, in units of 2^-6, saturating (R134). -/
def encodeMxInt8 (rnd r : Nat) (v : Num) : Nat :=
  match v with
  | .fin n m e => encodeInt 8 rnd r true (.fin n m (e + 6))
  | _ => 0

/-- floor(k * log2 v) of a positive magnitude, exactly: v^k is compared with powers of two. -/
def floorLog (k m : Nat) (e : Int) : Int := (Nat.log2 (m ^ k) : Int) + e * k

/-- Rounds into L8 (R138, R144, R145). -/
def encodeL8 (rnd r : Nat) (sat : Bool) (v : Num) : Nat :=
  let code (n : Bool) (q : Int) : Nat := n.toNat * 128 + intBits q 7
  match v with
  | .nan => 0xC0
  | .inf n => if sat then code n 63 else 0xC0
  | .fin n m e =>
    if m = 0 then 0x40
    else
      let fl := floorLog 16 m e
      let exact := decide (m = 2 ^ Nat.log2 m)  -- only powers of two have a rational 16*log2
      let up : Bool :=
        if exact then false
        else match rnd with
          | 0 => decide ((floorLog 32 m e) % 2 = 1)
          | 1 => false
          | 2 => !n
          | 3 => n
          | _ => decide (2 ^ 16 ≤ (floorLog (2 ^ 20) m e - fl * 65536).toNat + r)
      let q := if up then fl + 1 else fl
      if q > 63 then (if overflowToMax rnd sat n then code n 63 else 0xC0)
      else if q < -63 then
        (if (rnd = 2 ∧ n = false) ∨ (rnd = 3 ∧ n = true) then code n (-63) else 0x40)
      else code n q

/-- Rounds a number into a format; an MX format rounds one element, its scale already taken off. -/
def encodeElem (f : Fmt) (rnd r : Nat) (sat : Bool) (v : Num) : Nat :=
  match f with
  | .int8 => encodeInt 8 rnd r sat v
  | .int32 => encodeInt 32 rnd r sat v
  | .mxInt8 => encodeMxInt8 rnd r v
  | .l8 => encodeL8 rnd r sat v
  | f => encodeFloat f rnd r sat v

/-- One output element under a rounding field: a draw is made for every element under code 4,
exact or not (R142). -/
def emit (f : Fmt) (rnd : Nat) (sat : Bool) (l : BitVec 32) (v : Num) : Nat × BitVec 32 :=
  if rnd = 4 then
    let l' := lfsrDraw l
    (encodeElem f 4 (l'.toNat % 65536) sat v, l')
  else (encodeElem f rnd 0 sat v, l)

/-- Rounds to FP32 with round to nearest even and reads the result back (R149). -/
def toFp32 (v : Num) : Num := decodeFloat .fp32 (encodeFloat .fp32 0 0 false v)

/-- One FP32 addition, rounded to nearest even. -/
def fadd (a b : Num) : Num := toFp32 (a.add b)

/-- One FP32 multiplication, rounded to nearest even. -/
def fmul (a b : Num) : Num := toFp32 (a.mul b)

/-! Pairwise sums (R575). -/

/-- One level of the pairwise order: a lone last term passes to the end. -/
def pairLevel {α : Type} (op : α → α → α) : List α → List α
  | a :: b :: t => op a b :: pairLevel op t
  | t => t

/-- The levels repeat until one term remains; `fuel` bounds their number. -/
def pairFold {α : Type} (op : α → α → α) (z : α) : Nat → List α → α
  | _, [] => z
  | _, [a] => a
  | 0, a :: _ => a
  | n + 1, l => pairFold op z n (pairLevel op l)

/-- The pairwise sum of a non-empty list of terms. -/
def pairSum {α : Type} (op : α → α → α) (z : α) (l : List α) : α := pairFold op z 64 l

/-! Microscaling (R132 to R134). -/

/-- The value of an E8M0 scale byte's exponent. -/
def scaleExp (b : Byte) : Int := (b.toNat : Int) - 127

/-- An element under its scale byte; 0xFF makes it NaN. -/
def scaled (b : Byte) (v : Num) : Num :=
  if b = 0xFF#8 then .nan
  else match v with
    | .fin n m e => .fin n m (e + scaleExp b)
    | v => v

/-- emax of an MX element format (R133). -/
def Fmt.emax : Fmt → Int
  | .mxE4m3 => 8 | .mxE5m2 => 15 | .mxE3m2 => 4 | .mxE2m3 => 2 | .mxE2m1 => 2 | _ => 0

/-- floor(log2) of the largest magnitude of a list, none when every value is zero. -/
def maxLog : List Num → Option Int
  | [] => none
  | .fin _ m e :: t =>
    if m = 0 then maxLog t
    else
      let k : Int := (Nat.log2 m : Int) + e
      match maxLog t with
      | none => some k
      | some k' => some (max k k')
  | _ :: t => maxLog t

/-- Is the number NaN or an infinity? -/
def Num.special : Num → Bool
  | .fin _ _ _ => false
  | _ => true

/-- The scale byte of a block (R133). -/
def blockScale (f : Fmt) (l : List Num) : Byte :=
  if l.any Num.special then 0xFF#8
  else match maxLog l with
    | none => 0x00#8
    | some k => BitVec.ofNat 8 (min (max (k - f.emax) (-127)) 127 + 127).toNat

/-- What is rounded into an element of a block with that scale (R133). -/
def unscaled (s : Byte) (v : Num) : Num :=
  if s = 0xFF#8 then .fin false 0 0
  else match v with
    | .fin n m e => if m = 0 then .fin n 0 0 else .fin n m (e - scaleExp s)
    | v => v

/-- Elements under one rounding field, in order, threading the LFSR. -/
def emits (f : Fmt) (rnd : Nat) (sat : Bool) : BitVec 32 → List Num → List Nat × BitVec 32
  | l, [] => ([], l)
  | l, v :: t =>
    let (c, l1) := emit f rnd sat l v
    let (cs, l2) := emits f rnd sat l1 t
    (c :: cs, l2)

/-! Packing (R86): element i of a row occupies bits [b*i, b*i+b) of its little-endian bytes. -/

/-- The code of element `i` of a packed row in a byte memory. -/
def elemAt (m : SMap Byte) (base bits i : Nat) : Nat :=
  Mem.nat m (base + bits * i / 8) 5 / 2 ^ (bits * i % 8) % 2 ^ bits

/-- The codes of `n` elements from element `i`. -/
def elemsAt (m : SMap Byte) (base bits i n : Nat) : List Nat :=
  (rangeFrom i n).map (elemAt m base bits)

/-- The number whose `bits`-wide digits are the codes. -/
def packNat (bits : Nat) : List Nat → Nat
  | [] => 0
  | c :: t => c % 2 ^ bits + 2 ^ bits * packNat bits t

/-- The bytes a run of codes fills, the last one padded with zero bits. -/
def packCodes (bits : Nat) (l : List Nat) : List Byte :=
  natToBytes ((bits * l.length + 7) / 8) (packNat bits l)

/-- Bytes that `n` elements of a format take (R86). -/
def rowBytes (f : Fmt) (n : Nat) : Nat := (f.bits * n + 7) / 8

end Sys2Proof.Machine
end

