-- ==== Sys2Proof/Machine/EngOps.lean ====
section
/-!
DEFINITION. What the engines share (03_engines.md): starting the head command after its checks,
performing its units, faults and their record, completion, restart points, wait tokens, and the
operations common to all engines.
-/

namespace Sys2Proof

/-- The operation code of a command (R79). -/
def Quad.op (q : Quad) : Nat := Machine.fld q.w0 58 6

/-- The counter a command names (R79). -/
def Quad.cnt (q : Quad) : BitVec 4 := BitVec.ofNat 4 (Machine.fld q.w0 54 4)

end Sys2Proof

namespace Sys2Proof.Machine

/-- The checks an engine makes at start (R574): is the command invalid; the scratch regions it uses,
in field order; is its program-store target outside the store; the addresses that must be aligned,
in field order; the gazelle slots it uses. -/
structure Checks where
  invalid : Bool
  regions : List (Nat × Nat)
  pstoreBad : Option Nat
  aligns : List (Nat × Nat)
  slots : List Nat

/-- The first region that extends beyond scratch. -/
def firstOut : List (Nat × Nat) → Option Nat
  | [] => none
  | (a, n) :: t => if scratchSize < a + n then some a else firstOut t

/-- The first address that is not aligned. -/
def firstMisaligned : List (Nat × Nat) → Option Nat
  | [] => none
  | (a, k) :: t => if a % k ≠ 0 then some a else firstMisaligned t

/-- The first of the named slots that holds no table (R98). -/
def firstEmpty (tables : SMap (List Byte)) : List Nat → Option Nat
  | [] => none
  | n :: t => if SMap.get (fun _ => []) tables n = [] then some n else firstEmpty tables t

/-- The fault of a command at start, in the order of R574. -/
def Checks.fault (k : Checks) (tables : SMap (List Byte)) : Option EngFault :=
  if k.invalid then some ⟨0x01, none, none⟩
  else match firstOut k.regions with
  | some a => some ⟨0x02, none, some a⟩
  | none =>
    match k.pstoreBad with
    | some a => some ⟨0x07, none, some a⟩
    | none =>
      match firstMisaligned k.aligns with
      | some a => some ⟨0x03, none, some a⟩
      | none =>
        match firstEmpty tables k.slots with
        | some n => some ⟨0x06, some n, none⟩
        | none => none

/-- The command at the head of an engine's queue, if the engine may start it: it runs none, was not
asked to stop, and the core is up and not paused (R494). -/
def Core.head (c : Core) (n : Nat) : Option Quad :=
  let e := c.engine n
  if e.run.isSome || e.stop || decide (c.rs = .fenced) || c.pause.isSome then none
  else match e.queue with
    | .cmd q :: _ => some q
    | _ => none

/-- The head command, if it has the given operation code. -/
def Core.headOp (c : Core) (n op : Nat) : Option Quad :=
  match c.head n with
  | some q => if q.op = op then some q else none
  | none => none

/-- Removes the head entry of an engine's queue. -/
def Core.dropHead (c : Core) (n : Nat) : Core :=
  let e := c.engine n
  c.setEngine n { e with queue := e.queue.tail }

/-- Ends a command on a fault (R123, R124): the record is written, seq having been incremented, the
counter stays, source 18 + n is raised and the die controller notified. `w1` is the address word. A fault in the
record write itself leaves no record and reaches the die controller only. -/
def Core.engFault (env : CoreEnv) (c : Core) (n : Nat) (f : EngFault) (progress : Nat) (w1 : Word) (body : Quad)
    (recOk : Bool := true) : Core :=
  let e := c.engine n
  let seq := (e.seq + 1) % 2 ^ 16
  let detail := f.detail.getD (c.freeAt env 0).toNat
  let w0 := detail % 2 ^ 32 * 2 ^ 32 + seq * 2 ^ 16 + n * 2 ^ 8 + f.cause
  let rcd := natToBytes 8 w0 ++ wordBytes w1 ++ natToBytes 8 progress ++ natToBytes 8 0 ++
    wordBytes body.w0 ++ wordBytes body.w1 ++ wordBytes body.w2 ++ wordBytes body.w3
  let c := (c.setEngine n { e with seq := seq, faulted := true, run := none }).drew 2
  if recOk then { c with scratch := Mem.write c.scratch e.frec rcd, noticeFault := true }.edge (18 + n)
  else { c with noticeFault := true }

/-- The fault of a command with its own words in the record. -/
def Core.cmdFault (env : CoreEnv) (c : Core) (n : Nat) (q : Quad) (f : EngFault) (progress : Nat)
    (recOk : Bool := true) : Core :=
  c.engFault env n f progress (match f.addr with | some a => BitVec.ofNat 64 a | none => c.freeAt env 1) q recOk

/-- Does a destination overlap a source or another destination word (R83)? -/
def overlapping (reads dests : List (Nat × Nat)) : Bool := dests.any fun (a, n) => bytesMeet a n reads

/-- Starts the head command of engine `n` if it has operation `op`: it leaves the queue, is checked,
and either ends on the fault found or runs by its plan. Its regions disturb, and are disturbed by,
commands of the other engines that run beside it (R55), and words that both write in part are shared (R77). -/
def Core.start1 (env : CoreEnv) (c : Core) (n op : Nat) (check : Quad → Checks) (plan : Core → Quad → Running) : Core :=
  match c.headOp n op with
  | none => c
  | some q =>
    let c := c.dropHead n
    match (check q).fault (c.engine n).tables with
    | some f => c.cmdFault env n q f 0
    | none =>
      let r := plan c q
      let others := c.otherDests n
      let hit := r.dests.any (fun (a, m) => bytesMeet a m others) || r.reads.any (fun (a, m) => bytesMeet a m others)
      let near := others.filter fun (a, m) => wordsMeet a m r.dests
      let c := c.setEngine n { c.engine n with run := some { r with tainted := r.tainted || hit, shared := r.shared ++ near } }
      r.dests.foldl (fun c (a, m) => c.taint n 0 a m) c

/-- Free bytes in place of a list, and the draws counted. -/
def Core.freeWrite (env : CoreEnv) (c : Core) (a : Nat) (l : List Byte) : Core :=
  { c with scratch := Mem.write c.scratch a (freeBytes env c l.length) }.drew ((l.length + 7) / 8)

/-- Performs one unit's writes; a disturbed command writes free values (R55, R83, R157), and a shared word is left
free (R77). -/
def Core.doUnit (env : CoreEnv) (tainted : Bool) (shared : List (Nat × Nat)) (c : Core) (u : PlanUnit) : Core :=
  u.writes.foldl (fun c (a, l) => if tainted then c.freeWrite env a l else c.write env a l shared) c

/-- Performs the next `k` units of the running command of engine `n` (R126). -/
def Core.doUnits (env : CoreEnv) (c : Core) (n k : Nat) : Core :=
  match (c.engine n).run with
  | none => c
  | some r =>
    let us := r.units.take k
    let c := us.foldl (Core.doUnit env r.tainted r.shared) c
    let e := c.engine n
    let last := us.getLast?
    c.setEngine n { e with
      run := some { r with units := r.units.drop k, done := (last.map (·.progress)).getD r.done },
      lfsr := (last.map (·.lfsr)).getD e.lfsr }

/-- Completes the running command of an engine other than springbok (R44, R81): every write is done
before the counter moves, a table goes to its slot (R98), and the fault bit clears (R572). A command whose data leads
to a fault does not complete. -/
def Core.complete (env : CoreEnv) (c : Core) (n : Nat) : Core :=
  match (c.engine n).run with
  | none => c
  | some r =>
    if r.fault.isSome || (c.engine n).held then c
    else
      let c := c.doUnits env n r.units.length
      let e := c.engine n
      let c := c.setEngine n { e with
        run := none, faulted := false
        tables := match r.load with
          | some (t, l) => SMap.set (fun _ => []) e.tables t (if r.tainted then freeBytes env c l.length else l)
          | none => e.tables }
      (if r.load.isSome && r.tainted then c.drew 136 else c).incCnt r.cnt

/-- Ends the running command of an engine on a fault found during it (R105, R115, R124): the units
before it stay, its own do not happen. An uncorrectable scratch word ends it after `done` more
units; the detail of that record is a free value (log entry 12). -/
def Core.runFault (env : CoreEnv) (c : Core) (n : Nat) (ecc : Option (Nat × Nat)) (recOk : Bool) : Core :=
  match (c.engine n).run with
  | none => c
  | some r =>
    match ecc, r.fault with
    | some (k, a), _ =>
      let c := c.doUnits env n k
      let p := match (c.engine n).run with | some r => r.done | none => 0
      c.cmdFault env n r.cmd ⟨0x04, none, some a⟩ p recOk
    | none, some f =>
      let c := c.doUnits env n r.units.length
      let p := match (c.engine n).run with | some r => r.done | none => 0
      c.cmdFault env n r.cmd f p recOk
    | none, none => c

/-- The operations an engine has (R84, R89, R95, R98, R104, R109, R111, R117). -/
def engOps (n : Nat) : List Nat :=
  [0x00, 0x3D] ++ (if n = 0 ∨ n = 1 ∨ n = 2 ∨ n = 4 then [0x3E] else []) ++
  rangeFrom 1 (nth 0 [1, 15, 5, 4, 5, 2, 7] n)

/-- A head command with an unassigned operation ends with INVALID_COMMAND (R79). -/
def Core.unassigned (env : CoreEnv) (c : Core) (n : Nat) (recOk : Bool := true) : Core :=
  match c.head n with
  | some q => if (engOps n).contains q.op then c else (c.dropHead n).cmdFault env n q ⟨0x01, none, none⟩ 0 recOk
  | none => c

/-- Reaches a restart point after `k` more units on a stop request (R126): the k-th unit must be one
the engine restarts at. springbok holds once every tracked slot is free. -/
def Core.reachRestart (env : CoreEnv) (c : Core) (n k : Nat) : Core :=
  let e := c.engine n
  if !e.stop || e.held then c
  else if n = 6 then (if e.slots.isEmpty then c.setEngine n { e with held := true } else c)
  else match e.run with
    | none => c.setEngine n { e with held := true }
    | some r =>
      let ok := decide (k = 0) || (match r.units[k - 1]? with | some u => u.restart | none => false)
      if !ok then c
      else
        let c := c.doUnits env n k
        c.setEngine n { c.engine n with held := true }

/-- Releases a wait token whose counter reached its target (R42). -/
def Core.releaseToken (c : Core) (n : Nat) : Core :=
  let e := c.engine n
  if e.stop || c.pause.isSome then c
  else match e.queue with
    | .token cnt t :: rest => if reached (c.cntr cnt) t then c.setEngine n { e with queue := rest } else c
    | _ => c

/-- Are the bits of a word outside a mask 0? -/
def zeroOutside (w m : Word) : Bool := decide (w &&& ~~~ m = 0)

/-- The bits op and cnt of W0. -/
def opCntMask : Word := mask 54 10

/-- A common operation (R84): it has no throughput, so it takes effect and completes at once, when
every earlier entry of the queue has completed. -/
def Core.common (env : CoreEnv) (c : Core) (n op : Nat) (check : Quad → Checks) (f : Engine → Quad → Engine) : Core :=
  if !(c.engine n).active.isEmpty then c
  else match c.headOp n op with
    | none => c
    | some q =>
      let c := c.dropHead n
      match (check q).fault [] with
      | some e => c.cmdFault env n q e 0
      | none => (c.setEngine n { f (c.engine n) q with faulted := false }).incCnt q.cnt

/-- No scratch region, no address, no slot. -/
def Checks.only (invalid : Bool) : Checks := ⟨invalid, [], none, [], []⟩

/-- `eng.mark` names no field but op and cnt: the model takes every other bit as reserved (DEDUCED from R79, log entry
80). -/
def execEngMark (c : CoreId) (eng : Eng) (s : State) : Host.Outcome State Fault Refusal :=
  .next (s.onCore c fun env c => c.common env eng.val 0x00
    (fun q => .only !(zeroOutside q.w0 opCntMask && decide (q.w1 = 0) && decide (q.w2 = 0) && decide (q.w3 = 0)))
    fun e _ => e)

/-- `eng.frec`: W0[53:0], which R84 does not name, is taken as reserved (DEDUCED from R79, log entry 80). -/
def execEngFrec (c : CoreId) (eng : Eng) (s : State) : Host.Outcome State Fault Refusal :=
  .next (s.onCore c fun env c => c.common env eng.val 0x3D
    (fun q =>
      { invalid := !(zeroOutside q.w0 opCntMask && zeroOutside q.w1 (mask 0 21) && decide (q.w2 = 0) && decide (q.w3 = 0)),
        regions := [(fld q.w1 0 21, 64)], pstoreBad := none, aligns := [(fld q.w1 0 21, 64)], slots := [] })
    fun e q => { e with frec := fld q.w1 0 21 })

/-- `eng.seed`: only kudu, oryx, gazelle and eland have it (R84). The bits that R84 does not name are taken as reserved
(DEDUCED from R79, log entry 80). -/
def execEngSeed (c : CoreId) (eng : Eng) (s : State) : Host.Outcome State Fault Refusal :=
  .next (s.onCore c fun env c =>
    if (engOps eng.val).contains 0x3E then
      c.common env eng.val 0x3E
        (fun q => .only !(zeroOutside q.w0 opCntMask && zeroOutside q.w1 (mask 0 32) && decide (q.w2 = 0) && decide (q.w3 = 0)))
        fun e q => { e with lfsr := if fld q.w1 0 32 = 0 then 1 else BitVec.ofNat 32 (fld q.w1 0 32) }
    else c.unassigned env eng.val)

def execWaitTokenRelease (c : CoreId) (eng : Eng) (s : State) : Host.Outcome State Fault Refusal :=
  .next (s.onCore c fun _ c => c.releaseToken eng.val)

end Sys2Proof.Machine
end

