-- ==== Sys2Proof/Machine/Oryx.lean ====
section
/-!
DEFINITION. oryx (R94 to R96, R149, R150, R575).
-/

namespace Sys2Proof.Machine

/-- The fields of an oryx command (R94). -/
structure OryxCmd where
  fmt : Fmt
  ofmt : Fmt
  rnd : Nat
  bs : Bool
  ss : Bool
  d : Nat
  a : Nat
  b : Nat
  c : Nat
  pitch : Nat
  rows : Nat
  n : Nat
  s : Nat
  t : Nat

/-- Reads the fields; none for a reserved format code. -/
def OryxCmd.of (q : Quad) : Option OryxCmd :=
  match Fmt.ofCode (fld q.w0 50 4), Fmt.ofCode (fld q.w0 46 4) with
  | some f, some o =>
    some { fmt := f, ofmt := o, rnd := fld q.w0 43 3, bs := bit q.w0 42, ss := bit q.w0 41,
           d := fld q.w0 0 21, a := fld q.w1 0 21, b := fld q.w1 21 21, c := fld q.w1 42 21,
           pitch := fld q.w2 36 15, rows := fld q.w2 20 16, n := fld q.w2 0 20, s := fld q.w3 0 32,
           t := fld q.w3 32 32 }
  | _, _ => none

/-- What an oryx operation reads and how it works (R95). -/
inductive OryxOp where
  /-- Element-wise: needs b, needs c, the exact result (`down`: round toward minus infinity), the
  integer result. -/
  | elem (usesB usesC : Bool) (f : (down : Bool) → (s t a b c : Num) → Num) (i : (s t a b c : Int) → Int)
  /-- A reduction: needs b, the term, the row result of the terms. -/
  | red (usesB : Bool) (term : Num → Num → Num) (fold : List Num → Num)
      (iterm : Int → Int → Int) (ifold : List Int → Int)

/-- Does the operation use operand b (R94, R95)? -/
def OryxOp.usesB : OryxOp → Bool
  | .elem b _ _ _ => b
  | .red b _ _ _ _ => b

/-- Does the operation use operand c? -/
def OryxOp.usesC : OryxOp → Bool
  | .elem _ c _ _ => c
  | .red _ _ _ _ _ => false

/-- Is the operation a reduction? -/
def OryxOp.isRed : OryxOp → Bool
  | .elem _ _ _ _ => false
  | .red _ _ _ _ _ => true

/-- Is the format one oryx takes (R94)? -/
def oryxFmt (f : Fmt) : Bool :=
  decide (f = .fp32) || decide (f = .bf16) || decide (f = .fp16) || decide (f = .int32)

/-- Bytes of an element of a whole-byte format. -/
def Fmt.bytes (f : Fmt) : Nat := f.bits / 8

/-- The regions a, b and c in use, and the destination. A pitched region is the whole span from its first byte to its
last, the gaps between its rows included (DESIGN CHOICE, log entry 81). -/
def OryxCmd.regions (c : OryxCmd) (op : OryxOp) : (Nat × Nat) × List (Nat × Nat) × List (Nat × Nat) × (Nat × Nat) :=
  let row := c.n * c.fmt.bytes
  let sp := span c.pitch c.rows row
  ((c.a, sp),
   if op.usesB && !c.ss then [(c.b, if c.bs then row else sp)] else [],
   if op.usesC then [(c.c, sp)] else [],
   (c.d, if op.isRed then c.rows * c.ofmt.bytes else span c.pitch c.rows (c.n * c.ofmt.bytes)))
where
  span (pitch rows row : Nat) : Nat := 64 * pitch * (rows - 1) + row

/-- The checks of an oryx command (R79, R87, R94, R574). -/
def oryxCheck (op : OryxOp) (q : Quad) : Checks :=
  match OryxCmd.of q with
  | none => .only true
  | some c =>
    let bad :=
      decide (fld q.w0 21 20 ≠ 0) || bit q.w1 63 || decide (fld q.w2 51 13 ≠ 0) || decide (4 < c.rnd) ||
      !oryxFmt c.fmt || !oryxFmt c.ofmt || (decide (c.fmt = .int32) != decide (c.ofmt = .int32)) ||
      (c.bs && c.ss) || decide (c.rows = 0) || decide (c.n = 0)
    let (ra, rb, rc, rd) := c.regions op
    let regs := [rd, ra] ++ rb ++ rc
    { invalid := bad, regions := regs, pstoreBad := none, aligns := regs.map fun r => (r.1, 64), slots := [] }

/-- An INT32 result, modulo 2^32 (R94). -/
def wrap32 (v : Int) : Nat := (v % (2 ^ 32 : Nat)).toNat

/-- Operand b of row `r` as codes: the scalar, the one row, or the row (R94). -/
def OryxCmd.bCodes (c : OryxCmd) (m : SMap Byte) (r : Nat) : List Nat :=
  if c.bs then elemsAt m c.b c.fmt.bits 0 c.n
  else elemsAt m (c.b + 64 * c.pitch * r) c.fmt.bits 0 c.n

/-- Row `r` of an operand at `base`. -/
def OryxCmd.row (c : OryxCmd) (m : SMap Byte) (base r : Nat) : List Nat :=
  elemsAt m (base + 64 * c.pitch * r) c.fmt.bits 0 c.n

/-- Operand rows as triples; an operand not in use reads as the first element of a. -/
def OryxCmd.triples (c : OryxCmd) (m : SMap Byte) (op : OryxOp) (r : Nat) : List (Nat × Option Nat × Nat) :=
  let a := c.row m c.a r
  let b : List (Option Nat) :=
    if op.usesB && !c.ss then (c.bCodes m r).map some else List.replicate c.n none
  let cc := if op.usesC then c.row m c.c r else a
  a.zip (b.zip cc)

/-- Elements of a row that the engine does between restart points (R96). -/
def OryxCmd.chunk (c : OryxCmd) : Nat := if c.fmt.bits = 32 ∨ c.ofmt.bits = 32 then 64 else 128

/-- The codes of element-wise results, in order. -/
def oryxElems (c : OryxCmd) (f : Bool → Num → Num → Num → Num → Num → Num) (g : Int → Int → Int → Int → Int → Int)
    (l : BitVec 32) (xs : List (Nat × Option Nat × Nat)) : List Nat × BitVec 32 :=
  if c.fmt = .int32 then
    (xs.map fun (a, b, x) => wrap32 (g (signed c.s 32) (signed c.t 32) (signed a 32) (signed (b.getD c.s) 32) (signed x 32)), l)
  else
    emits c.ofmt c.rnd false l (xs.map fun (a, b, x) =>
      f (c.rnd == 3) (decodeFloat .fp32 c.s) (decodeFloat .fp32 c.t) (decodeFloat c.fmt a)
        (match b with | some b => decodeFloat c.fmt b | none => decodeFloat .fp32 c.s) (decodeFloat c.fmt x))

/-- The chunks of one row. -/
def oryxChunks (c : OryxCmd) (f : Bool → Num → Num → Num → Num → Num → Num) (g : Int → Int → Int → Int → Int → Int)
    (base : Nat) : Nat → BitVec 32 → Nat → Nat → List (Nat × Option Nat × Nat) → List PlanUnit × BitVec 32 × Nat
  | 0, l, _, p, _ => ([], l, p)
  | _, l, _, p, [] => ([], l, p)
  | k + 1, l, j, p, xs =>
    let h := xs.take c.chunk
    let (cs, l1) := oryxElems c f g l h
    let p1 := p + h.length
    let (us, l2, p2) := oryxChunks c f g base k l1 (j + h.length) p1 (xs.drop c.chunk)
    ({ writes := [(base + j * c.ofmt.bytes, packCodes c.ofmt.bits cs)], lfsr := l1, progress := p1, restart := true } :: us, l2, p2)

/-- The result of one row of a reduction. -/
def oryxRowResult (c : OryxCmd) (l : BitVec 32) (term : Num → Num → Num) (fold : List Num → Num)
    (iterm : Int → Int → Int) (ifold : List Int → Int) (xs : List (Nat × Option Nat × Nat)) : Nat × BitVec 32 :=
  if c.fmt = .int32 then
    (wrap32 (ifold (xs.map fun (a, b, _) => iterm (signed a 32) (signed (b.getD c.s) 32))), l)
  else
    emit c.ofmt c.rnd false l (fold (xs.map fun (a, b, _) =>
      term (decodeFloat c.fmt a) (match b with | some b => decodeFloat c.fmt b | none => decodeFloat .fp32 c.s)))

/-- The units of the rows from `r` on. -/
def oryxRows (c : OryxCmd) (m : SMap Byte) (op : OryxOp) : BitVec 32 → Nat → List Nat → List PlanUnit
  | _, _, [] => []
  | l, p, r :: t =>
    let xs := c.triples m op r
    match op with
    | .elem _ _ f g =>
      let (us, l1, p1) := oryxChunks c f g (c.d + 64 * c.pitch * r) c.n l 0 p xs
      us ++ oryxRows c m op l1 p1 t
    | .red _ term fold iterm ifold =>
      let (x, l1) := oryxRowResult c l term fold iterm ifold xs
      { writes := [(c.d + r * c.ofmt.bytes, packCodes c.ofmt.bits [x])], lfsr := l1, progress := p + c.n,
        restart := true } :: oryxRows c m op l1 (p + c.n) t

/-- Is an operand one that d coincides with exactly (R95)? -/
def OryxCmd.same (c : OryxCmd) (op : OryxOp) (addr : Nat) : Bool :=
  !op.isRed && decide (addr = c.d) && decide (c.ofmt.bits ≤ c.fmt.bits)

/-- The plan of an oryx command. With bs = 1 and several rows, d at the address of b is taken as an overlap, since the
rows of b and d are then not the same rows (DESIGN CHOICE, log entry 81). -/
def oryxPlan (op : OryxOp) (core : Core) (q : Quad) : Running :=
  match OryxCmd.of q with
  | none => { cmd := q, cnt := q.cnt, units := [], done := 0, reads := [], dests := [], fault := none, tainted := false }
  | some c =>
    let (ra, rb, rc, rd) := c.regions op
    let apart := (if c.same op c.a then [] else [ra]) ++
      (if c.same op c.b && (!c.bs || decide (c.rows = 1)) then [] else rb) ++ (if c.same op c.c then [] else rc)
    { cmd := q, cnt := q.cnt, units := oryxRows c core.scratch op (core.engine 1).lfsr 0 (rangeFrom 0 c.rows),
      done := 0, reads := [ra] ++ rb ++ rc, dests := [rd], fault := none, tainted := overlapping apart [rd] }

/-- A sum of INT32 terms wraps, so its order does not matter (R94, R575). -/
def intSum (l : List Int) : Int := l.foldl (· + ·) 0

/-- The largest, or smallest, of a list by a comparison. -/
def listPick {α : Type} (z : α) (op : α → α → α) : List α → α
  | [] => z
  | a :: t => t.foldl op a

/-- The signed maximum and minimum; the unsigned magnitude maximum of `ramax` (R95). -/
def intMax (a b : Int) : Int := if a < b then b else a

/-- The signed minimum. -/
def intMin (a b : Int) : Int := if b < a then b else a

/-- Starts an oryx operation. -/
def oryxStart (code : Nat) (op : OryxOp) (c : CoreId) (s : State) : State :=
  s.onCore c fun env c => c.start1 env 1 code (oryxCheck op) (oryxPlan op)

def execOryxAdd (c : CoreId) (s : State) : Host.Outcome State Fault Refusal :=
  .next (oryxStart 0x01 (.elem true false (fun d _ _ a b _ => a.add b d) (fun _ _ a b _ => a + b)) c s)

def execOryxSub (c : CoreId) (s : State) : Host.Outcome State Fault Refusal :=
  .next (oryxStart 0x02 (.elem true false (fun d _ _ a b _ => a.add b.neg d) (fun _ _ a b _ => a - b)) c s)

def execOryxMul (c : CoreId) (s : State) : Host.Outcome State Fault Refusal :=
  .next (oryxStart 0x03 (.elem true false (fun _ _ _ a b _ => a.mul b) (fun _ _ a b _ => a * b)) c s)

def execOryxFma (c : CoreId) (s : State) : Host.Outcome State Fault Refusal :=
  .next (oryxStart 0x04 (.elem true true (fun d _ _ a b c => (a.mul b).add c d) (fun _ _ a b c => a * b + c)) c s)

def execOryxMin (c : CoreId) (s : State) : Host.Outcome State Fault Refusal :=
  .next (oryxStart 0x05 (.elem true false (fun _ _ _ a b _ => a.min b) (fun _ _ a b _ => intMin a b)) c s)

def execOryxMax (c : CoreId) (s : State) : Host.Outcome State Fault Refusal :=
  .next (oryxStart 0x06 (.elem true false (fun _ _ _ a b _ => a.max b) (fun _ _ a b _ => intMax a b)) c s)

def execOryxAffine (c : CoreId) (s : State) : Host.Outcome State Fault Refusal :=
  .next (oryxStart 0x07 (.elem false false (fun d s t a _ _ => (a.mul s).add t d) (fun s t a _ _ => a * s + t)) c s)

def execOryxClamp (c : CoreId) (s : State) : Host.Outcome State Fault Refusal :=
  .next (oryxStart 0x08 (.elem false false (fun _ s t a _ _ => (a.max s).min t)
    (fun s t a _ _ => intMin (intMax a s) t)) c s)

def execOryxAbs (c : CoreId) (s : State) : Host.Outcome State Fault Refusal :=
  .next (oryxStart 0x09 (.elem false false (fun _ _ _ a _ _ => a.abs) (fun _ _ a _ _ => a.natAbs)) c s)

def execOryxRsum (c : CoreId) (s : State) : Host.Outcome State Fault Refusal :=
  .next (oryxStart 0x0A (.red false (fun a _ => a) (pairSum fadd .nan) (fun a _ => a) intSum) c s)

def execOryxRmax (c : CoreId) (s : State) : Host.Outcome State Fault Refusal :=
  .next (oryxStart 0x0B (.red false (fun a _ => a) (listPick .nan Num.max) (fun a _ => a) (listPick 0 intMax)) c s)

def execOryxRmin (c : CoreId) (s : State) : Host.Outcome State Fault Refusal :=
  .next (oryxStart 0x0C (.red false (fun a _ => a) (listPick .nan Num.min) (fun a _ => a) (listPick 0 intMin)) c s)

/-- `oryx.ramax`: INT32 magnitudes compare as unsigned numbers, so -2^31 gives 0x8000_0000. -/
def execOryxRamax (c : CoreId) (s : State) : Host.Outcome State Fault Refusal :=
  .next (oryxStart 0x0D (.red false (fun a _ => a.abs) (listPick .nan Num.max) (fun a _ => a.natAbs)
    (listPick 0 intMax)) c s)

def execOryxRdot (c : CoreId) (s : State) : Host.Outcome State Fault Refusal :=
  .next (oryxStart 0x0E (.red true fmul (pairSum fadd .nan) (fun a b => a * b) intSum) c s)

def execOryxRsumsq (c : CoreId) (s : State) : Host.Outcome State Fault Refusal :=
  .next (oryxStart 0x0F (.red false (fun a _ => fmul a a) (pairSum fadd .nan) (fun a _ => a * a) intSum) c s)

end Sys2Proof.Machine
end

