-- ==== Sys2Proof/Machine/Saiga.lean ====
section
/-!
DEFINITION. saiga (R111 to R115) and the packed stream that springbok's stream pipe uses too (R120).
-/

namespace Sys2Proof.Machine

/-- The words of a byte list, 8 B each. -/
def words8 : Nat → List Byte → List (List Byte)
  | 0, _ => []
  | _, [] => []
  | k + 1, l => l.take 8 :: words8 k (l.drop 8)

/-- Is a list of bytes all zero? -/
def allZero (l : List Byte) : Bool := l.all (· == 0#8)

/-- The mask of a zero-run group: bit k is 1 when word k is not zero (R113). -/
def zrMask : List (List Byte) → Nat
  | [] => 0
  | w :: t => (if allZero w then 0 else 1) + 2 * zrMask t

/-- The zero-run body of a chunk, in groups of 64 words (R113). -/
def zrBody : Nat → List (List Byte) → List Byte
  | 0, _ => []
  | _, [] => []
  | k + 1, ws =>
    let g := ws.take 64
    natToBytes 8 (zrMask g) ++ (g.filter fun w => !allZero w).flatten ++ zrBody k (ws.drop 64)

/-- Element bytes, mantissa bits of the exponent-delta modes: FP32 for mode 2, BF16 for mode 3. -/
def edShape (mode : Nat) : Nat × Nat := if mode = 2 then (4, 23) else (2, 7)

/-- The biased exponent and the sign with mantissa of an element. -/
def edSplit (mode v : Nat) : Nat × Nat :=
  let (_, mb) := edShape mode
  (v / 2 ^ mb % 256, v % 2 ^ mb + (v / 2 ^ (mb + 8)) * 2 ^ mb)

/-- The elements of a run of bytes. -/
def edElems (mode : Nat) (l : List Byte) : List Nat :=
  let (n, _) := edShape mode
  (rangeFrom 0 (l.length / n)).map fun i => bytesToNat ((l.drop (n * i)).take n)

/-- The largest of a list of numbers. -/
def maxNat (l : List Nat) : Nat := l.foldl max 0

/-- One exponent-delta group of 32 elements (R114). -/
def edGroup (mode : Nat) (vs : List Nat) : List Byte :=
  let (n, _) := edShape mode
  let es := vs.map fun v => (edSplit mode v).1
  let emax := maxNat es
  let ds := es.map fun e => emax - e
  let w := bitLen (maxNat ds)
  [BitVec.ofNat 8 emax, BitVec.ofNat 8 w] ++ natToBytes (4 * w) (packNat w ds) ++
    (vs.flatMap fun v => natToBytes (n - 1) (edSplit mode v).2)

/-- The exponent-delta body of a chunk. -/
def edBody (mode : Nat) : Nat → List Nat → List Byte
  | 0, _ => []
  | _, [] => []
  | k + 1, vs => edGroup mode (vs.take 32) ++ edBody mode k (vs.drop 32)

/-- The body of a chunk in a mode. -/
def packBody (mode : Nat) (l : List Byte) : List Byte :=
  if mode = 1 then zrBody l.length (words8 l.length l) else edBody mode l.length (edElems mode l)

/-- Zero bytes that pad a length to a multiple of 8. -/
def pad8 (n : Nat) : List Byte := List.replicate ((8 - n % 8) % 8) 0#8

/-- One chunk of a packed stream (R112): stored where the mode would not make it smaller. -/
def packChunk (mode : Nat) (l : List Byte) : List Byte :=
  let b := packBody mode l
  let (cm, body) := if b.length < l.length then (mode, b) else (0, l)
  natToBytes 8 (cm * 2 ^ 32 + body.length * 2 ^ 16 + (l.length - 1)) ++ body ++ pad8 body.length

/-- The chunks of an input, 4,096 B each. -/
def packChunks (mode : Nat) : Nat → List Byte → List (List Byte)
  | 0, _ => []
  | _, [] => []
  | k + 1, l => packChunk mode (l.take 4096) :: packChunks mode k (l.drop 4096)

/-- The packed stream of an input. -/
def packStream (mode : Nat) (l : List Byte) : List Byte := (packChunks mode l.length l).flatten

/-- The group a zero-run mask restores: the words, and the body bytes it took. -/
def zrWords (mask : Nat) : Nat → List Byte → Option (List Byte × List Byte)
  | 0, b => some ([], b)
  | n + 1, b =>
    let ones := mask % 2 = 1
    if ones ∧ b.length < 8 then none
    else
      let (w, b1) := if ones then (b.take 8, b.drop 8) else (List.replicate 8 0#8, b)
      match zrWords (mask / 2) n b1 with
      | some (ws, b2) => some (w ++ ws, b2)
      | none => none

/-- Unpacks a zero-run body of `n` words; none when its lengths do not fit. -/
def unzr : Nat → Nat → List Byte → Option (List Byte)
  | _, 0, b => if b.isEmpty then some [] else none
  | 0, _, _ => none
  | k + 1, n, b =>
    let g := min n 64
    let m := bytesToNat (b.take 8)
    if b.length < 8 ∨ 2 ^ g ≤ m then none
    else match zrWords m g (b.drop 8) with
      | none => none
      | some (ws, b1) =>
        match unzr k (n - g) b1 with
        | some t => some (ws ++ t)
        | none => none

/-- Unpacks an exponent-delta body of `n` elements. -/
def uned (mode : Nat) : Nat → Nat → List Byte → Option (List Byte)
  | _, 0, b => if b.isEmpty then some [] else none
  | 0, _, _ => none
  | k + 1, n, b =>
    let (sz, mb) := edShape mode
    let emax := (nth 0#8 b 0).toNat
    let w := (nth 0#8 b 1).toNat
    let size := 2 + 4 * w + 32 * (sz - 1)
    if n < 32 ∨ 8 < w ∨ b.length < size then none
    else
      let ds := bytesToNat ((b.drop 2).take (4 * w))
      let ms := b.drop (2 + 4 * w)
      let vals := (rangeFrom 0 32).map fun i =>
        let e := (emax + 256 - ds / 2 ^ (w * i) % 2 ^ w) % 256
        let sm := bytesToNat ((ms.drop ((sz - 1) * i)).take (sz - 1))
        sm % 2 ^ mb + e * 2 ^ mb + sm / 2 ^ mb * 2 ^ (mb + 8)
      match uned mode k (n - 32) (b.drop size) with
      | some t => some (vals.flatMap (natToBytes sz) ++ t)
      | none => none

/-- One chunk at the head of a stream: its output and the rest; none for a header with a reserved
value or lengths that do not fit (R112, R115). -/
def unpackChunk (l : List Byte) : Option (List Byte × List Byte) :=
  let h := bytesWord (l.take 8)
  let cm := fld h 32 4
  let blen := fld h 16 16
  let ilen := fld h 0 12 + 1
  let rest := l.drop 8
  let total := blen + (8 - blen % 8) % 8
  if l.length < 8 ∨ fld h 36 28 ≠ 0 ∨ fld h 12 4 ≠ 0 ∨ 3 < cm ∨ rest.length < total then none
  else
    let body := rest.take blen
    let out := match cm with
      | 0 => if blen = ilen then some body else none
      | 1 => if ilen % 8 = 0 then unzr ilen (ilen / 8) body else none
      | m => if ilen % (32 * (edShape m).1) = 0 then uned m ilen (ilen / (edShape m).1) body else none
    match out with
    | some o => some (o, rest.drop total)
    | none => none

/-- The outputs of the chunks of a stream, within a capacity, and whether the stream is corrupt at
the first chunk not taken (R115). -/
def unpackChunks (cap : Nat) : Nat → List Byte → List (List Byte) × Bool
  | _, [] => ([], false)
  | 0, _ => ([], true)
  | k + 1, l =>
    match unpackChunk l with
    | none => ([], true)
    | some (o, rest) =>
      if cap < o.length then ([], true)
      else
        let (os, bad) := unpackChunks (cap - o.length) k rest
        (o :: os, bad)

/-- The fields of a saiga command (R111). -/
structure SaiCmd where
  mode : Nat
  d : Nat
  r : Nat
  a : Nat
  cap : Nat
  len : Nat

/-- Reads the fields. -/
def SaiCmd.of (q : Quad) : SaiCmd :=
  { mode := fld q.w0 50 4, d := fld q.w0 0 21, r := fld q.w1 21 21, a := fld q.w1 0 21,
    cap := fld q.w2 21 21, len := fld q.w2 0 21 }

/-- The unit of input length a pack mode asks for (R111). -/
def packUnit (mode : Nat) : Nat := if mode = 1 then 8 else if mode = 2 then 128 else 64

/-- The checks of a saiga command (R79, R111, R574). -/
def saiCheck (pack : Bool) (q : Quad) : Checks :=
  let c := SaiCmd.of q
  let bad :=
    !zeroOutside q.w0 (opCntMask ||| mask 50 4 ||| mask 0 21) || !zeroOutside q.w1 (mask 0 42) ||
    !zeroOutside q.w2 (mask 0 42) || decide (q.w3 ≠ 0) ||
    (if pack then decide (c.mode = 0) || decide (3 < c.mode) || decide (c.len % packUnit c.mode ≠ 0) else decide (c.mode ≠ 0))
  { invalid := bad, regions := [(c.d, c.cap), (c.a, c.len), (c.r, 8)], pstoreBad := none,
    aligns := [(c.d, 8), (c.a, 8), (c.r, 8)], slots := [] }

/-- The chunk outputs as units; the last one carries the result word when the command completes. -/
def saiUnits (d r inLen : Nat) (result : Bool) : Nat → Nat → List (List Byte) → List PlanUnit
  | p, o, [] =>
    if result then [⟨[(r, natToBytes 4 inLen ++ natToBytes 4 o)], 0, p, true⟩] else []
  | p, o, b :: t => ⟨[(d + o, b)], 0, p + 1, true⟩ :: saiUnits d r inLen result (p + 1) (o + b.length) t

/-- The leading chunks of a packed stream that fit a capacity, and whether one does not. -/
def fitChunks (cap : Nat) : List (List Byte) → List (List Byte) × Bool
  | [] => ([], false)
  | b :: t =>
    if cap < b.length then ([], true)
    else
      let (bs, bad) := fitChunks (cap - b.length) t
      (b :: bs, bad)

/-- The plan of a saiga command. A pack whose stream outgrows its capacity ends as an unpack does
(log entry 14). -/
def saiPlan (pack : Bool) (core : Core) (q : Quad) : Running :=
  let c := SaiCmd.of q
  let inp := Mem.bytes core.scratch c.a c.len
  let (os, bad) := if pack then fitChunks c.cap (packChunks c.mode c.len inp) else unpackChunks c.cap c.len inp
  { cmd := q, cnt := q.cnt, units := saiUnits c.d c.r c.len (!bad) 0 0 os, done := 0,
    reads := [(c.a, c.len)], dests := [(c.d, c.cap), (c.r, 8)],
    fault := if bad then some ⟨0x09, none, none⟩ else none,
    tainted := overlapping [(c.a, c.len)] [(c.d, c.cap), (c.r, 8)] || meets c.d c.cap c.r 8 }

def execSaigaPack (c : CoreId) (s : State) : Host.Outcome State Fault Refusal :=
  .next (s.onCore c fun env c => c.start1 env 5 0x01 (saiCheck true) (saiPlan true))

def execSaigaUnpack (c : CoreId) (s : State) : Host.Outcome State Fault Refusal :=
  .next (s.onCore c fun env c => c.start1 env 5 0x02 (saiCheck false) (saiPlan false))

end Sys2Proof.Machine
end

