-- ==== Sys2Proof/Machine/Springbok.lean ====
section
/-!
DEFINITION. springbok's entries (R46 to R49, R82, R116 to R120): checks at start, the requests of an
entry, what a reply does to its entry, completion and faults.
-/

namespace Sys2Proof

/-- Scratch address of a springbok command (R116). -/
def Quad.sAddr (q : Quad) : Nat := Machine.fld q.w0 0 21

/-- Scratch row pitch in 64 B units. -/
def Quad.sPitch (q : Quad) : Nat := Machine.fld q.w1 37 15

/-- Rows of a command. -/
def Quad.rows (q : Quad) : Nat := Machine.fld q.w1 21 16

/-- Address of the status word. -/
def Quad.stAddr (q : Quad) : Nat := Machine.fld q.w1 0 21

/-- Memory row pitch. -/
def Quad.mPitch (q : Quad) : Nat := Machine.fld q.w2 21 36

/-- Bytes per row, or entries of a gather list. -/
def Quad.len (q : Quad) : Nat := Machine.fld q.w2 0 21

/-- Does the command write a status word? -/
def Quad.st (q : Quad) : Bool := Machine.bit q.w0 49

/-- Does the data pass the stream pipe? -/
def Quad.z (q : Quad) : Bool := Machine.bit q.w0 52

/-- Is the address a herd address? -/
def Quad.herd (q : Quad) : Bool := Machine.bit q.w0 53

end Sys2Proof

namespace Sys2Proof.Machine

/-! Starting an entry. -/

/-- The fields every springbok command may use: op and cnt. -/
def sbW0 (hf zf stf rcef ctxf sf : Bool) : Word :=
  mask 54 10 ||| (if hf then mask 53 1 else 0) ||| (if zf then mask 50 3 else 0) ||| (if stf then mask 49 1 else 0)
    ||| (if rcef then mask 44 5 else 0) ||| (if ctxf then mask 38 6 else 0) ||| (if sf then mask 0 21 else 0)

/-- The fields an operation uses; every other field is reserved (R116, R117). -/
def sbFields : SbKind → Quad
  | .get | .put => ⟨sbW0 true true true false false true, mask 0 52, mask 0 57, mask 0 48⟩
  | .cput => ⟨sbW0 false true true true false true, mask 0 52, mask 0 21, mask 0 49⟩
  | .gather => ⟨sbW0 false false true false false false, mask 0 21, mask 0 21, mask 0 21⟩
  | .atom => ⟨sbW0 true false true false false true, mask 0 21, mask 0 4, mask 0 48⟩
  | .pload => ⟨sbW0 true false true false false true, mask 0 21, mask 0 21, mask 0 48⟩
  | .coll => ⟨sbW0 false false true false true true, mask 0 21, mask 0 21, mask 0 21⟩
  | .msg => ⟨0, 0, 0, 0⟩

/-- Bytes of scratch that rows of `len` bytes at a pitch span. -/
def spanOf (rows pitch len : Nat) : Nat := (rows - 1) * pitch + len

/-- The entries of a gather list in scratch (R106): herd flag, address, destination, bytes. -/
def gatherList (m : SMap Byte) (a n : Nat) : List (Bool × Nat × Nat × Nat) :=
  (rangeFrom 0 n).map fun i =>
    let e0 := Mem.nat m (a + 16 * i) 8
    let e1 := Mem.nat m (a + 16 * i + 8) 8
    (e0.testBit 63, e0 % 2 ^ 48, e1 / 2 ^ 16 % 2 ^ 21, e1 % 2 ^ 16)

/-- Bytes of the result of a collective: FP8 contributions are widened to FP32 (R182). -/
def collBytes (red len : Nat) : Nat := if red = 3 ∨ red = 4 then 4 * len else len

/-- The checks at start (R111, R117, R120, R303, R309, R574). `red` is the format of the named context. -/
def sbCheck (k : SbKind) (c : Core) (red : Nat) (q : Quad) : Checks :=
  let f := sbFields k
  let reserved := !(zeroOutside q.w0 f.w0 && zeroOutside q.w1 f.w1 && zeroOutside q.w2 f.w2 && zeroOutside q.w3 f.w3)
  let rowed := k = .get ∨ k = .put ∨ k = .cput
  let zBad := (rowed : Bool) && (if q.z then decide (q.rows ≠ 1) || decide (fld q.w0 50 2 = 0) || (decide (k = .put) && !q.st) ||
      (decide (k ≠ .get) && decide (q.len % packUnit (fld q.w0 50 2) ≠ 0))
    else decide (fld q.w0 50 2 ≠ 0))
  let lenBad := decide (k ≠ .atom) && decide (q.len = 0)
  let rowBad := (rowed : Bool) && decide (q.rows = 0)
  let aopBad := decide (k = .atom) && decide (6 ≤ fld q.w2 0 3)
  let herdBad := q.herd && decide (fld q.w3 46 2 ≠ 0)
  let span := spanOf q.rows (64 * q.sPitch) q.len
  let stR := if q.st then [(q.stAddr, 8)] else []
  let regions : List (Nat × Nat) := match k with
    | .get => (if q.z then [(q.sAddr, 64 * q.sPitch)] else [(q.sAddr, span)]) ++ stR
    | .put => [(q.sAddr, span)] ++ stR
    | .cput => [(q.sAddr, span)] ++ stR ++ [(fld q.w3 28 21, span)]
    | .gather => stR ++ [(fld q.w3 0 21, 16 * q.len)] ++
        (gatherList c.scratch (fld q.w3 0 21) q.len).map fun (_, _, d, n) => (d, n)
    | .atom => [(q.sAddr, 24)] ++ stR
    | .pload => stR
    | .coll => [(q.sAddr, q.len)] ++ stR ++ [(fld q.w3 0 21, collBytes red q.len)]
    | .msg => []
  let width := if bit q.w2 3 then 8 else 4
  { invalid := reserved || zBad || lenBad || rowBad || aopBad || herdBad
    regions := regions
    pstoreBad := if k = .pload ∧ 0x20000 < q.sAddr + q.len then some q.sAddr else none
    aligns := (if k = .pload then [(q.sAddr, 4)] else []) ++ (if q.st then [(q.stAddr, 8)] else []) ++
      (if k = .pload then [(q.len, 4)] else []) ++ (if k = .atom then [(fld q.w3 0 48, width)] else [])
    slots := [] }

/-- Cuts `n` bytes at far address `m`, near address `s`, into requests within one 256 B granule. -/
def sbSplit (herd : Bool) : Nat → Nat → Nat → Nat → List SbPiece
  | 0, _, _, _ => []
  | fuel + 1, m, s, n =>
    if n = 0 then []
    else
      let k := min n (256 - m % 256)
      { mem := m, scr := s, len := k, herd := herd } :: sbSplit herd fuel (m + k) (s + k) (n - k)

/-- The requests of rows of a command. -/
def sbRows (herd : Bool) (m mp s sp rows len : Nat) : List SbPiece :=
  (rangeFrom 0 rows).flatMap fun r => sbSplit herd len (m + r * mp) (s + r * sp) len

/-- Cuts the contribution of a collective into chunks of `step` bytes. -/
def sbChunks (step : Nat) : Nat → Nat → Nat → Nat → List SbPiece
  | 0, _, _, _ => []
  | fuel + 1, i, s, n =>
    if n = 0 then []
    else
      let k := min n step
      { mem := i, scr := s, len := k, herd := false } :: sbChunks step fuel (i + 1) (s + k) (n - k)

/-- The started entry of a command. `sends` says whether this core contributes to its collective, and
`red` is that context's format. -/
def sbPlan (k : SbKind) (id red : Nat) (sends : Bool) (c : Core) (q : Quad) : SbActive :=
  let a := fld q.w3 0 48
  let sp := 64 * q.sPitch
  let rowsS := (rangeFrom 0 q.rows).map fun r => (q.sAddr + sp * r, q.len)
  let stream := if (k = .put ∨ k = .cput) ∧ q.z then packStream (fld q.w0 50 2) (Mem.bytes c.scratch q.sAddr q.len) else []
  let list := gatherList c.scratch (fld q.w3 0 21) q.len
  let todo := match k with
    | .get => if q.z then sbSplit q.herd q.len a 0 q.len else sbRows q.herd a q.mPitch q.sAddr sp q.rows q.len
    | .put => if q.z then sbSplit q.herd stream.length a 0 stream.length
        else sbRows q.herd a q.mPitch q.sAddr sp q.rows q.len
    | .cput => if q.z then sbSplit false stream.length 0 0 stream.length
        else sbRows false (fld q.w3 28 21) sp q.sAddr sp q.rows q.len
    | .gather => list.flatMap fun (h, m, d, n) => sbSplit h n m d n
    | .atom => [{ mem := a, scr := q.sAddr, len := if bit q.w2 3 then 8 else 4, herd := q.herd }]
    | .pload => sbSplit q.herd q.len a q.sAddr q.len
    | .coll => if sends then sbChunks (if red = 3 ∨ red = 4 then 64 else 256) q.len 0 q.sAddr q.len else []
    | .msg => []
  { id := id, kind := k, cmd := q, payload := ⟨0, 0, 0, 0⟩, cnt := q.cnt, ce := true, started := false,
    todo := todo, out := 0, bytes := 0, err := 0, faulted := none, stream := stream, efault := none,
    errAddr := a, got := [], void := false,
    reads := (match k with
      | .put | .cput => rowsS
      | .gather => [(fld q.w3 0 21, 16 * q.len)]
      | .atom => [(q.sAddr, 16)]
      | .coll => [(q.sAddr, q.len)]
      | _ => []),
    dests := (match k with
      | .get => if q.z then [(q.sAddr, 64 * q.sPitch)] else rowsS
      | .gather => list.map fun (_, _, d, n) => (d, n)
      | .atom => [(q.sAddr + 16, 8)]
      | .coll => [(fld q.w3 0 21, collBytes red q.len)]
      | _ => []),
    tainted := false }

/-- Starts the head command of springbok if it has operation `op` (R82, R117). `ecc` is what SECDED said of a gather
list that it reads: corrected raises source 28, and with an uncorrectable word the entry issues nothing and ends with
SCRATCH_ECC (R78, R122). -/
def Core.sbStart (env : CoreEnv) (c : Core) (op : Nat) (k : SbKind) (red : Nat) (sends : Bool) (ecc : Ecc := .ok) : Core :=
  match c.headOp 6 op with
  | none => c
  | some q =>
    let c := c.dropHead 6
    match (sbCheck k (if ecc = .uncorrectable then { c with scratch := [] } else c) red q).fault [] with
    | some f => c.cmdFault env 6 q f 0
    | none =>
      let e := c.engine 6
      let r := sbPlan k e.nextId red sends c q
      let r := if ecc = .uncorrectable then
          { r with todo := [], dests := [], efault := some ⟨0x04, none, some (fld q.w3 0 21)⟩ } else r
      let others := c.otherDests 6 r.id
      let hit := r.dests.any (fun (a, m) => bytesMeet a m others) || r.reads.any (fun (a, m) => bytesMeet a m others)
      let near := others.filter fun (a, m) => wordsMeet a m r.dests
      let c := c.setEngine 6 { e with
        active := e.active ++ [{ r with tainted := hit || overlapping r.reads r.dests, shared := near }]
        nextId := e.nextId + 1 }
      let c := r.dests.foldl (fun c (a, m) => c.taint 6 r.id a m) c
      if ecc = .corrected then c.edge 28 else c

/-- Starts a `snd.msg` entry (R47): a reserved bit of its endpoint word ends it INVALID_COMMAND, with
the record of R123. -/
def Core.sbStartMsg (env : CoreEnv) (c : Core) : Core :=
  let e := c.engine 6
  if e.stop || decide (c.rs = .fenced) || c.pause.isSome then c
  else match e.queue with
    | .msg ep ce cnt payload :: rest =>
      let c := c.setEngine 6 { e with queue := rest }
      let w1 := BitVec.ofNat 64 (fld ep 0 28 + cnt.toNat * 2 ^ 32 + ce.toNat * 2 ^ 36)
      if fld ep 28 36 ≠ 0 then c.engFault env 6 ⟨0x01, none, none⟩ 0 w1 payload
      else
        let r : SbActive :=
          { id := e.nextId, kind := .msg, cmd := ⟨0, w1, 0, ep⟩, payload := payload, cnt := cnt, ce := ce,
            started := false, todo := [{ mem := ep.toNat, scr := 0, len := 32, herd := false }], out := 0,
            bytes := 0, err := 0, faulted := none, stream := [], efault := none, errAddr := 0, got := [], void := false,
            reads := [], dests := [], tainted := false }
        c.setEngine 6 { c.engine 6 with active := e.active ++ [r], nextId := e.nextId + 1 }
    | _ => c

/-! Entries and slots. -/

/-- Updates a started entry by its number. -/
def Core.sbUpd (c : Core) (id : Nat) (f : SbActive → SbActive) : Core :=
  let e := c.engine 6
  c.setEngine 6 { e with active := e.active.map fun r => if r.id = id then f r else r }

/-- A tracked slot. -/
def Engine.slot (e : Engine) (n : Nat) : Option SbSlot := SMap.get (fun _ => none) e.slots n

/-- The first slot that is free (R118). -/
def Engine.freeSlot (e : Engine) : Option Nat := (rangeFrom 0 16).find? fun n => (e.slot n).isNone

/-- Frees a slot. -/
def Core.sbFree (c : Core) (n : Nat) : Core :=
  let e := c.engine 6
  c.setEngine 6 { e with slots := SMap.set (fun _ => none) e.slots n none }

/-- The entry whose request is to be issued next (R82, R119, R125): the first with one left, if it is
not stopped on a fault. -/
def Core.sbNext (c : Core) : Option SbActive :=
  match (c.engine 6).active.find? fun r => !r.todo.isEmpty with
  | some r => if r.faulted.isSome then none else some r
  | none => none

/-- The first error of an entry (R119): its code and address are kept and no further request issues. -/
def SbActive.fail (r : SbActive) (code addr : Nat) : SbActive :=
  if r.err = 0 ∧ r.efault.isNone then { r with err := code, errAddr := addr, todo := [] } else { r with todo := [] }

/-- A fault of the engine itself ends the entry (R78, R120). -/
def SbActive.failEng (r : SbActive) (f : EngFault) : SbActive :=
  if r.err = 0 ∧ r.efault.isNone then { r with efault := some f, todo := [] } else { r with todo := [] }

/-- The tag of a packet: slot and generation (R176). -/
def tagOf (slot gen : Nat) : Nat := slot % 16 + 16 * (gen % 16)

/-- The slot a reply belongs to, if its generation matches. -/
def Core.sbReplySlot (c : Core) (tag : Nat) : Option (Nat × SbSlot) :=
  match (c.engine 6).slot (tag % 16) with
  | some sl => if sl.gen % 16 = tag / 16 % 16 then some (tag % 16, sl) else none
  | none => none

/-- Takes a slot for a request of an entry: the request leaves the list, and the entry has one more
outstanding. -/
def Core.sbTake (c : Core) (n : Nat) (r : SbActive) (sl : SbSlot) : Core :=
  let e := c.engine 6
  let c := c.setEngine 6 { e with slots := SMap.set (fun _ => none) e.slots n (some sl), gen := e.gen + 1 }
  c.sbUpd r.id fun r => { r with todo := r.todo.tail, out := r.out + 1, started := true }

/-- Writes bytes that a request received into scratch or the program store, or keeps them as part of
a stream; a disturbed entry writes free values (R55), and a shared word is left free (R77). -/
def Core.sbDeliver (env : CoreEnv) (c : Core) (r : SbActive) (a : Nat) (l : List Byte) : Core :=
  if r.kind = .pload then { c with pstore := Mem.write c.pstore a l }
  else if r.kind = .get ∧ r.cmd.z then c
  else if r.tainted then c.freeWrite env a l
  else c.write env a l r.shared

/-- The bytes of a list that do not lie in a poisoned 64 B line: pairs of offset and byte. -/
def cleanBytes (addr : Nat) (poison : List Nat) : Nat → List Byte → List (Nat × Byte)
  | _, [] => []
  | i, b :: t =>
    let rest := cleanBytes addr poison (i + 1) t
    if poison.contains ((addr % 64 + i) / 64) then rest else (i, b) :: rest

/-- Received data goes to its place, byte by byte where a line is poisoned (R193, R226). -/
def Core.sbData (env : CoreEnv) (c : Core) (r : SbActive) (pc : SbPiece) (p : Pkt) : Core :=
  if p.poison.isEmpty then
    let c := c.sbDeliver env r pc.scr p.data
    c.sbUpd r.id fun r => { r with
      bytes := r.bytes + p.data.length,
      stream := if r.kind = .get ∧ r.cmd.z then setRange r.stream pc.scr p.data else r.stream }
  else
    let good := cleanBytes p.addr p.poison 0 p.data
    let c := good.foldl (fun c (i, b) => c.sbDeliver env r (pc.scr + i) [b]) c
    c.sbUpd r.id fun r => { r.fail 5 pc.mem with bytes := r.bytes + good.length }
where
  /-- Bytes of a list replaced from an index; the list grows with zeros as needed. -/
  setRange (l : List Byte) (i : Nat) (d : List Byte) : List Byte :=
    (l ++ List.replicate (i + d.length - l.length) 0#8).take i ++ d ++ l.drop (i + d.length)

/-- A collective holds every chunk of its result. -/
def collDone (red : Nat) (r : SbActive) : Bool :=
  decide ((collBytes red r.cmd.len + 255) / 256 ≤ r.got.length)

/-- What an entry needs to know of its context: its format, and how many legs multicast each of the chunks that this
core is the origin of. -/
structure CtxInfo where
  red : Nat
  legs : Nat
  deriving DecidableEq, Repr

/-- Has every request of an entry ended? A collective also waits for its result, and at the origin of a multicast for
the tail acknowledgements of its chunks (R117, R188). -/
def SbActive.finished (r : SbActive) (x : CtxInfo) : Bool :=
  r.todo.isEmpty && decide (r.out = 0) && r.faulted.isNone &&
    (decide (r.kind ≠ .coll) || decide (r.err ≠ 0) || r.efault.isSome ||
      (collDone x.red r && decide (x.legs * ((collBytes x.red r.cmd.len + 255) / 256) ≤ r.tails)))

/-- Does an entry end on a fault rather than complete (R48, R119, R120)? -/
def SbActive.faults (r : SbActive) : Bool := r.efault.isSome || (decide (r.err ≠ 0) && (!r.cmd.st || decide (r.kind = .msg)))

/-- The unpacked bytes of a `springbok.get` with z = 1, and whether its stream is corrupt (R120): the bytes are then
those of the chunks before (R115). -/
def SbActive.unpacked (r : SbActive) : List Byte × Bool :=
  if r.kind = .get ∧ r.cmd.z ∧ r.err = 0 then
    let (l, bad) := unpackChunks (64 * r.cmd.sPitch) r.stream.length r.stream
    (l.flatten, bad)
  else ([], false)

/-- Writes what a `springbok.get` with z = 1 unpacked (R120). -/
def Core.sbUnpack (env : CoreEnv) (c : Core) (r : SbActive) : Core :=
  let un := r.unpacked.1
  if un.isEmpty then c
  else if r.tainted then c.freeWrite env r.cmd.sAddr un
  else c.write env r.cmd.sAddr un r.shared

/-- The bytes that an entry has moved (R119, R123): those unpacked by a get with z = 1, those of the stream of a put
with z = 1, and the bytes of a cput with z = 1 once its stream has arrived whole. -/
def SbActive.doneBytes (r : SbActive) : Nat :=
  if r.cmd.z then
    match r.kind with
    | .get => r.unpacked.1.length
    | .put => if r.err = 0 ∧ r.efault.isNone then r.stream.length else r.bytes
    | .cput => if r.err = 0 ∧ r.efault.isNone ∧ r.todo.isEmpty ∧ r.out = 0 then r.cmd.len else 0
    | _ => r.bytes
  else r.bytes

/-- Completes the first finished entry whose counter no earlier entry holds back (R82, R119): the
status word, then the counter. `red` gives the format of an entry's context. -/
def Core.sbComplete (env : CoreEnv) (c : Core) (red : Nat → CtxInfo) : Core :=
  let e := c.engine 6
  let ok := fun (r : SbActive) (before : List SbActive) =>
    r.finished (red (fld r.cmd.w0 38 6)) && !r.faults && !(r.unpacked.2)
      && (!r.ce || !before.any (fun b => b.ce && decide (b.cnt = r.cnt)))
  let rec pick (before : List SbActive) : List SbActive → Option SbActive
    | [] => none
    | r :: t => if ok r before then some r else pick (before ++ [r]) t
  match pick [] e.active with
  | none => c
  | some r =>
    let c := c.setEngine 6 { e with active := e.active.filter (fun x => decide (x.id ≠ r.id)), faulted := false }
    let c := c.sbUnpack env r
    let done := r.doneBytes
    let c := if r.cmd.st ∧ r.kind ≠ .msg then
        { c with scratch := Mem.write c.scratch r.cmd.stAddr (natToBytes 8 (r.err % 256 + done % 2 ^ 32 * 2 ^ 32)) }
      else c
    if r.ce then c.incCnt r.cnt else c

/-- Ends the first finished entry that a fault ends (R119, R122, R124); what a get with z = 1 unpacked before a corrupt
chunk stays (R115). -/
def Core.sbFaultEnd (env : CoreEnv) (c : Core) (red : Nat → CtxInfo) (recOk : Bool) : Core :=
  let e := c.engine 6
  match e.active.find? fun r => r.finished (red (fld r.cmd.w0 38 6)) && (r.faults || r.unpacked.2) with
  | none => c
  | some r =>
    let c := c.setEngine 6 { e with active := e.active.filter fun x => decide (x.id ≠ r.id) }
    let f : EngFault := match r.efault with
      | some f => f
      | none => if r.faults then ⟨0x08, some r.err, some r.errAddr⟩ else ⟨0x09, none, none⟩
    if r.kind = .msg then c.engFault env 6 f 0 r.cmd.w1 r.payload recOk
    else (c.sbUnpack env r).cmdFault env 6 r.cmd f r.doneBytes recOk

/-! The start rows. -/

/-- Format and definition of a context (R285). -/
def State.ctxRed (s : State) (n : Nat) : Nat := s.rfld (R.colCtx n) 19 3

/-- Legs that multicast a chunk of a broadcast from its source core: the rows of the dies that are up (R185, R287). -/
def State.ctxLegs (s : State) (n key : Nat) : Nat :=
  let w := s.reg (R.colCtx n)
  let (d, r, c) := keyPos key
  if fld w 1 2 = 1 ∧ d = fld w 46 3 ∧ r = fld w 30 4 ∧ c = s.physCol d r (fld w 38 4) then
    ((rangeFrom 0 8).filter fun d => bit w (22 + d) && s.dieUp d).length * (fld w 34 4 + 1 - fld w 30 4)
  else 0

/-- What an entry of a core needs to know of a context. -/
def State.ctxInfo (s : State) (key n : Nat) : CtxInfo := { red := s.ctxRed n, legs := s.ctxLegs n key }

/-- Does a core take part in a context, and does it contribute (R285, R289)? In a broadcast only the
source core on the root does. -/
def State.ctxSends (s : State) (n : Nat) (k : Nat) : Bool :=
  let w := s.reg (R.colCtx n)
  let (d, r, c) := keyPos k
  let l := s.logCol d r c
  if fld w 1 2 = 0 then
    bit w (22 + d) && decide (fld w 30 4 ≤ r) && decide (r ≤ fld w 34 4) && decide (fld w 38 4 ≤ l) && decide (l ≤ fld w 42 4)
  else
    let me := if bit w 3 then s.rfld R.fabTopo 8 4 else s.rfld R.fabTopo 0 5
    let size := if bit w 3 then s.rfld R.fabTopo 24 5 else s.rfld R.fabTopo 16 6
    let n' := fld w 10 6
    let root := if size = 0 then 0 else
      if bit w 4 then (fld w 5 5 + size * 32 - (n' - 1)) % size else (fld w 5 5 + n' - 1) % size
    decide (me = root) && decide (d = fld w 46 3) && decide (r = fld w 30 4) && decide (l = fld w 38 4)

/-- Starts the head springbok command of a core. -/
def State.sbStart (s : State) (c : CoreId) (op : Nat) (k : SbKind) (ecc : Ecc := .ok) : State :=
  let ctx := match (s.coreAt c.key).headOp 6 op with | some q => fld q.w0 38 6 | none => 0
  s.onCore c fun env co => co.sbStart env op k (s.ctxRed ctx) (s.ctxSends ctx c.key) ecc

def execSpringbokGet (c : CoreId) (s : State) : Host.Outcome State Fault Refusal := .next (s.sbStart c 0x01 .get)
def execSpringbokPut (c : CoreId) (s : State) : Host.Outcome State Fault Refusal := .next (s.sbStart c 0x02 .put)
def execSpringbokCput (c : CoreId) (s : State) : Host.Outcome State Fault Refusal := .next (s.sbStart c 0x03 .cput)
def execSpringbokGather (g : GatherStart) (s : State) : Host.Outcome State Fault Refusal := .next (s.sbStart g.core 0x04 .gather g.ecc)
def execSpringbokAtom (c : CoreId) (s : State) : Host.Outcome State Fault Refusal := .next (s.sbStart c 0x05 .atom)
def execSpringbokPload (c : CoreId) (s : State) : Host.Outcome State Fault Refusal := .next (s.sbStart c 0x06 .pload)
def execSpringbokColl (c : CoreId) (s : State) : Host.Outcome State Fault Refusal := .next (s.sbStart c 0x07 .coll)

def execSpringbokSndMsg (c : CoreId) (s : State) : Host.Outcome State Fault Refusal :=
  .next (s.onCore c fun env co => co.sbStartMsg env)

/-- A command completes; a correction of a word that it read raises source 28 (R78). -/
def execCommandComplete (c : CoreId) (e : EngEnd) (s : State) : Host.Outcome State Fault Refusal :=
  .next (s.onCore c fun env co =>
    if e.eng.val = 6 then co.sbComplete env (s.ctxInfo c.key)
    else (if e.corrected && (co.engine e.eng.val).run.isSome then co.edge 28 else co).complete env e.eng.val)

/-- A command ends on a fault (R124). -/
def execEngineFault (c : CoreId) (eng : Eng) (f : FaultSeen) (s : State) : Host.Outcome State Fault Refusal :=
  .next (s.onCore c fun env co =>
    if (co.engine eng.val).run.isSome then co.runFault env eng.val f.ecc f.recOk
    else if eng.val = 6 ∧ ((co.engine 6).active.any fun r => r.finished (s.ctxInfo c.key (fld r.cmd.w0 38 6)) && (r.faults || r.unpacked.2))
    then co.sbFaultEnd env (s.ctxInfo c.key) f.recOk
    else co.unassigned env eng.val f.recOk)

def execEngineRestartPoint (c : CoreId) (eng : Eng) (k : Nat) (s : State) : Host.Outcome State Fault Refusal :=
  .next (s.onCore c fun env co => co.reachRestart env eng.val k)

end Sys2Proof.Machine
end

