-- ==== Sys2Proof/Machine/SpringbokNet.lean ====
section
/-!
DEFINITION. springbok's requests and their replies (R118, R119, R234 to R245, R274, R303 to R306): the
next request, its translation, its packet, and what each reply does.
-/

namespace Sys2Proof.Machine

/-- A packet of a core of this device, addressed to nothing yet. -/
def State.pktFrom (s : State) (key : Nat) (type tag : Nat) : Pkt :=
  let (d, r, c) := keyPos key
  { Pkt.empty with
    type := type, srcDev := s.devIndex, srcDie := d, srcRow := r, srcCol := c, dstDev := s.devIndex, tag := tag,
    job := fld (s.coreAt key).job 0 6, epoch := s.epoch }

/-! Ranks, slots of a herd, translation. -/

/-- The 16-bit entry `i` of a table held four to a register: valid and device (R301, R327). -/
def State.devEntry (s : State) (base i : Nat) : Option Nat :=
  let w := s.reg (base + 8 * (i / 4))
  if bit w (16 * (i % 4) + 15) then some (fld w (16 * (i % 4)) 9) else none

/-- The device of a job-local rank (R274). -/
def State.rankDev (s : State) (job rank : Nat) : Option Nat := s.devEntry (R.fabRank 0) (512 * job + rank)

/-- The device of a herd slot (R304). -/
def State.herdDev (s : State) (slot : Nat) : Option Nat := s.devEntry (R.fabHerd 0) slot

/-- What the TLBs and the root say of an address (R237, R238). -/
inductive Xlat where
  | hit (t : Tlb)
  | miss
  | fault (cause : Nat)
  deriving DecidableEq, Repr

/-- Does a cached translation hold an address of a job? -/
def Tlb.covers (t : Tlb) (job va : Nat) : Bool := decide (t.job = job) && decide (t.va ≤ va) && decide (va < t.va + t.size)

/-- The micro-TLB of a core and the TLB of a die. -/
def State.utlb (s : State) (key : Nat) : List Tlb := SMap.get (fun _ => []) s.mmu.utlb key
def State.dtlb (s : State) (d : Nat) : List Tlb := SMap.get (fun _ => []) s.mmu.tlb d

/-- Adds a translation, the oldest leaving when the TLB is full (log entry 16). -/
def tlbAdd (cap : Nat) (l : List Tlb) (t : Tlb) : List Tlb :=
  let l := l.filter (fun x => decide (x ≠ t))
  (if l.length < cap then l else l.drop (l.length + 1 - cap)) ++ [t]

/-- The set of the die TLB that a translation goes to, of the 1,024 that 8,192 entries in 8 ways make (DESIGN CHOICE,
log entry 16). -/
def Tlb.set (t : Tlb) : Nat := t.va / t.size % 1024

/-- Adds a translation to a die TLB, the oldest of its set leaving when the 8 ways are full. -/
def dtlbAdd (l : List Tlb) (t : Tlb) : List Tlb :=
  let l := l.filter fun x => decide (x ≠ t)
  match l.filter fun x => decide (x.set = t.set) with
  | [] => l ++ [t]
  | old :: same => (if same.length < 7 then l else l.filter fun x => decide (x ≠ old)) ++ [t]

/-- Fills the TLBs with a translation (R238). -/
def State.fillDie (s : State) (d : Nat) (t : Tlb) : State :=
  { s with mmu := { s.mmu with tlb := SMap.set (fun _ => []) s.mmu.tlb d (dtlbAdd (s.dtlb d) t) } }
def State.fillTlb (s : State) (key : Nat) (t : Tlb) : State :=
  { s with mmu := { s.mmu with
      utlb := SMap.set (fun _ => []) s.mmu.utlb key (tlbAdd 64 (s.utlb key) t) } }.fillDie (key / 288) t

/-- Do all 32 walkers of a die work (R238)? -/
def State.walkersBusy (s : State) (d : Nat) : Bool := decide (32 ≤ (s.mmu.walks.filter fun w => decide (w.core / 288 = d)).length)

/-- Translates an address of a job for a core: from the TLBs, else by the root's checks (R237). -/
def State.translate (s : State) (key job va : Nat) (write : Bool) : Xlat :=
  match (s.utlb key ++ s.dtlb (key / 288)).find? fun t => t.covers job va with
  | some t => if write && !t.w then .fault 0x02 else .hit t
  | none =>
    let root := s.reg (R.mmuJobRoot job)
    if !bit root 0 then .fault 0x06 else if 1 < fld root 4 2 then .fault 0x03 else .miss

/-- Raises a translation fault (R242): a new fault id, PAGE_FAULT, and source 17 after TABLE_ERROR. -/
def State.raiseFault (s : State) (key job va access cause kind : Nat) : State × Nat :=
  let (d, r, c) := keyPos key
  let gen := (SMap.get (fun _ => 0) s.mmu.gen d + 1) % 2 ^ 21
  let id := d * 2 ^ 29 + r * 2 ^ 25 + s.logCol d r c * 2 ^ 21 + gen
  let f : MFault := { id := id, core := key, job := job, va := va, access := access, cause := cause, kind := kind, raised := s.now }
  let s := { s with mmu := { s.mmu with gen := SMap.set (fun _ => 0) s.mmu.gen d gen, faults := s.mmu.faults ++ [f] } }
  let s := s.event 0x0701 (natToBytes 4 id ++ b1 job ++ natToBytes 8 va ++ b1 access ++ b1 cause ++ b1 kind)
  let s := s.count R.mmuFaultStatus 0 32
  (if cause = 0x05 then s.dieEdge d 17 else s, id)

/-- A fault of a job transfer stops its entry (R125, R242). -/
def State.sbFaulted (s : State) (key : Nat) (r : SbActive) (va access cause : Nat) : State :=
  let (s, id) := s.raiseFault key (fld (s.coreAt key).job 0 6) va access cause 0
  s.onKey key fun _ c => c.sbUpd r.id fun r => { r with faulted := some id }

/-- Access code of a request (R242). -/
def SbKind.access : SbKind → Nat
  | .put => 1 | .atom => 2 | .pload => 3 | _ => 0

/-! The next request. -/

/-- An error met before a request leaves (R119). -/
def State.sbFail (s : State) (key : Nat) (r : SbActive) (code addr : Nat) : State :=
  s.onKey key fun _ c => c.sbUpd r.id fun r => r.fail code addr

/-- The data of a request: bytes of scratch, or of the packed stream, or the operands of an atomic. -/
def sbPayload (c : Core) (r : SbActive) (pc : SbPiece) : List Byte :=
  match r.kind with
  | .put | .cput => if r.cmd.z then (r.stream.drop pc.scr).take pc.len else Mem.bytes c.scratch pc.scr pc.len
  | .coll => Mem.bytes c.scratch pc.scr pc.len
  | .atom =>
    if bit r.cmd.w2 3 then Mem.bytes c.scratch pc.scr 16
    else Mem.bytes c.scratch pc.scr 4 ++ List.replicate 4 0#8 ++ Mem.bytes c.scratch (pc.scr + 8) 4 ++ List.replicate 4 0#8
  | .msg => wordBytes r.payload.w0 ++ wordBytes r.payload.w1 ++ wordBytes r.payload.w2 ++ wordBytes r.payload.w3
  | _ => []

/-- Transport timeout T in ns: below 4 ms a free value (R316). -/
def State.xportT (s : State) : Nat :=
  if s.rfld R.fabXportCtl 0 16 < 4 then (s.freeWord 0).toNat else s.rfld R.fabXportCtl 0 16 * 1000000

/-- Takes an acknowledgement that a die owes a device, to ride on a packet there (R320). -/
def State.takeAck (s : State) (d dev : Nat) : State × Option (Nat × Nat) :=
  match s.xport.acks.find? fun (v, k, _) => decide (v = dev) && decide (k / 288 = d) with
  | none => (s, none)
  | some (v, k, tag, t) => ({ s with xport := { s.xport with acks := s.xport.acks.erase (v, k, tag, t) } }, some (k, tag))

/-- A core puts a packet on its die's mesh; on one to another device rides an acknowledgement that is due there (R320). -/
def State.emitCore (s : State) (key : Nat) (p : Pkt) : State :=
  if p.dstDev = s.devIndex then s.emit (.mesh key 4 p)
  else
    let (s, a) := s.takeAck (key / 288) p.dstDev
    s.emit (.mesh key 4 { p with xack := a })

/-- Sends a request's packet: within this device at once, to another device through a transport slot (R313 to R315; the
slot is taken, and t0 set, as springbok issues: log entry 87). -/
def State.sbSend (s : State) (key slot : Nat) (p : Pkt) : State :=
  if p.dstDev = s.devIndex then s.emitCore key p
  else
    let p := { p with t0 := s.now / 1000 % 2 ^ 32 }
    let x : XSlot := { pkt := p, attempts := 1, sentAt := s.now, retries := 0, retryAt := none, timeout := s.xportT }
    { s with xport := { s.xport with slots := SMap.set (fun _ => none) s.xport.slots (16 * key + slot) (some x) } }.emitCore key p

/-- Takes a slot and sends the packet that `mk` builds for its tag. -/
def State.sbGo (s : State) (key : Nat) (r : SbActive) (pc : SbPiece) (dest : Nat) (page : Option (Nat × Nat × Nat))
    (mk : Nat → Pkt) : State :=
  let e := (s.coreAt key).engine 6
  match e.freeSlot with
  | none => s
  | some n =>
    let p := mk (tagOf n e.gen)
    let sl : SbSlot := { entry := r.id, piece := pc, gen := e.gen % 16, t0 := s.now, dest := dest, refused := false,
                         page := page, pkt := if r.kind = .msg then some p else none }
    (s.onKey key fun _ c => c.sbTake n r sl).sbSend key n p

/-- The packet of a memory request (R175, R177, R308). -/
def State.sbMemPkt (s : State) (key : Nat) (r : SbActive) (pc : SbPiece) (addr tag : Nat) (host hc : Bool) (dev : Nat) : Pkt :=
  let type := match r.kind with | .put => PT.memWr | .atom => PT.memAtom | _ => PT.memRd
  let aux := match r.kind with | .atom => fld r.cmd.w2 0 4 | _ => pc.len - 1
  { s.pktFrom key type tag with
    aux := aux, addr := addr, host := host, hc := hc, dstDev := dev, data := sbPayload (s.coreAt key) r pc }

/-- Issues a request to memory: translated (h = 0) or through the herd map (h = 1) (R234, R304, R305). -/
def State.sbIssueMem (s : State) (key : Nat) (r : SbActive) (pc : SbPiece) : State :=
  if pc.herd then
    match s.herdDev (pc.mem / 2 ^ 39 % 128) with
    | none => s.sbFail key r 1 pc.mem
    | some dev =>
      let off := pc.mem % 2 ^ 39
      if dev = s.devIndex then
        if s.capacity ≤ off then s.sbFail key r 5 pc.mem
        else s.sbGo key r pc dev none fun tag => s.sbMemPkt key r pc off tag false false dev
      else s.sbGo key r pc dev none fun tag => s.sbMemPkt key r pc (pc.mem % 2 ^ 46) tag false false dev
  else
    let job := fld (s.coreAt key).job 0 6
    let va := pc.mem % 2 ^ 48
    let d := key / 288
    let missed := !(s.utlb key).any fun t => t.covers job va
    let counted := if missed then s.count (R.dieMmuStats d) 0 32 else s
    match s.translate key job va (decide (r.kind = .put) || decide (r.kind = .atom)) with
    | .fault cause => counted.sbFaulted key r va r.kind.access cause
    | .hit t =>
      let s := if missed then counted.fillTlb key t else s
      s.sbGo key r pc s.devIndex (some (job, t.va, t.size)) fun tag =>
        s.sbMemPkt key r pc (t.pa + (va - t.va)) tag (decide (t.tgt = 1)) t.hc s.devIndex
    | .miss =>
      if s.walkersBusy d then s
      else
        let root := s.reg (R.mmuJobRoot job)
        let w : Walk := { core := key, job := job, va := va, access := r.kind.access, kind := 0, level := 0,
                          table := fld root 12 36 * 2 ^ 12, tgt := fld root 4 2 }
        { counted with mmu := { s.mmu with walks := s.mmu.walks ++ [w] } }.count (R.dieMmuStats d) 32 32

/-- Issues a CPUT or a message (R46, R49, R117, R120, R274). The last piece of a packed stream, and the request that
carries the increment, leave once every other one has been acknowledged. -/
def State.sbIssueCore (s : State) (key : Nat) (r : SbActive) (pc : SbPiece) : State :=
  let ep := if r.kind = .msg then fld r.cmd.w3 0 28 else fld r.cmd.w3 0 28
  let job := fld (s.coreAt key).job 0 6
  match s.rankDev job (ep / 2 ^ 11 % 2 ^ 9) with
  | none => s.sbFail key r 1 pc.mem
  | some dev =>
    let d := ep / 2 ^ 8 % 8
    let row := ep / 16 % 16
    let col := s.physCol d row (ep % 16)
    let dest := dev * 2 ^ 11 + ep % 2 ^ 11
    let last := decide (r.todo.length = 1)
    let inc := if r.kind = .cput ∧ bit r.cmd.w0 48 ∧ last then some (fld r.cmd.w0 44 4) else none
    let busy := ((s.coreAt key).engine 6).slots.any fun (_, sl) =>
      match sl with | some sl => sl.pkt.isSome && decide (sl.dest = dest) | none => false
    if r.kind = .msg ∧ busy then s
    else if (inc.isSome ∨ (r.cmd.z ∧ last)) ∧ 0 < r.out then s
    else s.sbGo key r pc dest none fun tag =>
      { s.pktFrom key (if r.kind = .msg then PT.msg else PT.cput) tag with
        dstDev := dev, dstDie := d, dstRow := row, dstCol := if dev = s.devIndex then col else ep % 16,
        aux := if r.kind = .msg then ep / 2 ^ 20 % 2 ^ 8 else pc.len - 1,
        addr := if r.kind = .msg then 0 else if r.cmd.z then fld r.cmd.w3 28 21 else pc.mem, inc := inc,
        packed := if r.kind = .cput ∧ r.cmd.z then some (r.id, pc.mem / 256, last) else none, rank := fld (s.coreAt key).job 8 9, lcol := s.logCol (key / 288) (key % 288 / 18) (key % 18), dcol := ep % 16,
        ordered := decide (r.kind = .msg), data := sbPayload (s.coreAt key) r pc }

/-- The collector of a context on a die: the router of the egress group of its first core (log entry
19). -/
def State.collector (s : State) (w : Word) (d : Nat) : Nat × Nat :=
  let r := fld w 30 4
  groupPos (s.egressGroup d r (s.physCol d r (fld w 38 4)))

/-- Chunks of a context that are open at a router, or on their way to it (R183). -/
def State.redOpen (s : State) (k ctx : Nat) : List Nat :=
  let rt : Router := SMap.get (fun _ => Router.reset) s.routers k
  (((rt.slots.filter fun x => decide (x.ctx = ctx)).map (·.chunk)) ++
    ((s.meshSync.mesh.flying.filter fun e => decide (e.dst = k) && decide (e.exit = 5) && decide (e.pkt.ctx = ctx)).map (·.pkt.chunk))).eraseDups

/-- Is there a credit for a chunk's combining slot at a router (R180, R183)? -/
def State.redCredit (s : State) (k ctx chunk : Nat) : Bool :=
  let l := s.redOpen k ctx
  l.contains chunk || decide (l.length < 2)

/-- Injects the next chunk of a collective (R182, R287, R289): only while its context is ready, and a contribution only
against a credit for its own router's combining slot (R180, R183). It holds no tracked slot, having no reply. -/
def State.sbIssueColl (s : State) (key : Nat) (r : SbActive) (pc : SbPiece) : State :=
  let ctx := fld r.cmd.w0 38 6
  let bcast := decide (s.rfld (R.colCtx ctx) 1 2 = 1)
  if s.rfld (R.colCtxStatus ctx) 0 3 ≠ 3 then s
  else if !bcast && !s.redCredit key ctx (pc.mem % 128) then s
  else
    let red := s.ctxRed ctx
    let (cr, cc) := s.collector (s.reg (R.colCtx ctx)) (key / 288)
    let p := { s.pktFrom key (if bcast then PT.mcast else PT.red) 0 with
               dstDie := key / 288, dstRow := cr, dstCol := cc
               red := if bcast then 0 else red, ctx := ctx, chunk := pc.mem % 128, data := sbPayload (s.coreAt key) r pc }
    (s.onKey key fun _ c => c.sbUpd r.id fun r => { r with todo := r.todo.tail, started := true }).emitCore key p

/-- The scratch address that the error of a request concerns (R123): its own, or with z = 1 that of the chunk of input
whose packed bytes it carries (R112). -/
def SbActive.eccAddr (c : Core) (r : SbActive) (pc : SbPiece) : Nat :=
  if r.cmd.z then
    let lens := (packChunks (fld r.cmd.w0 50 2) r.cmd.len (Mem.bytes c.scratch r.cmd.sAddr r.cmd.len)).map List.length
    r.cmd.sAddr + 4096 * chunkOf pc.scr lens
  else pc.scr
where
  /-- Which of a run of lengths an offset falls in. -/
  chunkOf (off : Nat) : List Nat → Nat
    | [] => 0
    | n :: t => if off < n then 0 else 1 + chunkOf (off - n) t

/-- Issues the next request of a core's springbok (R82, R118): none while the core is down, asked to
stop or paused, while a walk of it runs, or without a free slot. A corrected word of scratch raises source 28, and an
uncorrectable one ends the entry (R78). -/
def State.sbIssue (s : State) (key : Nat) (ecc : Ecc) : State :=
  let c := s.coreAt key
  let e := c.engine 6
  if decide (c.rs = .fenced) || e.stop || c.pause.isSome || e.freeSlot.isNone || s.mmu.walks.any (fun w => decide (w.core = key) && decide (w.kind = 0)) then s
  else match c.sbNext with
    | none => s
    | some r =>
      match r.todo with
      | [] => s
      | pc :: _ =>
        let readsScratch := decide (r.kind = .put) || decide (r.kind = .cput) || decide (r.kind = .atom) || decide (r.kind = .coll)
        if readsScratch && decide (ecc = .uncorrectable) then
          s.onKey key fun _ c => c.sbUpd r.id fun r => r.failEng ⟨0x04, none, some (r.eccAddr c pc)⟩
        else
        let s := if readsScratch && decide (ecc = .corrected) then s.onKey key fun _ c => c.edge 28 else s
        match r.kind with
          | .cput | .msg => s.sbIssueCore key r pc
          | .coll => s.sbIssueColl key r pc
          | _ => s.sbIssueMem key r pc

def execSpringbokRequestIssue (c : CoreId) (ecc : Ecc) (s : State) : Host.Outcome State Fault Refusal :=
  .next (s.sbIssue c.key ecc)

/-! Replies. -/

/-- Counts a header error on a die's mesh; an uncorrectable one also notifies the die controller
(R175, R193). -/
def State.meshDiscard (s : State) (d : Nat) : State := (s.count (R.dieMeshErr d) 32 32).dieEdge d 19

/-- Receives a packet on a die's mesh where `there` says, of expected type: one that is still on its way, or that what
it reaches cannot take yet (`f` answers none), stays where it is; a bad header or field discards it, corrected
words and a corrected header are counted, a die that is down takes nothing (R175, R179, R193). -/
def State.meshTry (s : State) (p : Pkt) (type : Nat) (there : Nat → MeshPkt → Bool) (f : State → Nat → Option State) : State :=
  match p.toCore with
  | none => s.meshDiscard (p.dstDie % 8)
  | some key =>
    let d := p.dstDie
    if !s.dieUp d then s
    else match s.meshTake p (there key) with
    | none => s
    | some t =>
      if p.hdr = .uncorrectable then t.meshDiscard d
      else
        let n := p.fixed + if p.hdr = .corrected then 1 else 0
        let t := if n = 0 then t else t.countBy (R.dieMeshErr d) 0 32 n
        if p.type ≠ type || !p.meshValid then t.meshDiscard d else (f t key).getD s

/-- Receives a packet for a core. -/
def State.meshRecv (s : State) (p : Pkt) (type : Nat) (f : State → Nat → State) : State :=
  s.meshTry p type atCore fun s k => some (f s k)

/-- Ends a request: its slot frees and its entry has one fewer outstanding. -/
def State.sbEnd (s : State) (key n : Nat) (sl : SbSlot) (f : CoreEnv → Core → SbActive → Core) : State :=
  s.onKey key fun env c =>
    let c := c.sbFree n
    let c := c.sbUpd sl.entry fun r => { r with out := r.out - 1 }
    match (c.engine 6).active.find? fun r => decide (r.id = sl.entry) with
    | some r => f env c r
    | none => c

/-- A reply to a core's springbok: discarded at a fenced core or when no slot matches (R190). -/
def State.sbReply (s : State) (p : Pkt) (type : Nat) (f : CoreEnv → Core → SbActive → SbSlot → Core) : State :=
  s.meshRecv p type fun s key =>
    let c := s.coreAt key
    if c.rs = .fenced then s
    else match c.sbReplySlot p.tag with
      | none => s
      | some (n, sl) => s.sbEnd key n sl fun env c r => f env c r sl

def execMemRdData (p : Pkt) (s : State) : Host.Outcome State Fault Refusal :=
  .next (s.sbReply p PT.memRdData fun env c r sl => c.sbData env r sl.piece p)

/-- A write's acknowledgement counts its bytes; an atomic's old value goes to s_addr + 16, the high
bytes 0 for a 32-bit one (R117, R309). -/
def execMemAck (p : Pkt) (s : State) : Host.Outcome State Fault Refusal :=
  .next (s.sbReply p PT.memAck fun env c r sl =>
    if r.kind = .atom then
      if p.poison.isEmpty then
        let old := if bit r.cmd.w2 3 then p.data.take 8 else p.data.take 4 ++ List.replicate 4 0#8
        (c.sbDeliver env r (r.cmd.sAddr + 16) old).sbUpd r.id fun r => { r with bytes := r.bytes + 8 }
      else c.sbUpd r.id fun r => r.fail 5 sl.piece.mem
    else c.sbUpd r.id fun r => { r with bytes := r.bytes + sl.piece.len })

def execCputAck (p : Pkt) (s : State) : Host.Outcome State Fault Refusal :=
  .next (s.sbReply p PT.cputAck fun _ c r sl => c.sbUpd r.id fun r => { r with bytes := r.bytes + sl.piece.len })

def execMsgAccept (p : Pkt) (s : State) : Host.Outcome State Fault Refusal :=
  .next (if p.type = PT.msgAccept ∧ p.dstDie = noteSrc then s.noteEnd (p.tag % 256)
    else s.sbReply p PT.msgAccept fun _ c r _ => c.sbUpd r.id fun r => { r with bytes := 32 })

/-- A refused message keeps its slot and is sent again (R48). -/
def execMsgRefuse (p : Pkt) (s : State) : Host.Outcome State Fault Refusal :=
  .next (if p.type = PT.msgRefuse ∧ p.dstDie = noteSrc then s.sendNote (p.tag % 256)
    else s.meshRecv p PT.msgRefuse fun s key =>
    let c := s.coreAt key
    if c.rs = .fenced then s
    else match c.sbReplySlot p.tag with
      | none => s
      | some (n, sl) =>
        match sl.pkt with
        | none => s
        | some q =>
          let e := c.engine 6
          (s.setCore key (c.setEngine 6 { e with
            slots := SMap.set (fun _ => none) e.slots n (some { sl with refused := true }) })).sbSend key n q)

/-- The code with which a receiving core's stream pipe refuses a stream; the spec names none (DESIGN CHOICE, log entry
24). -/
def streamBad : Nat := 0x09

/-- A failure reply records its code (R119); one of the receiving stream pipe ends the command with CORRUPT_STREAM
(R120). -/
def execStatus (p : Pkt) (s : State) : Host.Outcome State Fault Refusal :=
  .next (if p.type = PT.status ∧ p.dstDie = noteSrc then (s.count R.bolStreamErr 48 16).noteEnd (p.tag % 256)
    else s.sbReply p PT.status fun _ c r sl => c.sbUpd r.id fun r =>
      if r.kind = .cput ∧ r.cmd.z ∧ p.aux % 256 = streamBad then r.failEng ⟨0x09, none, none⟩
      else r.fail (p.aux % 256) sl.piece.mem)

/-- Ends a request that got no reply in time. -/
def State.sbTimeout (s : State) (c : CoreId) (slot : Nat) (limit : SbActive → Nat) (ok : SbSlot → Bool) (code : SbActive → Nat) : State :=
  match ((s.coreAt c.key).engine 6).slot slot with
  | none => s
  | some sl =>
    match ((s.coreAt c.key).engine 6).active.find? fun r => decide (r.id = sl.entry) with
    | none => s
    | some r =>
      if ok sl && decide (limit r ≤ s.now - sl.t0) then
        s.sbEnd c.key slot sl fun _ co r => co.sbUpd r.id fun r => r.fail (code r) sl.piece.mem
      else s

/-- A message not accepted within T is dropped with MBOX_TIMEOUT (R48). -/
def execMailboxTimeout (c : CoreId) (slot : Fin 16) (s : State) : Host.Outcome State Fault Refusal :=
  .next (s.sbTimeout c slot.val (fun _ => s.xportT) (fun sl => sl.pkt.isSome && sl.refused) fun _ => 7)

/-- A request without reply within 4T (R324). -/
def execSpringbokGuardTimeout (c : CoreId) (slot : Fin 16) (s : State) : Host.Outcome State Fault Refusal :=
  .next (s.sbTimeout c slot.val (fun _ => 4 * s.xportT) (fun _ => true) fun r =>
    if r.kind = .get ∨ r.kind = .gather ∨ r.kind = .pload then 3 else 2)

end Sys2Proof.Machine
end

