-- ==== Sys2Proof/Machine/Memory.lean ====
section
/-!
DEFINITION. The memory stops (R221 to R233, R307, R308, R326): where a granule lives, the check of each
line read, retirement, lane repair, and the request a home performs.
-/

namespace Sys2Proof.Machine

/-- The home of an address: stack, pseudo-channel and offset within it (R224). -/
def State.home (s : State) (pa : Nat) : Nat × Nat × Nat :=
  let p := s.mem.map.length
  let n := nth 0 s.mem.map (pa / 256 % p)
  (n / 32, n % 32, pa / 256 / p * 256 + pa % 256)

/-- The address of an offset within a pseudo-channel under the effective map, if it is in it (R230). -/
def State.addrOf (s : State) (stack pc offset : Nat) : Option Nat :=
  match s.mem.map.findIdx? (fun n => decide (n = 32 * stack + pc)) with
  | some j => some ((offset / 256 * s.mem.map.length + j) * 256 + offset % 256)
  | none => none

/-- Does a line read as uncorrectable? -/
def State.lineBad (s : State) (line : Nat) : Bool := SMap.get (fun _ => false) s.mem.bad line

/-- Marks or clears a line. -/
def State.setLineBad (s : State) (line : Nat) (b : Bool) : State :=
  { s with mem := { s.mem with bad := SMap.set (fun _ => false) s.mem.bad line b } }

/-- Enters a pseudo-channel in the map-out list of the next cold reset (R233). -/
def State.pcFailing (s : State) (stack pc : Nat) : State :=
  if bit (s.reg (R.memStackStatus stack)) (32 + pc) then s
  else
    let s := s.setReg (R.memStackStatus stack) (setBit (s.reg (R.memStackStatus stack)) (32 + pc) true)
    ((s.shortWrite (.mapOut (32 * stack + pc))).event 0x0706 (b1 stack ++ b1 pc)).ledger 42

/-- Retires the 64 KiB frame of an address, unless it is on the list (R229, R230). -/
def State.retire (s : State) (pa cause : Nat) : State :=
  let frame := pa / 65536 * 65536
  let onList := s.mem.retired.any fun r => match s.addrOf r.stack r.pc r.offset with
    | some a => decide (a / 65536 * 65536 = frame)
    | none => false
  if onList then s
  else
    let n := s.mem.retired.length
    let (st, pc, off) := s.home pa
    let kept := decide (n < 4096)
    let s := if kept then
        let s := { s with mem := { s.mem with retired := s.mem.retired ++ [({ stack := st, pc := pc, offset := off, cause := cause } : Retired)] } }
        let s := s.setReg (R.memRetired n) (BitVec.ofNat 64
          (st * 2 ^ 60 + pc * 2 ^ 55 + frame / 65536 * 2 ^ 16 + cause * 2 + 1))
        (s.setRfld R.memRetireStatus 0 13 (n + 1)).shortWrite (.retired s.mem.retired)
      else s.setRfld R.memRetireStatus 16 1 1
    (s.event 0x0704 (natToBytes 8 frame ++ b1 cause ++ b1 kept.toNat)).ledger 40

/-- Counts an event in the window of the given start; the count of an older window is dropped. -/
def windowed (m : SMap (Nat × Nat)) (k win : Nat) : SMap (Nat × Nat) × Nat :=
  let (w, n) := SMap.get (fun _ => (0, 0)) m k
  let n := if w = win then n + 1 else 1
  (SMap.set (fun _ => (0, 0)) m k (win, n), n)

/-- The start of the 1 ms window in force (log entry 17). -/
def State.msWindow (s : State) : Nat := s.now / 1000000

/-- A SECDED correction on a lane: 16 in a window start the soft repair, or make the pseudo-channel
failing when its channel has no repair lane left (R232, R233). -/
def State.laneCorrected (s : State) (stack pc lane : Nat) : State :=
  let ch := pc / 2
  let (m, n) := windowed s.mem.lanes (4096 * stack + 256 * ch + lane % 256) s.msWindow
  let s := { s with mem := { s.mem with lanes := m } }
  if n < 16 ∨ (stack, ch, lane) ∈ s.mem.repairing then s
  else if Config.repairLanes ≤ SMap.get (fun _ => 0) s.mem.repairs (16 * stack + ch) then s.pcFailing stack pc
  else
    { s with mem := { s.mem with
        repairing := s.mem.repairing ++ [(stack, ch, lane)],
        repairs := SMap.set (fun _ => 0) s.mem.repairs (16 * stack + ch)
          (SMap.get (fun _ => 0) s.mem.repairs (16 * stack + ch) + 1) } }

/-- One read of a 64 B line by a memory stop (R226, R229, R232, R233): it answers whether the line is
good. A line that read as uncorrectable stays so until a whole-line write. -/
def State.readLine (s : State) (line : Nat) (r : LineRead) : State × Bool :=
  let pa := line * 64
  let (st, pc, _) := s.home pa
  if s.lineBad line || decide (r = .uncorrectable) then
    let s := s.setLineBad line true
    let s := (s.count (R.memStackErr st) 48 16).ledger 39
    let s := s.event 0x0703 (b1 st ++ b1 pc ++ natToBytes 8 pa)
    let s := s.retire pa 0
    let (m, n) := windowed s.mem.pcBad (32 * st + pc) s.hourWin
    let s := { s with mem := { s.mem with pcBad := m } }
    (if 64 ≤ n then s.pcFailing st pc else s, false)
  else match r with
  | .onDie => ((s.count (R.memStackErr st) 32 16).ledger 38, true)
  | .corrected lane =>
    let s := (s.count (R.memStackErr st) 0 32).ledger 37
    let (m, n) := windowed s.mem.corrected (pa / 256) s.dayWin
    let s := { s with mem := { s.mem with corrected := m } }
    let th := s.rfld R.memRetireThresh 0 8
    let s := if th ≠ 0 ∧ n = th then s.retire pa 1 else s
    (s.laneCorrected st pc lane, true)
  | _ => (s, true)

/-- Reads consecutive lines, the outcomes in order; answers the indices that were bad. -/
def State.readLines (s : State) (line : Nat) (ecc : List LineRead) : Nat → State × List Nat
  | 0 => (s, [])
  | n + 1 =>
    let (s, bad) := s.readLines line ecc n
    let (s, good) := s.readLine (line + n) (nth .ok ecc n)
    (s, if good then bad else bad ++ [n])

/-- Lines that `n` bytes from an address touch. -/
def linesOf (a n : Nat) : Nat := if n = 0 then 0 else (a + n - 1) / 64 - a / 64 + 1

/-- Is the channel of an address held for a lane repair (R232)? -/
def State.channelHeld (s : State) (pa : Nat) : Bool :=
  let (st, pc, _) := s.home pa
  s.mem.repairing.any fun (a, c, _) => decide (a = st) && decide (c = pc / 2)

/-- Is the stop of an address out of service, so that it cannot serve (R207, R233)? -/
def State.stackOut (s : State) (pa : Nat) : Bool :=
  let (st, _, _) := s.home pa
  !bit (s.reg (R.baseStopStatus (8 + st))) 0 || bit (s.reg (R.memStackStatus st)) 1

/-- What SECDED says of a line that a command reads, from its operand of lines and outcomes. -/
def eccOf (ecc : List (Nat × LineRead)) (line : Nat) : LineRead :=
  match ecc.find? fun x => decide (x.1 = line) with | some x => x.2 | none => .ok

/-- Is a granule of the 64 KiB page at an address on a stop that is out of service (R207, R233)? A page lies on as
many pseudo-channels as it has granules (R225). -/
def State.pageOut (s : State) (a : Nat) : Bool :=
  ((rangeFrom 0 12).any fun st => !bit (s.reg (R.baseStopStatus (8 + st))) 0 || bit (s.reg (R.memStackStatus st)) 1) &&
    (rangeFrom 0 256).any fun i => s.stackOut (a + 256 * i)

/-- Is a granule of the 64 KiB page at an address in a channel that is held for a lane repair (R232)? -/
def State.pageHeld (s : State) (a : Nat) : Bool :=
  !s.mem.repairing.isEmpty && (rangeFrom 0 256).any fun i => s.channelHeld (a + 256 * i)

/-- Reads whole 64 KiB pages, of whose lines those matter that are bad or that the operand names; answers whether
every line was good (R226, R229). -/
def State.readPages (s : State) (pages : List Nat) (ecc : List (Nat × LineRead)) : State × Bool :=
  let lines := ((s.mem.bad.map (·.1)) ++ (ecc.map (·.1)).filter fun l => !(s.mem.bad.map (·.1)).contains l).filter fun l =>
    pages.any fun p => decide (p / 64 ≤ l) && decide (l < p / 64 + 1024)
  lines.foldl (fun (s, ok) l =>
    let (s, good) := s.readLine l (eccOf ecc l)
    (s, ok && good)) (s, true)

/-- Does `n` bytes at an address lie below capacity, and in one granule? -/
def State.inRange (s : State) (a n : Nat) : Bool := decide (a + n ≤ s.capacity) && decide (a < s.capacity)

/-- A read at its home: the bytes, and the indices of the lines that are bad (R226, R307). -/
def State.memRead (s : State) (a n : Nat) (ecc : List LineRead) : State × List Byte × List Nat :=
  let (s, bad) := s.readLines (a / 64) ecc (linesOf a n)
  (s, Mem.bytes s.mem.bytes a n, bad)

/-- Which of the lines that a write touches it covers only in part (R227). -/
def partLines (a n : Nat) : List Nat :=
  (rangeFrom (a / 64) (linesOf a n)).filter fun l => decide (l * 64 < a) || decide (a + n < l * 64 + 64)

/-- The bytes of page `i` of a save record that are not reserved, from the page at `p`: all but two ranges of the
state region (R247, R248). -/
def recordRanges (i p : Nat) : List (Nat × Nat) :=
  if i = 26 then [(p, 0x0E00), (p + 0x1000, 0x7C00), (p + 0xFFF8, 8)] else [(p, 65536)]

/-- A write into a saved record, other than into its reserved bytes, makes what a resume finds there undefined
(R255). -/
def State.touchSaved (s : State) (a n : Nat) : State :=
  { s with mmu := { s.mmu with saved := s.mmu.saved.map fun x =>
      { x with dirty := x.dirty ||
          x.pages.zipIdx.any fun (p, i) => (recordRanges i p).any fun (b, m) => meets a n b m } } }

/-- A write at its home (R227): part lines are read first, and an uncorrectable one stops the whole
request; whole lines replace whatever was there. Answers whether it was written. -/
def State.memWrite (s : State) (a : Nat) (d : List Byte) (ecc : List LineRead) : State × Bool :=
  let part := partLines a d.length
  let (s, ok) := part.foldl (fun (s, ok) l =>
    let (s, good) := s.readLine l (nth .ok ecc (l - a / 64))
    (s, ok && good)) (s, true)
  if !ok then (s, false)
  else
    let s := (rangeFrom (a / 64) (linesOf a d.length)).foldl (fun s l =>
      if part.contains l then s else s.setLineBad l false) s
    (({ s with mem := { s.mem with bytes := Mem.write s.mem.bytes a d } } : State).touchSaved a d.length, true)

/-- The new value of an atomic (R308): operation, width, old value, operand, compare value. -/
def atomNew (aop : Nat) (wide : Bool) (m v c : Nat) : Nat :=
  let bits := if wide then 64 else 32
  let m := m % 2 ^ bits
  let v := v % 2 ^ bits
  let c := c % 2 ^ bits
  match aop with
  | 0 => (m + v) % 2 ^ bits
  | 1 =>
    let add := fun a b => encodeFloat .fp32 0 0 false ((decodeFloat .fp32 a).add (decodeFloat .fp32 b))
    if wide then add (m % 2 ^ 32) (v % 2 ^ 32) + 2 ^ 32 * add (m / 2 ^ 32) (v / 2 ^ 32) else add m v
  | 2 => if signed v bits < signed m bits then v else m
  | 3 => if signed m bits < signed v bits then v else m
  | 4 => v
  | 5 => if m = c then v else m
  | _ => m

/-- An atomic at its home (R228, R308, R309): the old value, unless its line is uncorrectable. -/
def State.memAtom (s : State) (p : Pkt) (ecc : List LineRead) : State × Option (List Byte) :=
  let wide := p.aux.testBit 3
  let n := if wide then 8 else 4
  let (s, good) := s.readLine (p.addr / 64) (nth .ok ecc 0)
  if !good then (s, none)
  else
    let old := Mem.nat s.mem.bytes p.addr n
    let v := bytesToNat (p.data.take 8)
    let c := bytesToNat ((p.data.drop 8).take 8)
    (({ s with mem := { s.mem with bytes := Mem.setNat s.mem.bytes p.addr n (atomNew (p.aux % 8) wide old v c) } } : State).touchSaved p.addr n,
      some (natToBytes n old))

/-- Performs one request at its home and sends the reply (R307). -/
def State.serveMem (s : State) (p : Pkt) (ecc : List LineRead) : State :=
  let n := if p.type = PT.memAtom then (if p.aux.testBit 3 then 8 else 4) else p.aux % 256 + 1
  if !s.inRange p.addr n then s.emit (.pkt (p.fail 5))
  else if s.stackOut p.addr then s.emit (.pkt (p.fail 5))
  else if p.type = PT.memRd then
    let (s, d, bad) := s.memRead p.addr n ecc
    s.emit (.pkt (p.reply PT.memRdData 0 d bad))
  else if p.type = PT.memWr then
    if !p.poison.isEmpty then s.emit (.pkt (p.fail 5))
    else
      let (s, ok) := s.memWrite p.addr p.data ecc
      s.emit (.pkt (if ok then p.reply PT.memAck 0 [] [] else p.fail 5))
  else
    match s.memAtom p ecc with
    | (s, some old) => s.emit (.pkt (p.reply PT.memAck 0 old []))
    | (s, none) => s.emit (.pkt (p.fail 5))

/-- HIF_LINK_STATUS.state: 0 down, 1 train, 2 active, 3 replay, 4 retrain; is the link active (R332)? -/
def State.hifState (s : State) : Nat := s.rfld R.hifLinkStatus 0 3
def State.hifUp (s : State) : Bool := decide (s.hifState = 2) || decide (s.hifState = 3)

/-- The class of a message that the device sends: REQ 0, RSP 1 (R331). -/
def HostMsg.cls (m : HostMsg) : Nat := if m.type < 0x20 then 0 else 1

/-- Has the host room for a message of a class (R329)? What it gives to begin with is a free value. -/
def State.hifCredit (s : State) (k : Nat) : Bool :=
  decide (SMap.get (fun _ => 0) s.host.spent k < Config.nogarCredits k + SMap.get (fun _ => 0) s.host.credits k)

/-- May a message leave: is the link active, are fewer than 256 codewords not acknowledged, and is there a credit? -/
def State.hifMay (s : State) (m : HostMsg) : Bool :=
  s.hifUp && decide (s.host.sent.length < 256) && s.hifCredit m.cls

/-- Puts a message into a codeword of its own (R329, R332). -/
def State.nogarNow (s : State) (m : HostMsg) : State :=
  let h := s.host
  ({ s with host := { h with txSeq := (h.txSeq + 1) % 4096, sent := h.sent ++ [(s.now, m)]
                             spent := SMap.set (fun _ => 0) h.spent m.cls (SMap.get (fun _ => 0) h.spent m.cls + 1) } } : State).emit
    (.nogar m.type m.tag m.addr m.status m.data)

/-- Sends a message to the host; it waits while the link is not active, while 256 codewords are not
acknowledged, for a credit, and behind messages of its class (R329, R331, R332). -/
def State.nogar (s : State) (type tag addr status : Nat) (data : List Byte) : State :=
  let m : HostMsg := { type := type, tag := tag, addr := addr, status := status, data := data }
  if s.hifMay m && s.host.msgs.all (fun x => decide (x.cls ≠ m.cls)) then s.nogarNow m
  else { s with host := { s.host with msgs := s.host.msgs ++ [m] } }

/-! The host-line cache (R333). -/

/-- The shared copy of a host line, if the device keeps one. -/
def State.hostLine (s : State) (line : Nat) : Option (List Byte) :=
  match s.host.lines.find? fun x => decide (x.1 = line) with | some x => some x.2 | none => none

/-- Gives a shared copy up. -/
def State.dropLine (s : State) (line : Nat) : State :=
  { s with host := { s.host with lines := s.host.lines.filter fun x => decide (x.1 ≠ line) } }

/-- The numbers of the enabled HIF_DBL registers that name a line (R343). -/
def State.watchers (s : State) (line : Nat) : List Nat :=
  (s.regs.filter fun x => decide (R.hifDbl 0 ≤ x.1) && decide (x.1 ≤ R.hifDbl 255) && bit x.2 0 && decide (fld x.2 6 46 = line)).map
    fun x => (x.1 - R.hifDbl 0) / 8

/-- Keeps a shared copy, in one of 4,096 sets of 16 ways; of a full set the oldest line that is not watched leaves (log
entry 88). -/
def State.keepLine (s : State) (line : Nat) (d : List Byte) : State :=
  let l := s.host.lines.filter fun x => decide (x.1 ≠ line)
  let set := l.filter fun x => decide (x.1 % 4096 = line % 4096)
  let l := if set.length < 16 then l
    else match set.find? fun x => (s.watchers x.1).isEmpty with | some old => l.erase old | none => l
  { s with host := { s.host with lines := l ++ [(line, d)] } }

/-- The doorbell words of a watched line take the values of its copy (R343, R344). -/
def State.takeWords (s : State) (line : Nat) (d : List Byte) : State :=
  (s.watchers line).foldl (fun s n => { s with host := { s.host with
    words := (rangeFrom 0 16).foldl (fun m w => SMap.set (fun _ => 0) m (16 * n + w) (bytesToNat ((d.drop (4 * w)).take 4))) s.host.words } }) s

/-- The device's own write of host bytes updates its shared copy in the same step. -/
def State.patchLine (s : State) (a : Nat) (d : List Byte) : State :=
  match s.hostLine (a / 64) with
  | none => s
  | some l =>
    let l' := l.take (a % 64) ++ d ++ l.drop (a % 64 + d.length)
    ({ s with host := { s.host with lines := s.host.lines.map fun x => if x.1 = a / 64 then (x.1, l') else x } } : State).takeWords (a / 64) l'

/-! Requests to host memory. -/

/-- A free tag, from the next one on (R331). -/
def State.freeTag (s : State) : Option Nat :=
  ((rangeFrom s.host.nextTag 4096).map (· % 4096)).find? fun t => (SMap.get (fun _ => none) s.host.reqs t).isNone

/-- A request to host memory takes a Nogar tag, or waits for one (R331). -/
def State.hostReq (s : State) (type addr : Nat) (use : HostUse) (data : List Byte) : State :=
  let h := s.host
  match s.freeTag with
  | none => { s with host := { h with waiting := h.waiting ++ [(type, addr, use, data)] } }
  | some tag =>
    let s := { s with host := { h with
        reqs := SMap.set (fun _ => none) h.reqs tag (some { use := use, addr := addr / 64 * 64, since := s.now }),
        nextTag := (tag + 1) % 4096 } }
    let s := if type = 0x01 then s.count R.hifHlcStats 0 32 else s
    let s := if type = 0x04 ∨ type = 0x05 ∨ type = 0x06 then s.patchLine addr data else s
    s.nogar type tag addr 0 data

/-- One line of a packet's access ended: when all have, the reply goes (R333). A failure is HOST_ERROR; a
poisoned line is marked in the reply, as from device memory. -/
def State.pktLine (s : State) (id off st : Nat) (d : List Byte) : State :=
  match s.host.pkts.find? fun x => decide (x.id = id) with
  | none => s
  | some x =>
    let rd := decide (x.pkt.type = PT.memRd)
    let err := decide (st = 1) || (decide (st ≠ 0) && !rd)
    let x' := { x with
      left := x.left - 1, code := if x.code = 0 ∧ err then 6 else x.code,
      got := x.got ++ [(off, d)],
      poison := if st ≠ 0 ∧ !err then x.poison ++ [(x.pkt.addr % 64 + off) / 64] else x.poison }
    if x'.left ≠ 0 then
      { s with host := { s.host with pkts := s.host.pkts.map fun y => if y.id = id then x' else y } }
    else
      let s : State := { s with host := { s.host with pkts := s.host.pkts.filter fun y => decide (y.id ≠ id) } }
      if x'.code ≠ 0 then s.emit (.pkt (x.pkt.fail x'.code))
      else if !rd then s.emit (.pkt (x.pkt.reply PT.memAck 0 [] []))
      else
        let n := x.pkt.aux % 256 + 1
        let bytes := x'.got.foldl (fun (l : List Byte) (o, d) => l.take o ++ d ++ l.drop (o + d.length)) (List.replicate n 0#8)
        s.emit (.pkt (x.pkt.reply PT.memRdData 0 (bytes.take n) x'.poison))

/-- Bytes cut at 64 B lines: address, offset of the piece, and its length. -/
def lineCuts : Nat → Nat → Nat → Nat → List (Nat × Nat × Nat)
  | 0, _, _, _ => []
  | fuel + 1, a, off, n =>
    if n = 0 then []
    else
      let k := min n (64 - a % 64)
      (a, off, k) :: lineCuts fuel (a + k) (off + k) (n - k)

/-- A memory request for host memory, line by line (R333, R334); a read that may keep its lines (hc = 1) takes those of
which the device has a copy from there. -/
def State.hostMem (s : State) (p : Pkt) : State :=
  if p.type = PT.memAtom then s.hostReq 0x03 p.addr (.own p) []
  else if p.type = PT.memWr ∧ !p.poison.isEmpty then s.emit (.pkt (p.fail 5))
  else
    let rd := decide (p.type = PT.memRd)
    let cuts := lineCuts 8 p.addr 0 (if rd then p.aux % 256 + 1 else p.data.length)
    let id := s.host.nextPkt
    let x : HostPkt := { id := id, pkt := p, left := cuts.length, code := 0, got := [], poison := [] }
    let s := { s with host := { s.host with pkts := s.host.pkts ++ [x], nextPkt := id + 1 } }
    cuts.foldl (fun s (a, off, n) =>
      if rd then
        match if p.hc then s.hostLine (a / 64) else none with
        | some l => s.pktLine id off 0 ((l.drop (a % 64)).take n)
        | none => s.hostReq (if p.hc then 0x01 else 0x02) a (.read id off) []
      else s.hostReq (if n = 64 then 0x04 else 0x05) a (.write id off) ((p.data.drop off).take n)) s

/-- A stop holds a request until the lane repair of its channel ends (R232). -/
def State.holdMem (s : State) (r : HeldReq) : State := { s with mem := { s.mem with held := s.mem.held ++ [r] } }

/-- The address of device memory that a held request names. -/
def HeldReq.addr : HeldReq → Option Nat
  | .pkt p _ => some p.addr | .dmRd _ a _ _ => some a | .dmWr a _ _ => some a | .stream _ a _ => some a | .opens _ a _ => some a
  | .crRd .. => none | .crWr .. => none

/-- Is a held request the host's, and is it a write, behind which its later accesses wait (R336)? -/
def HeldReq.ofHost : HeldReq → Bool
  | .dmRd .. => true | .dmWr .. => true | .crRd .. => true | .crWr .. => true | _ => false
def HeldReq.posted : HeldReq → Bool
  | .dmWr .. => true | .crWr .. => true | _ => false

/-- Must an access of the host wait behind an earlier write of it (R336)? -/
def State.hostWaits (s : State) : Bool := s.mem.held.any (·.posted)

/-- A host read of device memory within one line, after every earlier write of the host (R335, R336). -/
def State.dmRead (s : State) (tag a n : Nat) (ecc : LineRead) : State :=
  if s.hostWaits then s.holdMem (.dmRd tag a n ecc)
  else if s.capacity < a + n then (s.count R.hifLinkErr 32 16).nogar 0x20 tag a 2 []
  else if s.stackOut a then s.nogar 0x20 tag a 2 []
  else if s.channelHeld a then s.holdMem (.dmRd tag a n ecc)
  else
    let (s, good) := s.readLine (a / 64) ecc
    if good then s.nogar 0x20 tag a 0 (Mem.bytes s.mem.bytes a n) else s.nogar 0x20 tag a 2 []

/-- A host write of device memory within one line, performed as one request at the home (R227, R307, R335). -/
def State.dmWrite (s : State) (a : Nat) (data : List Byte) (ecc : LineRead) : State :=
  if s.hostWaits then s.holdMem (.dmWr a data ecc)
  else if s.capacity < a + data.length then s.count R.hifLinkErr 32 16
  else if s.stackOut a then s
  else if s.channelHeld a then s.holdMem (.dmWr a data ecc)
  else (s.memWrite a data [ecc]).1

/-- A memory request of expected type arrives at its stop: the host stop, or the home of its granule,
which holds it while the channel is repaired. A request within this device named by a herd address
is checked against capacity first (R306). -/
def State.memReq (s : State) (p : Pkt) (type : Nat) (ecc : List LineRead) : State :=
  if p.type ≠ type then s
  else if p.host then s.hostMem p
  else if s.channelHeld p.addr then s.holdMem (.pkt p ecc)
  else s.serveMem p ecc

def execMemRd (p : Pkt) (ecc : List LineRead) (s : State) : Host.Outcome State Fault Refusal :=
  .next (s.memReq p PT.memRd ecc)

def execMemWr (p : Pkt) (ecc : List LineRead) (s : State) : Host.Outcome State Fault Refusal :=
  .next (s.memReq p PT.memWr ecc)

def execMemAtom (p : Pkt) (ecc : List LineRead) (s : State) : Host.Outcome State Fault Refusal :=
  .next (s.memReq p PT.memAtom ecc)

/-- A refresh leaves every byte, and every register of the stop, as it is (R221, R222). -/
def execHbmRefresh (_st : Stack) (_pc : Fin 32) (s : State) : Host.Outcome State Fault Refusal := .next s

end Sys2Proof.Machine
end

