-- ==== Sys2Proof/Machine/Mesh.lean ====
section
/-!
DEFINITION. Packets that reach a core or a router of a die's mesh (R48, R163 to R193): scratch writes,
messages, reductions, multicasts, and the die controller's accesses.
-/

namespace Sys2Proof.Machine

/-- Is a core fenced, or stopping so that it counts as fenced (R190, R250)? -/
def Core.dead (c : Core) : Bool := decide (c.rs = .fenced) || c.stopping

/-- A request on a die's mesh: as `meshRecv`, but a die that is down answers DIE_DOWN (R165, R208). -/
def State.meshReq (s : State) (p : Pkt) (type : Nat) (f : State → Nat → State) : State :=
  if p.type = type ∧ p.dstDie < 8 ∧ !s.dieUp p.dstDie then s.emit (.pkt (p.fail 1))
  else s.meshRecv p type f

/-- A piece of another core's packed stream (R120): the stream pipe holds it until the last piece, and then unpacks
the stream and writes the original bytes. None where the stream is corrupt. -/
def Core.pipePiece (env : CoreEnv) (c : Core) (from_ n : Nat) (last : Bool) (p : Pkt) : Option Core :=
  let l := SMap.get (fun _ => []) c.pipe from_ ++ [(n, p.data)]
  if last then
    let stream := (rangeFrom 0 (n + 1)).flatMap fun i => ((l.find? fun x => decide (x.1 = i)).map (·.2)).getD []
    let (os, bad) := unpackChunks (scratchSize - p.addr) stream.length stream
    let c := { c with pipe := SMap.set (fun _ => []) c.pipe from_ [] }
    if bad then none else some (c.storeBy env false p.addr os.flatten)
  else some { c with pipe := SMap.set (fun _ => []) c.pipe from_ l }

/-- The stream of a packet's sender (R120). -/
def streamKey (p : Pkt) (entry : Nat) : Nat :=
  (2304 * p.srcDev + posKey p.srcDie p.srcRow p.srcCol) * 2 ^ 16 + entry % 2 ^ 16

/-- The remote counter of a `springbok.cput` (R117). -/
def Core.incRemote (c : Core) (inc : Option Nat) : Core :=
  match inc with | some n => c.incCnt (BitVec.ofNat 4 n) | none => c

/-- A scratch write from another core (R117, R120, R190, R193, R250). -/
def execCput (p : Pkt) (s : State) : Host.Outcome State Fault Refusal :=
  .next (s.meshReq p PT.cput fun s key =>
    let c := s.coreAt key
    if c.dead then s.emitCore key (p.fail 1)
    else if scratchSize < p.addr + p.data.length then s.meshDiscard p.dstDie
    else match p.packed with
    | some (entry, n, last) =>
      let from_ := streamKey p entry
      let drop := fun (c : Core) => { c with pipe := SMap.set (fun _ => []) c.pipe from_ [] }
      if !p.poison.isEmpty then (s.setCore key (drop c)).emitCore key (p.fail 5)
      else match c.pipePiece (s.envAt key) from_ n last p with
      | some c => (s.setCore key (c.incRemote p.inc)).emitCore key (p.reply PT.cputAck 0 [] [])
      | none => (s.setCore key (drop c)).emitCore key (p.fail streamBad)
    | none =>
      if p.poison.isEmpty then
        (s.onKey key fun env c => (c.storeBy env false p.addr p.data).incRemote p.inc).emitCore key (p.reply PT.cputAck 0 [] [])
      else
        (s.onKey key fun env c =>
          (cleanBytes p.addr p.poison 0 p.data).foldl (fun c (i, b) => c.storeBy env false (p.addr + i) [b]) c).emitCore key (p.fail 5))

/-- The sender word of a message (R46, R50), or of a notification of a stream (R378). -/
def senderWord (p : Pkt) : Word :=
  if p.srcDie = noteSrc then BitVec.ofNat 64 (2 ^ 63 + p.tag % 256) else
  BitVec.ofNat 64 (p.aux % 256 * 2 ^ 20 + p.rank % 512 * 2 ^ 11 + p.srcDie % 8 * 2 ^ 8 + p.srcRow % 16 * 2 ^ 4 + p.lcol % 16)

/-- A short message: placed in the mailbox, or refused when it is full or the core is being stopped
(R48, R190, R250). -/
def execMsg (p : Pkt) (s : State) : Host.Outcome State Fault Refusal :=
  .next (s.meshReq p PT.msg fun s key =>
    let c := s.coreAt key
    if c.rs = .fenced then s.emitCore key (p.fail 1)
    else if !p.poison.isEmpty then s.emitCore key (p.fail 5)
    else if c.stopping || decide (32 ≤ c.mail.length) then s.emitCore key (p.reply PT.msgRefuse 0 [] [])
    else
      let w := fun i => bytesWord ((p.data.drop (8 * i)).take 8)
      let m : Mail := { payload := ⟨w 0, w 1, w 2, w 3⟩, sender := senderWord p }
      (s.setCore key { c with mail := c.mail ++ [m] }).emitCore key (p.reply PT.msgAccept 0 [] []))

/-! Reduction (R159, R181 to R184). -/

/-- The router of a position. -/
def State.routerAt (s : State) (k : Nat) : Router := SMap.get (fun _ => Router.reset) s.routers k

/-- Writes a router. -/
def State.setRouter (s : State) (k : Nat) (r : Router) : State :=
  { s with routers := SMap.set (fun _ => Router.reset) s.routers k r }

/-- The elements of bytes in a float format of whole bytes, and back. -/
def floatsOf (f : Fmt) (l : List Byte) : List Nat :=
  (rangeFrom 0 (l.length * 8 / f.bits)).map fun i => bytesToNat ((l.drop (i * f.bits / 8)).take (f.bits / 8))

/-- Adds two payloads element by element (R159). -/
def addPayload (f : Fmt) (a b : List Byte) : List Byte :=
  ((floatsOf f a).zip (floatsOf f b)).flatMap fun (x, y) =>
    natToBytes (f.bits / 8) (encodeFloat f 0 0 false ((decodeFloat f x).add (decodeFloat f y)))

/-- An FP8 contribution widened exactly to FP32 (R159, R182). -/
def widenFp8 (red : Nat) (l : List Byte) : List Byte :=
  (floatsOf (if red = 3 then .e4m3 else .e5m2) l).flatMap fun x =>
    natToBytes 4 (encodeFloat .fp32 0 0 false (decodeFloat (if red = 3 then .e4m3 else .e5m2) x))

/-- The format in which a reduction adds (R159). -/
def redFmt (red : Nat) : Fmt := if red = 2 then .bf16 else .fp32

/-- One chunk of a collective's result reaches a core whose `springbok.coll` is posted (R187 to R190). No byte of a
poisoned flit is written, and the command then ends UNCORRECTABLE (R193). -/
def Core.collChunk (env : CoreEnv) (c : Core) (ctx red chunk : Nat) (d : List Byte) (void : Bool) (poison : List Nat := []) :
    Option Core :=
  match (c.engine 6).active.find? fun r => decide (r.kind = .coll) && decide (fld r.cmd.w0 38 6 = ctx) && !collDone red r with
  | none => none
  | some r =>
    let i := r.got.length / 128 * 128 + chunk
    let total := collBytes red r.cmd.len
    let at_ := fld r.cmd.w3 0 21 + 256 * i
    let d := d.take (total - 256 * i)
    let (c, n) := if poison.isEmpty then (c.sbDeliver env r at_ d, d.length)
      else
        let parts := (rangeFrom 0 4).filter fun j => !poison.contains j
        (parts.foldl (fun c j => c.sbDeliver env r (at_ + 64 * j) ((d.drop (64 * j)).take 64)) c,
          (parts.map fun j => ((d.drop (64 * j)).take 64).length).foldl (· + ·) 0)
    some (c.sbUpd r.id fun r =>
      let r := { r with got := r.got ++ [i], void := r.void || void, bytes := r.bytes + n }
      let r := if poison.isEmpty then r else r.fail 5 at_
      if collDone red r && r.void then r.fail 1 r.errAddr else r)

/-- The router on the other side of an input of a reduction entry (R181). -/
def redChild (k inp : Nat) : Nat := if inp = 4 then k - 18 else if inp = 3 then k + 18 else if inp = 2 then k - 1 else k + 1

/-- What an input of a router still gives for a chunk: 0 a contribution, 1 none because the cores behind it are fenced
(R190), 2 none because the command of a core behind it was shorter (R184): it gave the chunk before, and it has
nothing more to send. A command begins with chunk 0. -/
def State.redInput (s : State) (ctx chunk : Nat) : Nat → Nat → Nat → Nat
  | 0, _, _ => 0
  | fuel + 1, k, inp =>
    if s.mesh.flying.any fun e => decide (e.dst = k) && decide (e.exit = 5) && decide (e.inp = inp) && decide (e.pkt.ctx = ctx)
        && decide (e.pkt.chunk = chunk) then 0
    else if (s.routerAt k).slots.any fun x => decide (x.ctx = ctx) && decide (x.chunk + 1 = chunk) && !x.seen.testBit inp then 0
    else if inp = 0 then
      let c := s.coreAt k
      let feeds := (c.engine 6).active.any fun r => decide (r.kind = .coll) && decide (fld r.cmd.w0 38 6 = ctx) && !r.todo.isEmpty
      if c.dead then 1 else if chunk ≠ 0 ∧ !feeds then 2 else 0
    else
      let n := redChild k inp
      match SMap.get (fun _ => none) (s.routerAt n).entries ctx with
      | none => 0
      | some e =>
        if (s.routerAt n).slots.any fun x => decide (x.ctx = ctx) && decide (x.chunk = chunk) then 0
        else
          let l := ((rangeFrom 0 5).filter e.inputs.testBit).map fun i => s.redInput ctx chunk fuel n i
          if l.contains 0 then 0 else if l.contains 2 then 2 else 1

/-- The sum of a slot as a packet toward the collector (R176, R183, R190). -/
def State.redPkt (s : State) (k : Nat) (e : RedEntry) (sl : RedSlot) : Pkt :=
  let (d, r, c) := keyPos k
  let (cr, cc) := s.collector (SMap.get (fun _ => ColCtx.reset) s.fab.ctxs sl.ctx).defn d
  { Pkt.empty with
    type := PT.red, srcDev := s.devIndex, srcDie := d, srcRow := r, srcCol := c, dstDev := s.devIndex, dstDie := d, dstRow := cr,
    dstCol := cc, epoch := s.epoch, red := if e.red = 2 then 2 else 1, ctx := sl.ctx, aux := sl.void.toNat, chunk := sl.chunk,
    data := sl.sum, poison := sl.poison }

/-- Sends the finished sum of a slot to the entry's output (R183): onward against a credit for the next router's slot,
to the attachment of the egress group, or to the collector core once its command is posted. None: it waits. -/
def State.redSend (s : State) (k : Nat) (e : RedEntry) (sl : RedSlot) : Option State :=
  if e.out = 4 then
    if (s.coreAt k).dead then some s
    else ((s.coreAt k).collChunk (s.envAt k) sl.ctx (s.ctxRed sl.ctx) sl.chunk sl.sum sl.void sl.poison).map (s.setCore k)
  else if e.out = 5 then some (s.emit (.mesh k 13 (s.redPkt k e sl)))
  else if s.redCredit (nextRouter k e.out) sl.ctx sl.chunk then some (s.emit (.mesh k (8 + e.out) (s.redPkt k e sl)))
  else none

/-- Sends on a slot of which every input has arrived or gives nothing more, and frees it: a fenced core's value is
missing and the sum void (R190); where a command was shorter the sum is undefined (R184). -/
def State.redSettle (s : State) (k ctx chunk : Nat) : State :=
  let rt := s.routerAt k
  match SMap.get (fun _ => none) rt.entries ctx, rt.slots.find? fun x => decide (x.ctx = ctx) && decide (x.chunk = chunk) with
  | some e, some sl =>
    let l := ((rangeFrom 0 5).filter fun i => e.inputs.testBit i && !sl.seen.testBit i).map fun i => s.redInput ctx chunk 40 k i
    if l.contains 0 then s
    else
      let (s', sum) := if l.contains 2 then s.freeBytes 256 else (s, sl.sum)
      let rest := rt.slots.filter fun x => !(decide (x.ctx = ctx) && decide (x.chunk = chunk))
      ((s'.setRouter k { rt with slots := rest }).redSend k e { sl with sum := sum, void := sl.void || l.contains 1 }).getD s
  | _, _ => s

/-- Every slot looks again: credits return, cores are fenced, commands end. -/
def State.redTick (s : State) : State :=
  s.routers.foldl (fun s (k, rt) => rt.slots.foldl (fun s x => s.redSettle k x.ctx x.chunk) s) s

/-- A contribution arrives at a router's input (R183): widened where the core gives it, added into its slot in order of
arrival. A third chunk of a context waits (none). Contributions that differ in format or length leave a free sum
(R184). -/
def State.redArrive (s : State) (k inp : Nat) (p : Pkt) : Option State :=
  let rt := s.routerAt k
  match SMap.get (fun _ => none) rt.entries p.ctx with
  | none => some s
  | some e =>
    let mine := rt.slots.filter fun x => decide (x.ctx = p.ctx)
    let old := mine.find? fun x => decide (x.chunk = p.chunk)
    if !e.inputs.testBit inp then some s
    else if old.isNone && decide (2 ≤ mine.length) || (match old with | some x => x.seen.testBit inp | none => false) then none
    else
      let wide := decide (inp = 0) && (decide (p.red = 3) || decide (p.red = 4))
      let d := if wide then widenFp8 p.red p.data else p.data
      let bad := if wide && !p.poison.isEmpty then rangeFrom 0 4 else p.poison
      let same := decide (p.red = e.red) || (decide (inp ≠ 0) && decide (p.red = if e.red = 2 then 2 else 1))
      let fits := match old with | some x => decide (x.sum.length = d.length) | none => true
      let (s, sum) := if same && fits then (s, match old with | some x => addPayload (redFmt e.red) x.sum d | none => d)
        else s.freeBytes 256
      let o := old.getD { ctx := p.ctx, chunk := p.chunk, sum := [], seen := 0, void := false, poison := [] }
      let sl : RedSlot := { o with
        sum := sum, seen := o.seen + 2 ^ inp, void := o.void || p.aux.testBit 0, poison := (o.poison ++ bad).eraseDups }
      let rest := rt.slots.filter fun x => !(decide (x.ctx = p.ctx) && decide (x.chunk = p.chunk))
      some ((s.setRouter k { rt with slots := rest ++ [sl] }).redSettle k p.ctx p.chunk)

def execRed (r : CoreId) (inp : Fin 5) (p : Pkt) (s : State) : Host.Outcome State Fault Refusal :=
  .next (s.meshTry { p with dstDie := r.die.val, dstRow := r.row.val, dstCol := r.col.val } PT.red
    (fun k => atInput k inp.val) fun s k => s.redArrive k inp.val p)

/-! Multicast (R185 to R188). -/

/-- The output of a position on a multicast leg. -/
def mcDir (p : Pkt) (r c : Nat) : Nat := if p.mc = 1 then (if c < p.mcLast then 3 else 2) else (if r < p.mcLast then 1 else 0)

/-- Does the next router of a leg hold credit on VC1 for a packet (R186)? -/
def State.mcCredit (s : State) (k out : Nat) (p : Pkt) : Bool :=
  (SMap.get (fun _ => []) s.mesh.wait (8 * k + 5)).isEmpty &&
    decide ((s.mesh.buf (nextRouter k out) (oppPort out) 3).length + p.len ≤ meshBuf 3)

/-- A multicast at a position: the core's copy and the forward copy go together, or the packet waits until the core has
posted its command and the next router has credit (none; R186, R187); a spare or fenced core takes no copy and a
fenced one marks the tail acknowledgement (R190). The last position acknowledges. -/
def State.mcastAt (s : State) (k : Nat) (p : Pkt) : Option State :=
  let (d, r, c) := keyPos k
  let (lo, hi) := s.spares d r
  let spare := decide (c = lo) || decide (c = hi)
  let co := s.coreAt k
  let dead := !spare && co.dead
  let last := decide (p.mc = 0) || decide ((if p.mc = 1 then c else r) = p.mcLast)
  let out := mcDir p r c
  if !last && !s.mcCredit k out p then none
  else
    let copied := if spare || dead then some s
      else (co.collChunk (s.envAt k) p.ctx (s.ctxRed p.ctx) p.chunk p.data p.void p.poison).map (s.setCore k)
    copied.map fun s =>
      let p := { p with skip := p.skip || dead }
      if last then
        s.emit (.mesh k 5 { p.reply PT.tailAck p.skip.toNat [] [] with
          srcDie := d, srcRow := r, srcCol := c, mc := p.mc, void := false, skip := false })
      else s.emit (.mesh k (8 + out) p)

def execMcast (r : CoreId) (p : Pkt) (s : State) : Host.Outcome State Fault Refusal :=
  .next (s.meshTry { p with dstDie := r.die.val, dstRow := r.row.val, dstCol := r.col.val } PT.mcast atVc1
    fun s k => s.mcastAt k p)

/-! The die controller's accesses (R175, R190). -/

/-- A CSR of a core read by its die controller. -/
def execCsrRdRequest (p : Pkt) (s : State) : Host.Outcome State Fault Refusal :=
  .next (s.meshRecv p PT.csrRd fun s k =>
    let c := s.coreAt k
    if decide (c.rs = .fenced) then s.emitCore k p.mgtFail
    else s.emitCore k (p.reply PT.mgtRsp 0 (wordBytes ((c.csrRead (s.envAt k) (p.addr % 4096)).getD 0)) []))

/-- A CSR of a core written by its die controller. -/
def execCsrWrRequest (p : Pkt) (s : State) : Host.Outcome State Fault Refusal :=
  .next (s.meshRecv p PT.csrWr fun s k =>
    let c := s.coreAt k
    if decide (c.rs = .fenced) || !p.poison.isEmpty then s.emitCore k p.mgtFail
    else (s.setCore k (c.csrWrite (s.envAt k) (p.addr % 4096) .wr (bytesWord (p.data.take 8)) true)).emitCore k
      (p.reply PT.mgtRsp 0 [] []))

/-- Bytes of the program store (R56). -/
def pstoreSize : Nat := 0x20000

/-- A write into a core's program store. -/
def execPsWr (p : Pkt) (s : State) : Host.Outcome State Fault Refusal :=
  .next (s.meshRecv p PT.psWr fun s k =>
    let c := s.coreAt k
    if decide (c.rs = .fenced) || decide (pstoreSize < p.addr + p.data.length) || !p.poison.isEmpty then s.emitCore k p.mgtFail
    else (s.setCore k { c with pstore := Mem.write c.pstore p.addr p.data }).emitCore k (p.reply PT.mgtRsp 0 [] []))

/-- The die controller takes the reply to one of its accesses. -/
def execMgtRsp (p : Pkt) (s : State) : Host.Outcome State Fault Refusal :=
  .next (if p.type ≠ PT.mgtRsp ∨ 8 ≤ p.dstDie then s
    else match s.meshTake p (atEdge p.dstDie) with
    | none => s
    | some s => { s with mmu := { s.mmu with dieRsp := SMap.set (fun _ => (0, [])) s.mmu.dieRsp p.dstDie (p.err.toNat, p.data) } })

end Sys2Proof.Machine
end

