-- ==== Sys2Proof/Machine/Mmu.lean ====
section
/-!
DEFINITION. Translation (R234 to R245): the walker, faults and their ends, invalidations.
-/

namespace Sys2Proof.Machine

/-- Index of an address into a table of a level, and bytes that one entry maps (R235). -/
def walkIndex (level va : Nat) : Nat :=
  nth 0 [va / 2 ^ 39 % 512, va / 2 ^ 30 % 512, va / 2 ^ 21 % 512, va / 2 ^ 16 % 32] level
def walkSize (level : Nat) : Nat := nth 0 [2 ^ 39, 2 ^ 30, 2 ^ 21, 2 ^ 16] level

/-- What one table entry says (R236, R237): descend into a table, a leaf, or a fault. -/
inductive WalkStep where
  | down (table tgt : Nat)
  | leaf (t : Tlb)
  | fault (cause : Nat)
  deriving DecidableEq, Repr

/-- Are the reserved bits of an entry 0, its low address bits 0, its tgt and its leaf bit allowed at a
level (R236)? -/
def entryOk (e : Word) (level : Nat) : Bool :=
  let leaf := bit e 1
  let addr := fld e 8 40 * 256
  let low := if leaf then walkSize level else if level = 2 then 256 else 4096
  decide (fld e 48 16 = 0) && !bit e 6 && !bit e 3 && decide (fld e 4 2 ≤ 1) && decide (addr % low = 0)
    && (leaf == decide (level = 3) || (leaf && (decide (level = 1) || decide (level = 2))))
    && (if leaf then fld e 4 2 == 1 || !bit e 7 else !bit e 7 && !bit e 2)

/-- One step of the walk (R237). `access` is as in R242, `kind` 0 for a job transfer. -/
def walkStep (capacity : Nat) (w : Walk) (e : Word) : WalkStep :=
  if !bit e 0 then .fault 0x01
  else if !entryOk e w.level then .fault 0x03
  else
    let addr := fld e 8 40 * 256
    let tgt := fld e 4 2
    if !bit e 1 then .down addr tgt
    else
      let size := walkSize w.level
      if (w.access = 1 ∨ w.access = 2) ∧ !bit e 2 then .fault 0x02
      else if tgt = 0 ∧ capacity < addr + size then .fault 0x04
      else if w.kind ≠ 0 ∧ tgt = 1 then .fault 0x07
      else .leaf { job := w.job, va := w.va / size * size, size := size, pa := addr, tgt := tgt, hc := bit e 7, w := bit e 2 }

/-- The springbok entry of a core whose request a walk serves: the first with requests left. -/
def State.walkFault (s : State) (w : Walk) (cause : Nat) : State :=
  match (s.coreAt w.core).sbNext with
  | some r => s.sbFaulted w.core r w.va w.access cause
  | none => s

/-- Is the channel that holds a table entry under repair, so that its stop holds the read (R232)? -/
def State.entryHeld (s : State) (tgt a : Nat) : Bool := decide (tgt ≠ 1) && s.inRange a 8 && s.channelHeld a

/-- Reads one table entry (R226, R229, R237): in device memory as a line read of its stop, in host memory through the
host-line cache; none when the read failed. -/
def State.readEntry (s : State) (tgt a : Nat) (ecc : LineRead) (host : Option (List Byte)) : State × Option Word :=
  let word := fun (l : List Byte) => bytesWord ((l.drop (a % 64)).take 8)
  if tgt = 1 then
    match s.hostLine (a / 64), host with
    | some l, _ => (s, some (word l))
    | none, some l => ((s.count R.hifHlcStats 0 32).keepLine (a / 64) l, some (word l))
    | none, none => (s.count R.hifHlcStats 0 32, none)
  else if !s.inRange a 8 || s.stackOut a then (s, none)
  else
    let (s, good) := s.readLine (a / 64) ecc
    (s, if good then some (BitVec.ofNat 64 (Mem.nat s.mem.bytes a 8)) else none)

/-- The walker of a core receives one entry (R237). From device memory it is read there; from host
memory it is in a cached line or in the operand, whose error status gives TABLE_ERROR (R333, R579). A fault waits while
the die's controller reloads (R494). -/
def State.walkEntry (s : State) (key : Nat) (ecc : LineRead) (hostStatus : Nat) (host : List Byte) : State :=
  match s.mmu.walks.find? fun w => decide (w.core = key) with
  | none => s
  | some w =>
    let rest := s.mmu.walks.filter fun x => decide (x ≠ w)
    let a := w.table + 8 * walkIndex w.level w.va
    if s.entryHeld w.tgt a then s
    else
    let s0 := s
    let (s, e) := s.readEntry w.tgt a ecc (if hostStatus = 0 then some host else none)
    let done := { s with mmu := { s.mmu with walks := rest } }
    match e with
    | none => if s.reloading (key / 288) then s0 else done.walkFault w 0x05
    | some e =>
      match walkStep s.capacity w e with
      | .down table tgt => { s with mmu := { s.mmu with walks := rest ++ [{ w with level := w.level + 1, table := table, tgt := tgt }] } }
      | .leaf t => done.fillTlb key t
      | .fault cause => if s.reloading (key / 288) then s0 else done.walkFault w cause

def execWalkEntryRead (c : CoreId) (ecc : LineRead) (hostStatus : Nat) (host : List Byte) (s : State) :
    Host.Outcome State Fault Refusal := .next (s.walkEntry c.key ecc hostStatus host)

/-! The end of a fault (R125, R243, R244). -/

/-- Removes the cached translations that a test picks. -/
def State.dropTlb (s : State) (f : Tlb → Bool) : State :=
  let clean := fun (m : SMap (List Tlb)) =>
    (m.map fun (k, l) => (k, l.filter fun t => !f t)).filter fun (_, l) => !l.isEmpty
  { s with mmu := { s.mmu with utlb := clean s.mmu.utlb, tlb := clean s.mmu.tlb } }

/-- Removes a pending fault. -/
def State.dropFault (s : State) (id : Nat) : State :=
  { s with mmu := { s.mmu with faults := s.mmu.faults.filter fun f => decide (f.id ≠ id) } }

/-- The entry that a fault stopped goes on, or ends with a code. -/
def State.unfault (s : State) (f : MFault) (code : Option Nat) : State :=
  s.onKey f.core fun _ c =>
    match (c.engine 6).active.find? fun r => decide (r.faulted = some f.id) with
    | none => c
    | some r => c.sbUpd r.id fun r =>
        let r := { r with faulted := none }
        match code with | some k => r.fail k f.va | none => r

/-- A transfer whose fault is aborted ends SAVE_FAULT or RESUME_FAULT (R253, R254). -/
def State.xferAborted (s : State) (f : MFault) : State :=
  let d := f.core / 288
  match SMap.get (fun _ => none) s.mmu.xfers d with
  | none => s
  | some x => { s with mmu := { s.mmu with
      xfers := SMap.set (fun _ => none) s.mmu.xfers d (some { x with status := some (if x.save then 3 else 7) }) } }

/-- Aborts a pending fault: its command ends TRANSLATION, or its transfer fails. -/
def State.abortFault (s : State) (f : MFault) : State :=
  let s := s.dropFault f.id
  if f.kind = 0 then s.unfault f (some 4) else s.xferAborted f

/-- A reply to a fault (R243): retry drops the page's cached translations and goes on; abort ends the
command; an unknown id is counted. -/
def State.replyFault (s : State) (id : Nat) (abort : Bool) : State :=
  match s.mmu.faults.find? fun f => decide (f.id = id) with
  | none => s.count R.mmuFaultStatus 48 16
  | some f =>
    if abort then s.abortFault f
    else
      let s := (s.dropFault id).dropTlb fun t => t.covers f.job f.va
      if f.kind = 0 then s.unfault f none else s

/-- A reply to a fault of a die whose controller reloads waits (R494). -/
def State.faultReply (s : State) (id : Nat) (abort : Bool) : State :=
  match s.mmu.faults.find? (fun f => decide (f.id = id)), s.fw.pausing with
  | some f, some x =>
    if f.core / 288 = x.die then { s with fw := { s.fw with pausing := some { x with late := x.late ++ [(id, abort)] } } }
    else s.replyFault id abort
  | _, _ => s.replyFault id abort

/-- The age at which a fault is aborted, if there is a limit (R244). -/
def State.faultLimit (s : State) : Option Nat :=
  let ms := s.rfld R.mmuFaultTimeout 0 32
  if ms = 0 then none else some (ms * 1000000)

/-- Is a fault older than the limit? -/
def State.faultOld (s : State) (f : MFault) : Bool :=
  match s.faultLimit with | some l => decide (l ≤ s.now - f.raised) | none => false

def execFaultTimeout (faultId : Nat) (s : State) : Host.Outcome State Fault Refusal :=
  .next (match s.mmu.faults.find? fun f => decide (f.id = faultId) with
    | some f => if s.faultOld f then s.abortFault f else s
    | none => s)

/-- A write of MMU_FAULT_TIMEOUT applies at once to every pending fault (R244). -/
def State.setFaultTimeout (s : State) (v : Word) : State :=
  let (v, s) := s.reservedOk (mask 0 32) v
  let s := s.setReg R.mmuFaultTimeout v
  (s.mmu.faults.filter s.faultOld).foldl (fun s f => s.abortFault f) s

def execMmuFaultTimeoutWrite (val : Word) (s : State) : Host.Outcome State Fault Refusal :=
  .next (s.setFaultTimeout val)

/-- Withdraws the faults of cores that a test picks, reporting each (R249, R256, R347). -/
def State.withdrawFaults (s : State) (f : MFault → Bool) : State :=
  (s.mmu.faults.filter f).foldl (fun s x => ((s.dropFault x.id).unfault x none).event 0x0702 (natToBytes 4 x.id)) s

/-! Invalidation (R239). -/

/-- Bytes of a scope-0 range by its size code. -/
def invBytes (size : Nat) : Nat := nth (2 ^ 16) [2 ^ 16, 2 ^ 21, 2 ^ 30] size

/-- Does an invalidation remove a translation of a job that maps [va, va + n)? -/
def Inval.hits (i : Inval) (job va n : Nat) : Bool :=
  match i.scope with
  | 0 => decide (i.job = job) && meets va n (i.va / invBytes i.size * invBytes i.size) (invBytes i.size)
  | 1 => decide (i.job = job)
  | _ => true

/-- Accepts an invalidation: its translations leave every TLB, and a walk under way for a page that it
names starts again when its request is next issued, so that it cannot bring the old one back (R239). -/
def State.invalidate (s : State) (i : Inval) : State :=
  let s := s.dropTlb fun t => i.hits t.job t.va t.size
  let walks := s.mmu.walks.filter fun w => !i.hits w.job (w.va / 65536 * 65536) 65536
  let s := { s with mmu := { s.mmu with invs := s.mmu.invs ++ [i], walks := walks } }
  s.setReg R.mmuInvStatus (setBit (setFld (s.reg R.mmuInvStatus) 48 16 (s.rfld R.mmuInvStatus 48 16 + 1)) 0 true)

/-- Has an invalidation a scope and size that remove nothing (R239)? -/
def Inval.bad (i : Inval) : Bool := decide (i.scope = 3) || (decide (i.scope = 0) && decide (i.size = 3))

/-- The invalidation that a word in the layout of MMU_INV names (R259). -/
def Inval.ofWord (v : Word) (job : Nat) : Inval :=
  { scope := fld v 62 2, size := fld v 60 2, job := job, va := fld v 16 32 * 2 ^ 16, entry := none }

/-- A write of MMU_INV (R239): dropped and counted for a bad scope or with 16 in progress. -/
def State.writeInv (s : State) (v : Word) : State :=
  let (v, s) := s.reservedOk (mask 60 4 ||| mask 48 6 ||| mask 16 32) v
  let i := Inval.ofWord v (fld v 48 6)
  if i.bad || decide (16 ≤ s.mmu.invs.length) then s.count R.mmuInvStatus 16 16 else s.invalidate i

def execMmuInvWrite (val : Word) (s : State) : Host.Outcome State Fault Refusal := .next (s.writeInv val)

/-- Is a request outstanding that was translated through a translation that an invalidation removes? -/
def State.invBusy (s : State) (i : Inval) : Bool :=
  s.cores.any fun (_, c) => (c.engine 6).slots.any fun (_, sl) =>
    match sl with
    | some sl => (match sl.page with | some (j, va, n) => i.hits j va n | none => false)
    | none => false

end Sys2Proof.Machine
end

