-- ==== Sys2Proof/Machine/HostOps.lean ====
section
/-!
DEFINITION. Submission entries and their ends (R345 to R349).
-/

namespace Sys2Proof.Machine

/-- A word of an entry. -/
def SqEntry.w (e : SqEntry) (i : Nat) : Word := nth 0 e.words i

/-- Operation, job and flags of an entry (R345). -/
def SqEntry.op (e : SqEntry) : Nat := fld (e.w 0) 0 8
def SqEntry.job (e : SqEntry) : Nat := fld (e.w 0) 16 6
def SqEntry.fence (e : SqEntry) : Bool := bit (e.w 0) 8
def SqEntry.nocqe (e : SqEntry) : Bool := bit (e.w 0) 9

/-- A submission ring. -/
def State.sq (s : State) (n : Nat) : Sq := SMap.get (fun _ => Sq.reset) s.host.sqs n

/-- Writes a submission ring. -/
def State.setSq (s : State) (n : Nat) (q : Sq) : State :=
  { s with host := { s.host with sqs := SMap.set (fun _ => Sq.reset) s.host.sqs n q } }

/-- Ends an entry: it is no longer among the started ones, and its completion waits to be written
(R348). -/
def State.endEntry (s : State) (e : SqEntry) (status : Nat) (result : Word) : State :=
  let c : Compl := { ring := e.ring, index := e.index, job := e.job, status := status, cookie := e.w 1,
                     result := result, nocqe := e.nocqe, time := s.now }
  let q := s.sq e.ring
  let s := s.setSq e.ring { q with started := q.started.filter fun x => decide (x.index ≠ e.index) }
  { s with host := { s.host with compls := s.host.compls ++ [c] } }

/-- Ends a started entry by ring and index. -/
def State.endBy (s : State) (ring index status : Nat) (result : Word) : State :=
  match (s.sq ring).started.find? fun e => decide (e.index = index) with
  | some e => s.endEntry e status result
  | none => s

/-- The oldest fetched entry of a running ring, if it may start: fence = 1 waits for every earlier entry
(R340, R342). -/
def State.frontEntry (s : State) (ring : Nat) : Option SqEntry :=
  let q := s.sq ring
  if s.rfld (R.hifSqStatus ring) 56 2 ≠ 1 then none
  else match q.fetched with
    | e :: _ => if !e.fence || q.started.isEmpty then some e else none
    | [] => none

/-- Starts an entry: it moves from the fetched to the started ones. -/
def State.startEntry (s : State) (e : SqEntry) : State :=
  let q := s.sq e.ring
  s.setSq e.ring { q with fetched := q.fetched.tail, started := q.started ++ [e] }

/-- Are the bits of an entry outside the fields its operation names 0 (R345, R346)? Words 2 to 7 are
given by the masks of the fields used. -/
def SqEntry.fieldsOk (e : SqEntry) (flags : Word) (ms : List Word) : Bool :=
  zeroOutside (e.w 0) (mask 16 6 ||| mask 8 2 ||| mask 0 8 ||| flags) &&
  (rangeFrom 0 6).all fun i => zeroOutside (e.w (i + 2)) (nth 0 ms i)

/-- Does the entry's job agree with its ring (R345)? -/
def State.jobMatches (s : State) (e : SqEntry) : Bool :=
  bit (s.reg (R.hifSqCfg e.ring)) 62 || decide (s.rfld (R.hifSqCfg e.ring) 32 6 = e.job)

/-- Does a job exist (R338)? -/
def State.jobExists (s : State) (job : Nat) : Bool :=
  bit (s.reg (R.hifJob job)) 63 && bit (s.reg (R.mmuJobRoot job)) 0

/-- The die queues of host commands (R347). -/
def State.dieQueue (s : State) (d : Nat) : List SqEntry := SMap.get (fun _ => []) s.host.dieq d
def State.setDieQueue (s : State) (d : Nat) (l : List SqEntry) : State :=
  { s with host := { s.host with dieq := SMap.set (fun _ => []) s.host.dieq d l } }

/-- The transfer under way on a die. -/
def State.xfer (s : State) (d : Nat) : Option Transfer := SMap.get (fun _ => none) s.mmu.xfers d
def State.setXfer (s : State) (d : Nat) (x : Option Transfer) : State :=
  { s with mmu := { s.mmu with xfers := SMap.set (fun _ => none) s.mmu.xfers d x } }

/-- A line of host memory as it was read, from the operands of a command. -/
def tabLine (tabs : List (Nat × List Byte)) (line : Nat) : Option (List Byte) :=
  match tabs.find? fun x => decide (x.1 = line) with | some x => some x.2 | none => none

/-- How a translation made within one command ends: the leaf, the cause of a fault, or a read that its stop holds, or
a walker that is not free, so that the command waits. -/
inductive Xlated where
  | leaf (t : Tlb)
  | fault (cause : Nat)
  | wait
  deriving DecidableEq, Repr

/-- A whole walk at once (R237). -/
def State.walkFrom (rd : Reads) : Nat → Walk → State → State × Xlated
  | 0, _, s => (s, .fault 0x03)
  | fuel + 1, w, s =>
    let a := w.table + 8 * walkIndex w.level w.va
    if s.entryHeld w.tgt a then (s, .wait)
    else match s.readEntry w.tgt a (eccOf rd.ecc (a / 64)) (tabLine rd.tabs (a / 64)) with
      | (s, none) => (s, .fault 0x05)
      | (s, some e) =>
        match walkStep s.capacity w e with
        | .down table tgt => State.walkFrom rd fuel { w with level := w.level + 1, table := table, tgt := tgt } s
        | .leaf t => (s, .leaf t)
        | .fault c => (s, .fault c)

/-- Walks the tables of a job for an address (R237): a walk of the die, which has 32 walkers (R238, R260). -/
def State.walkNow (s : State) (rd : Reads) (core job va access kind : Nat) : State × Xlated :=
  let root := s.reg (R.mmuJobRoot job)
  if !bit root 0 then (s, .fault 0x06)
  else if 1 < fld root 4 2 then (s, .fault 0x03)
  else if s.walkersBusy (core / 288) then (s, .wait)
  else State.walkFrom rd 4 { core := core, job := job, va := va, access := access, kind := kind, level := 0,
                             table := fld root 12 36 * 2 ^ 12, tgt := fld root 4 2 }
         (s.count (R.dieMmuStats (core / 288)) 32 32)

/-- Translates an address of a save or resume transfer through the TLBs of its core and die, and by a walk where they
miss (R234, R238, R246). -/
def State.xlatNow (s : State) (rd : Reads) (core job va access kind : Nat) : State × Xlated :=
  match (s.utlb core ++ s.dtlb (core / 288)).find? fun t => t.covers job va with
  | some t =>
    if (access = 1 ∨ access = 2) ∧ !t.w then (s, .fault 0x02)
    else if kind ≠ 0 ∧ t.tgt = 1 then (s, .fault 0x07)
    else (s, .leaf t)
  | none =>
    match (s.count (R.dieMmuStats (core / 288)) 0 32).walkNow rd core job va access kind with
    | (s, .leaf t) => (s.fillTlb core t, .leaf t)
    | (_, .wait) => (s, .wait)
    | r => r

/-- The physical addresses of `n` 64 KiB pages of a job from an address; the address and cause of the first fault; or
none while the transfer waits. -/
def State.pagesOf (rd : Reads) (core job access kind : Nat) : Nat → Nat → State → State × Option (List Nat ⊕ (Nat × Nat))
  | _, 0, s => (s, some (.inl []))
  | va, n + 1, s =>
    match s.xlatNow rd core job va access kind with
    | (s, .wait) => (s, none)
    | (s, .fault c) => (s, some (.inr (va, c)))
    | (s, .leaf t) =>
      match State.pagesOf rd core job access kind (va + 65536) n s with
      | (s, some (.inl l)) => (s, some (.inl ((t.pa + (va - t.va)) :: l)))
      | r => r

end Sys2Proof.Machine
end

