-- ==== Sys2Proof/Machine/Preempt.lean ====
section
/-!
DEFINITION. Pre-emption and resume of a job on a die (R246 to R254).
-/

namespace Sys2Proof.Machine

/-- The cores of a job on a die: positions in use whose CORE_JOB names the job and that have been
started since reset (log entry 18). -/
def State.jobCores (s : State) (d job : Nat) : List Nat :=
  (rangeFrom (288 * d) 288).filter fun k =>
    let c := s.coreAt k
    decide (c.rs ≠ .fenced) && decide (c.rs ≠ .haltedReset) && decide (fld c.job 0 6 = job)

/-- Does every engine hold at its restart point (R126)? -/
def Core.enginesHeld (c : Core) : Bool := (rangeFrom 0 7).all fun n => (c.engine n).held

/-- Base and job of a PREEMPT or RESUME entry (R346). -/
def SqEntry.saveBase (e : SqEntry) : Nat := fld (e.w 3) 16 32 * 2 ^ 16

/-- Ends a transfer command (R253, R349): the completion, the event and the die's source 24. -/
def State.xferEnd (s : State) (d : Nat) (save : Bool) (job ring index status : Nat) (lost : List Nat) : State :=
  let mask := lost.foldl (fun m k =>
    let (_, r, c) := keyPos k
    m + 2 ^ (16 * r + s.logCol d r c)) 0
  let detail := b1 job ++ b1 d ++ b1 status ++ (if status = 1 then natToBytes 32 mask else [])
  let s := s.event (if save then 0x0708 else 0x0709) detail
  let result := BitVec.ofNat 64 (status + if status = 1 then lost.length * 2 ^ 8 else 0)
  (s.endBy ring index 0 result).dieEdge d 24

/-- A pre-emption of the job on the die that ended SAVE_FAULT or SAVE_ERROR, whose cores still hold their state. -/
def State.stoppedOf (s : State) (d job : Nat) : Option Transfer :=
  (s.mmu.stopped.find? fun (k, x) => decide (k = d) && decide (x.job = job)).map (·.2)

/-- Takes it off the list. -/
def State.dropStopped (s : State) (d job : Nat) : State :=
  { s with mmu := { s.mmu with stopped := s.mmu.stopped.filter fun (k, x) => !(decide (k = d) && decide (x.job = job)) } }

/-- CORE_STATE of a core at the stop request: as a pre-emption that failed recorded it, else now. -/
def State.stateAtStop (s : State) (old : Option Transfer) (k : Nat) : Nat :=
  match old.bind fun x => x.cores.find? fun c => decide (c.key = k) with
  | some c => c.state
  | none => (s.coreAt k).rs.code

/-- Starts a pre-emption (R246, R249 steps 1 and 2): controllers halt, engines are asked to stop, pending faults are
withdrawn. A job whose cores are already stopped answers BUSY, unless a pre-emption that failed stopped them, which
the host may repeat (R254). -/
def State.startSave (s : State) (d : Nat) (e : SqEntry) : State :=
  let s := s.setDieQueue d (s.dieQueue d).tail
  let ks := s.jobCores d e.job
  let old := s.stoppedOf d e.job
  if ks.isEmpty || (old.isNone && ks.all (fun k => (s.coreAt k).stopping)) then s.xferEnd d true e.job e.ring e.index 5 []
  else
    let s := s.dropStopped d e.job
    let cores := ks.map fun k =>
      ({ key := k, state := s.stateAtStop old k, withdrawn := s.mmu.faults.any fun f => decide (f.core = k) } : XferCore)
    let s := ks.foldl (fun s k => s.onKey k fun env c =>
      (if c.rs.halted then c else c.halt env .haltedCtl).stopEngines true) s
    let s := s.withdrawFaults fun f => ks.contains f.core
    let seq := (SMap.get (fun _ => 0) s.mmu.saveSeq d + 1) % 2 ^ 64
    let s := { s with mmu := { s.mmu with saveSeq := SMap.set (fun _ => 0) s.mmu.saveSeq d seq } }
    s.setXfer d (some { save := true, job := e.job, base := e.saveBase, cores := cores, lost := [], status := none,
                        seq := seq, t0 := s.now, ring := e.ring, index := e.index })

/-! The commands wait while the die's controller reloads (R494). -/

def execPreempt (d : Die) (s : State) : Host.Outcome State Fault Refusal :=
  .next (if s.reloading d.val then s else match s.xfer d.val, s.dieQueue d.val with
    | none, e :: _ => if e.op = 0x03 then s.startSave d.val e else s
    | _, _ => s)

/-! The save record (R247, R248). -/

/-- CSRs kept in the record: every RW CSR, CORE_INT_PEND and CORE_INT_INSERVICE (R248). -/
def savedCsr (k : Nat) : Bool :=
  csrWritable k true && decide (k ≠ 0x021) && decide (k ≠ 0x007) || decide (k = 0x026)

/-- Pads a byte list with zeros to a length. -/
def padTo (n : Nat) (l : List Byte) : List Byte := l.take n ++ List.replicate (n - l.length) 0#8

/-- The state region of a record but for its commit word (R248). The engine areas are
device-private: free bytes, whose meaning the model keeps beside (log entry 18). -/
def stateRegion (env : CoreEnv) (c : Core) (x : Transfer) (xc : XferCore) (lcol : Nat) (priv : List Byte) : List Byte :=
  let (d, r, _) := keyPos xc.key
  let tables := (c.engine 2).tables
  let loaded := (rangeFrom 0 16).foldl (fun m i => m + if SMap.get (fun _ => []) tables i = [] then 0 else 2 ^ i) 0
  let started := (c.engine 6).active.any fun a => decide (a.kind = .coll) && a.started
  let w0 := 0x5356 * 2 ^ 48 + 0x01 * 2 ^ 40 + x.job * 2 ^ 32 + d * 2 ^ 24 + r * 2 ^ 20 + lcol * 2 ^ 16 + loaded
  let w3 := c.mail.length + xc.withdrawn.toNat * 2 ^ 8 + started.toNat * 2 ^ 9
  let header := natToBytes 8 w0 ++ natToBytes 8 x.seq ++ natToBytes 8 x.t0 ++ natToBytes 8 w3 ++ List.replicate 32 0#8
  let regs := (rangeFrom 1 31).flatMap fun i => wordBytes (c.rg (BitVec.ofNat 5 i))
  let pcw := c.ctl.pc.toNat / 4 * 4 + c.ctl.preds.toNat * 2 ^ 17 + xc.state * 2 ^ 32 + c.ctl.frames.length * 2 ^ 40
  let frames := padTo 128 (c.ctl.frames.flatMap fun f => wordBytes f.word)
  let cnts := (rangeFrom 0 16).flatMap fun i => natToBytes 4 (c.cntr (BitVec.ofNat 4 i)).toNat
  let csrs := (rangeFrom 0 128).flatMap fun k => if savedCsr k then wordBytes ((c.csrRead env k).getD 0) else List.replicate 8 0#8
  let mail := padTo 2048 (c.mail.flatMap fun m =>
    wordBytes m.payload.w0 ++ wordBytes m.payload.w1 ++ wordBytes m.payload.w2 ++ wordBytes m.payload.w3 ++
      wordBytes m.sender ++ List.replicate 24 0#8)
  let tabs := (rangeFrom 0 16).flatMap fun i => padTo 1088 (SMap.get (fun _ => []) tables i)
  padTo 0xFFF8 (padTo 0x0E00 (header ++ regs ++ natToBytes 8 pcw ++ frames ++ cnts ++ csrs ++ mail) ++
    List.replicate 0x200 0#8 ++ padTo 14336 priv ++ tabs)

/-- The record up to its commit word (R247, R248). -/
def saveRecord (env : CoreEnv) (c : Core) (x : Transfer) (xc : XferCore) (lcol : Nat) (priv : List Byte) : List Byte :=
  Mem.bytes c.scratch 0 scratchSize ++ Mem.bytes c.pstore 0 pstoreSize ++ stateRegion env c x xc lcol priv

/-- The commit word: the NOT of W1 (R248). -/
def commitWord (seq : Nat) : List Byte := natToBytes 8 (2 ^ 64 - 1 - seq)

/-- Bytes of one record, and its 64 KiB pages (R247). -/
def recordBytes : Nat := 0x1B0000
def recordPages : Nat := 27

/-- Writes 64 KiB pieces of a record to their pages. -/
def writePages (m : SMap Byte) : List Nat → List Byte → SMap Byte
  | [], _ => m
  | a :: t, l => writePages (Mem.write m a (l.take 65536)) t (l.drop 65536)

/-- Clears the uncorrectable marks of whole pages that are written. -/
def State.cleanPages (s : State) (l : List Nat) : State :=
  { s with mem := { s.mem with bad := s.mem.bad.filter fun (k, _) => !l.any fun a => decide (a / 64 ≤ k) && decide (k < a / 64 + 1024) } }

/-- Base of the record of a core (R247). -/
def State.recordVa (s : State) (base k : Nat) : Nat :=
  let (d, r, c) := keyPos k
  base + recordBytes * (16 * r + s.logCol d r c)

/-- What translating the records of a transfer gives: the pages of the cores that have all of theirs, the faults that
hold the others, and whether one waits. -/
structure XferPages where
  ok : List (Nat × List Nat)
  bad : List (Nat × Nat × Nat)
  wait : Bool
  deriving DecidableEq, Repr

/-- Translates `n` pages of each core's record, from page `i` on (R234, R247). -/
def State.xferPages (s : State) (rd : Reads) (x : Transfer) (ks : List Nat) (i n : Nat) : State × XferPages :=
  ks.foldl (fun (s, r) k =>
    match State.pagesOf rd k x.job (if x.save then 1 else 0) (if x.save then 1 else 2) (s.recordVa x.base k + 65536 * i) n s with
    | (s, none) => (s, { r with wait := true })
    | (s, some (.inl l)) => (s, if l.any s.pageHeld then { r with wait := true } else { r with ok := r.ok ++ [(k, l)] })
    | (s, some (.inr (va, c))) => (s, { r with bad := r.bad ++ [(k, va, c)] })) (s, ⟨[], [], false⟩)

/-- Raises the faults that hold a transfer, once per core (R245, R254). -/
def State.xferFault (s : State) (x : Transfer) (bad : List (Nat × Nat × Nat)) : State :=
  bad.foldl (fun s (k, va, c) =>
    if s.mmu.faults.any fun f => decide (f.core = k) then s
    else (s.raiseFault k x.job va (if x.save then 1 else 0) c (if x.save then 1 else 2)).1) s

/-- A core whose job was saved is free for other work (R253): halted, its queues empty. It stays stopped until it
runs again (R246, R250). -/
def Core.release (c : Core) : Core :=
  let c := c.stopEngines true
  (rangeFrom 0 7).foldl (fun c n => c.setEngine n { c.engine n with queue := [], run := none, active := [], slots := [] }) c

/-- Records that lay in these pages are overwritten (R255). -/
def State.touchPages (s : State) (pages : List Nat) : State := pages.foldl (fun s p => s.touchSaved p 65536) s

/-- Writes the record of one core but for its commit word (R249 step 4). -/
def State.saveCore (s : State) (d : Nat) (x : Transfer) (xc : XferCore) (pages : List Nat) : State :=
  let (_, r, c) := keyPos xc.key
  let core := s.coreAt xc.key
  let (s, priv) := s.freeBytes 14336
  let rec_ := saveRecord (s.envAt xc.key) core x xc (s.logCol d r c) priv
  ((({ s with mem := { s.mem with bytes := writePages s.mem.bytes pages rec_ } } : State).cleanPages pages)).touchPages pages

/-- Writes the commit word of a core's record, keeps what its engine area means (R248, R249 step 5), and releases the
core. -/
def State.commitCore (s : State) (d : Nat) (x : Transfer) (xc : XferCore) : State :=
  let (_, r, c) := keyPos xc.key
  let core := s.coreAt xc.key
  let s : State := { s with
    mem := { s.mem with bytes := Mem.write s.mem.bytes (nth 0 xc.pages 26 + 0xFFF8) (commitWord x.seq) }
    mmu := { s.mmu with saved := s.mmu.saved ++
      [{ seq := x.seq, die := d, row := r, col := s.logCol d r c, job := x.job, base := x.base, eng := core.eng, run := core.ctl.run,
         timerArmed := core.timerArmed, sysArmed := core.sysArmed, pages := xc.pages, dirty := false }] } }
  s.setCore xc.key core.release

/-- A translation fault that springbok raises while it drains is withdrawn, and the record says so (R254). -/
def State.withdrawDrain (s : State) (x : Transfer) : State × Transfer :=
  let mine := fun (f : MFault) => decide (f.kind = 0) && x.cores.any fun c => decide (c.key = f.core)
  let x := { x with cores := x.cores.map fun c =>
    { c with withdrawn := c.withdrawn || s.mmu.faults.any fun f => decide (f.kind = 0) && decide (f.core = c.key) } }
  (s.withdrawFaults mine, x)

/-- The transfer, with the pages of the records that have been written. -/
def Transfer.written (x : Transfer) (ok : List (Nat × List Nat)) : Transfer :=
  { x with cores := x.cores.map fun c => match ok.find? fun y => decide (y.1 = c.key) with
    | some (_, l) => { c with pages := l } | none => c }

/-- Works on a save once every engine is held (R249 steps 3 to 6): a record whose pages translate is written, those that
meet a fault wait for it; once all are written they are committed, and the save ends (R254). -/
def State.saveWork (s : State) (d : Nat) (x : Transfer) (rd : Reads) : State :=
  let lost := (x.cores.filter fun c => decide ((s.coreAt c.key).rs = .fenced)).map (·.key)
  let finish := fun (s : State) (status : Nat) =>
    let s := s.setXfer d none
    let s := if status = 3 ∨ status = 4 then { s with mmu := { s.mmu with stopped := s.mmu.stopped ++ [(d, x)] } } else s
    s.xferEnd d true x.job x.ring x.index status lost
  match x.status with
  | some st => finish (s.withdrawFaults fun f => decide (f.core / 288 = d) && decide (f.kind = 1)) st
  | none =>
    let (s, x) := s.withdrawDrain x
    let live := x.cores.filter fun c => decide ((s.coreAt c.key).rs ≠ .fenced)
    if !live.all fun c => (s.coreAt c.key).enginesHeld then s.setXfer d (some x)
    else
      let (s, r) := s.xferPages rd x ((live.filter fun c => c.pages.isEmpty).map (·.key)) 0 recordPages
      if r.ok.any fun (_, l) => l.any s.pageOut then finish s 4
      else
        let s := r.ok.foldl (fun s (k, l) => match live.find? fun c => decide (c.key = k) with
          | some xc => s.saveCore d x xc l | none => s) s
        let x := x.written r.ok
        if !r.bad.isEmpty || r.wait then (s.setXfer d (some x)).xferFault x r.bad
        else
          let s := (x.cores.filter fun c => decide ((s.coreAt c.key).rs ≠ .fenced)).foldl (fun s xc => s.commitCore d x xc) s
          finish s (if lost.isEmpty then 0 else 1)

def execPreemptDone (d : Die) (rd : Reads) (s : State) : Host.Outcome State Fault Refusal :=
  .next (if s.reloading d.val then s else match s.xfer d.val with
    | some x => if x.save then s.saveWork d.val x rd else s
    | none => s)

/-! Resume (R251, R252). -/

/-- The instruction on which a core resumed in CORE_STATE 2 stalls: the one at its pc (R60, R62, R251). -/
def Core.stallAt (c : Core) : Option Stall :=
  match decodeWord ⟨0, 0, 0⟩ (Mem.nat c.pstore c.ctl.pc.toNat 4) with
  | some (.wait _ r cnt imm) => some (.wait cnt (c.kOperand r imm))
  | some (.rcvMsg _ rd rs1 _ _) => some (.rcv rd rs1)
  | some (.iss _ eng rq _ _ _) => some (.queue eng.toNat (.cmd (c.quad rq)))
  | some (.qwait _ eng cnt rs1 _) => some (.queue eng.toNat (.token cnt (low32 (c.rg rs1))))
  | some (.sndMsg _ rd rs1 rs2 _) => some (.queue 6 (.msg (c.rg rs1) (rs2.getLsbD 4) (rs2.setWidth 4) (c.quad rd)))
  | _ => none

/-- Restores a core from its record (R248, R251): everything but its run state. The level sources pend while their
conditions hold, so their bits are not latched (R419). `keep` is what the device-private area holds beside the
engines: the running level and the arming of the two comparisons. The spec does not name these in the saved state;
without them the model takes the level of the top frame's source, and arms a comparison whose value is not yet
reached (DESIGN CHOICE, log entry 82). -/
def Core.restore (env : CoreEnv) (c : Core) (m : Nat → Byte) (eng : SMap Engine) (keep : Option SavedEng) : Core :=
  let w := fun (o : Nat) => BitVec.ofNat 64 (bytesToNat ((rangeFrom o 8).map m))
  let st := 0x1A0000
  let g := (rangeFrom 1 31).foldl (fun (g : SMap Word) i => SMap.set (fun _ => 0) g i (w (st + 0x40 + 8 * (i - 1)))) []
  let pcw := w (st + 0x138)
  let frames := (rangeFrom 0 (min 16 (fld pcw 40 5))).map fun i => Frame.ofWord (w (st + 0x140 + 8 * i))
  let cnt := (rangeFrom 0 16).foldl (fun (t : SMap (BitVec 32)) i =>
    SMap.set (fun _ => 0) t i (BitVec.ofNat 32 (bytesToNat ((rangeFrom (st + 0x1C0 + 4 * i) 4).map m)))) []
  let csr := fun k => w (st + 0x200 + 8 * k)
  let mail := (rangeFrom 0 (min 32 (fld (w (st + 24)) 0 6))).map fun i =>
    let o := st + 0x600 + 64 * i
    ({ payload := ⟨w o, w (o + 8), w (o + 16), w (o + 24)⟩, sender := w (o + 32) } : Mail)
  let ctl := (({ c.ctl with
      thresh := fld (csr 0x024) 0 4, pend := (csr 0x020).setWidth 256 &&& ~~~ (srcBit 16 ||| srcBit 17), insvc := (csr 0x026).setWidth 256,
      frames := frames, pc := BitVec.ofNat 17 (fld pcw 2 15 * 4), preds := BitVec.ofNat 7 (fld pcw 17 7),
      vbase := (csr 0x010).setWidth 17, turn := .none }).setLevelWord 0 (csr 0x022)).setLevelWord 1 (csr 0x023)
  let run := match keep, frames.getLast? with
    | some y, _ => y.run
    | none, none => 0
    | none, some f => if f.kind then f.prev else ctl.lvl f.source
  let scratch := (rangeFrom 0 scratchSize).foldl (fun (t : SMap Byte) a => Mem.setByte t a (m a)) []
  let pstore := (rangeFrom 0 pstoreSize).foldl (fun (t : SMap Byte) a => Mem.setByte t a (m (0x180000 + a))) []
  let irq := (rangeFrom 0 16).foldl (fun (t : SMap Word) i => SMap.set (fun _ => 0) t i (csr (0x030 + i))) []
  { c with
    g := g, ctl := { ctl with run := run }, cnt := cnt, mail := mail, job := csr 0x001, ctlReg := csr 0x006,
    timerCmp := csr 0x004, sysCmp := csr 0x005, timerArmed := match keep with | some y => y.timerArmed | none => decide (c.cycle env < (csr 0x004).toNat)
    sysArmed := match keep with | some y => y.sysArmed | none => decide (env.systime < (csr 0x005).toNat)
    cntIrq := irq, mboxHwm := fld (csr 0x041) 0 6,
    scratch := scratch, pstore := pstore, eng := eng }

/-- The run state that a saved CORE_STATE resumes in (R251). -/
def RunState.ofSaved : Nat → RunState
  | 0 => .haltedReset | 1 => .running | 2 => .stalled | 3 => .sleeping | 4 => .haltedDouble | 5 => .haltedSelf
  | _ => .haltedCtl

/-- A core runs again in a saved state (R251, R252): one that stalled stalls on the instruction at its pc, which is
issued again if it is none that stalls. A collective of which a chunk had been sent ends DIE_DOWN (R250). -/
def Core.runAgain (c : Core) (state : Nat) : Core :=
  let c := c.stopEngines false
  let e := c.engine 6
  let c := c.setEngine 6 { e with active := e.active.map fun a =>
    if a.kind = .coll ∧ a.started then a.fail 1 a.errAddr else a }
  let stall := if state = 2 then c.stallAt else none
  let rs := if state = 2 ∧ stall.isNone then .running else RunState.ofSaved state
  { c with rs := rs, stall := stall, noticeHalt := rs.halted, ctl := { c.ctl with asleep := decide (rs = .sleeping) } }

/-- The cores a resume restores: those that the last save of the job at that base wrote, else every
position in use (log entry 18). -/
def State.resumeCores (s : State) (d job base : Nat) : List Nat :=
  let old := s.mmu.saved.filter fun x => decide (x.job = job) && decide (x.base = base)
  let last := (old.map (·.seq)).foldl max 0
  let ks := (old.filter fun x => decide (x.seq = last)).map fun x => posKey d x.row (s.physCol d x.row x.col)
  if ks.isEmpty then (rangeFrom (288 * d) 288).filter fun k => decide ((s.coreAt k).rs ≠ .fenced) else ks

/-- Starts a resume: in place, the cores of the pre-emption that failed run again at once (R252). -/
def State.startResume (s : State) (d : Nat) (e : SqEntry) : State :=
  let s := s.setDieQueue d (s.dieQueue d).tail
  if bit (e.w 2) 8 then
    match s.stoppedOf d e.job with
    | none => s.xferEnd d false e.job e.ring e.index 5 []
    | some x =>
      let s := s.dropStopped d e.job
      let s := x.cores.foldl (fun s xc => s.onKey xc.key fun _ c => if c.rs = .fenced then c else c.runAgain xc.state) s
      s.setXfer d (some { x with save := false, status := some 0, ring := e.ring, index := e.index })
  else
    let ks := s.resumeCores d e.job e.saveBase
    let busy := ks.any fun k => !(s.coreAt k).rs.halted
    if busy then s.xferEnd d false e.job e.ring e.index 5 []
    else s.setXfer d (some { save := false, job := e.job, base := e.saveBase,
                             cores := ks.map fun k => { key := k, state := 0, withdrawn := false },
                             lost := [], status := none, seq := 0, t0 := s.now, ring := e.ring, index := e.index })

/-- A byte of a record through its pages. -/
def pageByte (m : SMap Byte) (pages : List Nat) (o : Nat) : Byte := Mem.byte m (nth 0 pages (o / 65536) + o % 65536)

/-- A byte of a record that was written since it was saved (R255). -/
def State.freeByte (s : State) (o : Nat) : Byte :=
  BitVec.ofNat 8 ((Config.freeBits (s.free * 4096 + 2 ^ 64 * (1 + o / 8))).toNat / 256 ^ (o % 8))

/-- Is a record, whose state region is the page at `p`, whole and the one the command names (R251)? The die may
differ. -/
def State.recordOk (s : State) (x : Transfer) (k p : Nat) : Bool :=
  let (d, r, c) := keyPos k
  let w := fun (o : Nat) => BitVec.ofNat 64 (Mem.nat s.mem.bytes (p + o) 8)
  let w0 := w 0
  decide (w 0xFFF8 = ~~~ (w 8)) && decide (fld w0 48 16 = 0x5356) && decide (fld w0 40 8 = 1)
    && decide (fld w0 32 6 = x.job) && decide (fld w0 20 4 = r) && decide (fld w0 16 4 = s.logCol d r c)

/-- A core whose registers hold free values still belongs to its job (R255). -/
def Core.ofJob (c : Core) (job : Nat) : Core := { c with job := setFld c.job 0 6 job }

/-- The cores of a resume that ended RESUME_FAULT or RESUME_ERROR: halted, their contents undefined (R253);
their engines stay as they were (log entry 26). -/
def State.loseCores (s : State) (job : Nat) (ks : List Nat) : State :=
  ks.foldl (fun s k => (s.onKey k fun env c => { (c.restore env s.freeByte c.eng none).ofJob job with rs := .haltedCtl }).drew 1) s

/-- What the model keeps of the record that pages hold: that of its header's sequence, die, row and column. -/
def State.savedAt (s : State) (pages : List Nat) : Option SavedEng :=
  let p := nth 0 pages 26
  let w0 := BitVec.ofNat 64 (Mem.nat s.mem.bytes p 8)
  s.mmu.saved.find? fun y => decide (y.seq = Mem.nat s.mem.bytes (p + 8) 8) && decide (y.die = fld w0 24 3) &&
    decide (y.row = fld w0 20 4) && decide (y.col = fld w0 16 4)

/-- Restores one core of a resume, in the CORE_STATE of its record (R251, R255). -/
def State.restoreCore (s : State) (x : Transfer) (k : Nat) (pages : List Nat) : State :=
  (s.onKey k fun env c =>
    let old := s.savedAt pages
    let dirty := old.any (·.dirty)
    let m := if dirty then s.freeByte else pageByte s.mem.bytes pages
    let st := fld (BitVec.ofNat 64 (bytesToNat ((rangeFrom 0x1A0138 8).map m))) 32 3
    let c := c.restore env m (match old with | some y => y.eng | none => []) old
    (if dirty then c.ofJob x.job else c).runAgain st).drew 1

/-- Works on a resume (R251, R254). The header and the commit word of every record are read first, and a record that
is not whole refuses it; a fault holds it; an uncorrectable line ends it; else every core is restored and then all
run. -/
def State.resumeWork (s : State) (d : Nat) (x : Transfer) (rd : Reads) : State :=
  match x.status with
  | some _ => s
  | none =>
    let ks := x.cores.map (·.key)
    let set := fun (s : State) (n : Nat) => s.setXfer d (some { x with status := some n })
    let (s, h) := s.xferPages rd x ks 26 1
    if !h.bad.isEmpty then s.xferFault x h.bad
    else if h.wait then s
    else
      let heads := h.ok.map fun (k, l) => (k, nth 0 l 0)
      let (s, good) := heads.foldl (fun (s, ok) (_, p) =>
        let (s, a) := s.readLine (p / 64) (eccOf rd.ecc (p / 64))
        let (s, b) := s.readLine (p / 64 + 1023) (eccOf rd.ecc (p / 64 + 1023))
        (s, ok && a && b)) (s, true)
      if !good || heads.any fun (_, p) => s.stackOut p || s.stackOut (p + 0xFF00) then set (s.loseCores x.job ks) 8
      else if !heads.all fun (k, p) => s.recordOk x k p then set s 6
      else
        let (s, r) := s.xferPages rd x ks 0 recordPages
        if !r.bad.isEmpty then s.xferFault x r.bad
        else if r.wait then s
        else
          let pages := r.ok.flatMap (·.2)
          let (s, good) := s.readPages pages rd.ecc
          if !good || pages.any s.pageOut then set (s.loseCores x.job ks) 8
          else set (r.ok.foldl (fun s (k, l) => s.restoreCore x k l) s) 0

def execResume (d : Die) (rd : Reads) (s : State) : Host.Outcome State Fault Refusal :=
  .next (if s.reloading d.val then s else match s.xfer d.val, s.dieQueue d.val with
    | none, e :: _ =>
      if e.op = 0x04 then
        let s := s.startResume d.val e
        match s.xfer d.val with
        | some x => if x.save then s else s.resumeWork d.val x rd
        | none => s
      else s
    | _, _ => s)

def execResumeDone (d : Die) (rd : Reads) (s : State) : Host.Outcome State Fault Refusal :=
  .next (if s.reloading d.val then s else match s.xfer d.val with
    | none => s
    | some x =>
      if x.save then s
      else
        let s := s.resumeWork d.val x rd
        match s.xfer d.val with
        | some x =>
          (match x.status with
          | some st =>
            let s := s.withdrawFaults fun f => decide (f.core / 288 = d.val) && decide (f.kind = 2)
            let s := if st = 7 then s.loseCores x.job (x.cores.map (·.key)) else s
            (s.setXfer d.val none).xferEnd d.val false x.job x.ring x.index st []
          | none => s)
        | none => s)

end Sys2Proof.Machine
end

