-- ==== Sys2Proof/Machine/Fabric.lean ====
section
/-!
DEFINITION. The torus, the port links and the routing of packets between devices (R261 to R284).
-/

namespace Sys2Proof.Machine

/-! The torus (R261 to R263). Directions: 0 X+, 1 Y+, 2 X-, 3 Y-; dimensions: 0 X, 1 Y. -/

/-- Does the active FAB_TOPO describe a place in a torus (R261)? -/
def topoOk (w : Word) : Bool :=
  bit w 63 && decide (1 ≤ fld w 16 6) && decide (fld w 16 6 ≤ 32) && decide (1 ≤ fld w 24 5) && decide (fld w 24 5 ≤ 16)
    && decide (fld w 0 5 < fld w 16 6) && decide (fld w 8 4 < fld w 24 5)

/-- FAB_STATUS.topo_valid. -/
def State.topoValid (s : State) : Bool := bit (s.reg R.fabStatus) 0

/-- Size of a dimension, and this device's coordinate in it. -/
def State.dimSize (s : State) (dim : Nat) : Nat := if dim = 0 then s.rfld R.fabTopo 16 6 else s.rfld R.fabTopo 24 5
def State.myCoord (s : State) (dim : Nat) : Nat := if dim = 0 then s.rfld R.fabTopo 0 5 else s.rfld R.fabTopo 8 4

/-- Coordinate of a device index in a dimension, and the index of a place. -/
def devCoord (dim d : Nat) : Nat := if dim = 0 then d % 32 else d / 32
def devAt (x y : Nat) : Nat := 32 * y + x

/-- Dimension and opposite of a direction. -/
def dirDim (m : Nat) : Nat := m % 2
def dirOpp (m : Nat) : Nat := (m + 2) % 4

/-- A coordinate one step on in a direction. -/
def stepCoord (size c m : Nat) : Nat :=
  if size = 0 then c else if m < 2 then (c + 1) % size else (c + size - 1) % size

/-- The adjacent device in a direction. -/
def State.nextDev (s : State) (m : Nat) : Nat :=
  let c := stepCoord (s.dimSize (dirDim m)) (s.myCoord (dirDim m)) m
  if dirDim m = 0 then devAt c (s.myCoord 1) else devAt (s.myCoord 0) c

/-- The direction that port stop `20 + i` serves: the higher of two stops of one direction serves none
(R262). -/
def State.stopDir (s : State) (i : Nat) : Option Nat :=
  let d := fun j => s.rfld R.fabStopDir (3 * j) 3
  if 4 ≤ d i then none
  else if (rangeFrom 0 i).any (fun j => decide (d j = d i)) then none
  else some (d i)

/-- The direction of a port, and the ports of a direction. -/
def State.portDir (s : State) (p : Nat) : Option Nat := s.stopDir (p / 3)
def State.dirPorts (s : State) (m : Nat) : List Nat := (rangeFrom 0 12).filter fun p => decide (s.portDir p = some m)

/-- Is a port dark: its dimension has size 1 (R262)? -/
def State.portDark (s : State) (p : Nat) : Bool :=
  s.topoValid && (match s.portDir p with | some m => decide (s.dimSize (dirDim m) ≤ 1) | none => true)

/-- State of a port's link (R268), and its write. -/
def State.portState (s : State) (p : Nat) : Nat := s.rfld (R.portLaneStatus p) 0 4
def State.setPortState (s : State) (p v : Nat) : State :=
  let t := s.setRfld (R.portLaneStatus p) 0 4 v
  if s.portState p = v then t else t.stagEdge (28 + p)

/-- Does a port carry packets? -/
def State.portUp (s : State) (p : Nat) : Bool := decide (s.portState p = 3) || decide (s.portState p = 4)

/-- The up ports of a direction. -/
def State.upPorts (s : State) (m : Nat) : List Nat := (s.dirPorts m).filter s.portUp

/-- A port's link. -/
def State.link (s : State) (p : Nat) : Link := SMap.get (fun _ => Link.reset) s.fab.links p
def State.setLink (s : State) (p : Nat) (l : Link) : State :=
  { s with fab := { s.fab with links := SMap.set (fun _ => Link.reset) s.fab.links p l } }

/-- Free credit of a link toward a buffer of the far end (R275). -/
def Link.credit (l : Link) (k : Nat) : Nat := SMap.get bufSize l.credits k
def Link.setCredit (l : Link) (k n : Nat) : Link := { l with credits := SMap.set bufSize l.credits k (min (bufSize k) n) }

/-! Packets on links (R265, R266, R269). -/

/-- The network of a packet on the fabric: 0 REQ, 1 RSP, 2 COL, 3 MGT (R175, R267, R320). -/
def fabVn (type : Nat) : Nat :=
  if type = 0x01 ∨ type = 0x02 ∨ type = 0x03 ∨ type = 0x06 ∨ type = 0x08 then 0
  else if type = 0x0C ∨ type = 0x0D ∨ type = 0x0E then 2
  else if 0x0F ≤ type ∧ type ≠ PT.xack then 3 else 1

/-- Must a packet keep its order (R280)? -/
def fabOrdered (p : Pkt) : Bool := p.ordered || decide (fabVn p.type = 3)

/-- Flits of a packet (R266). -/
def pktFlits (p : Pkt) : Nat := 1 + (p.data.length - 32 + 63) / 64

/-- ftype of flit `i` of a packet of `n` (R265). -/
def ftypeOf (n i : Nat) : Nat := if n = 1 then 4 else if i = 0 then 1 else if i + 1 = n then 3 else 2

/-- The payload of flit `i` of a packet: its Chomet header, whose stops and crc read 0 on the fabric, in the first 32 B
of the head flit; then its data (R266; log entry 85). -/
def flitData (p : Pkt) (i : Nat) : List Byte :=
  let l := natToBytes 32 (hdrFields 0 0 0 false p) ++ p.data
  let d := (l.drop (64 * i)).take 64
  d ++ List.replicate (64 - d.length) 0#8

/-- The flits of a packet on a network and channel. -/
def flitsOf (p : Pkt) (vc dst seq : Nat) : List Flit :=
  let n := pktFlits p
  (rangeFrom 0 n).map fun i =>
    { dst := dst, src := p.srcDev, vn := fabVn p.type, vc := vc, ftype := ftypeOf n i, seq := (seq + i) % 4096, stomp := false,
      epoch := p.epoch, data := flitData p i, pkt := if i = 0 then some p else none }

/-- A flit's header with what it carries back, without its CRC; an absent credit index is 15 (R265). -/
def flitHeader (dst src vn vc ftype seq : Nat) (stomp epoch : Bool) (ack : Option Nat) (crIdx crCnt : Nat) : Nat :=
  let f := fun v lo len => v % 2 ^ len * 2 ^ lo
  f dst 119 9 + f src 110 9 + f vn 108 2 + f vc 106 2 + f ftype 103 3 + f seq 91 12 + f (ack.getD 0) 79 12
    + f ack.isSome.toNat 78 1 + f stomp.toNat 77 1 + f epoch.toNat 76 1 + f crIdx 72 4 + f crCnt 64 8

/-- The 80 bytes of a flit: its header with the CRC-32 over the rest, and its payload. -/
def flitBytes (header : Nat) (data : List Byte) : List Byte :=
  let b := natToBytes 16 header
  natToBytes 4 (crc32 (b.drop 4 ++ data)) ++ b.drop 4 ++ data

/-- The flit that an entry of the device's output puts on a port: the NAK's seq and the TRAIN's report stand in the
payload, which the spec does not lay out (log entry 85). -/
def outFlit : Out → Option (Nat × List Byte)
  | .flit p f ack =>
    some (p, flitBytes (flitHeader f.dst f.src f.vn f.vc f.ftype f.seq f.stomp f.epoch ack 15 0) f.data)
  | .idle p ack i n => some (p, flitBytes (flitHeader 0 0 0 0 0 0 false false ack i n) (List.replicate 64 0#8))
  | .nak p seq => some (p, flitBytes (flitHeader 0 0 0 0 5 0 false false none 15 0) (natToBytes 64 seq))
  | .train p dev digest lanes =>
    some (p, flitBytes (flitHeader 0 0 0 0 6 0 false false none 15 0)
      (natToBytes 2 dev ++ natToBytes 2 p ++ natToBytes 8 digest ++ natToBytes 52 lanes.toNat))
  | _ => none

/-- The last seq received in order, as flits carry it back: none until something has been received. -/
def Link.ackOut (l : Link) : Option Nat := if l.rxAny then some ((l.rxSeq + 4095) % 4096) else none

/-- Has a link room for a packet on a channel: credit at the far end, and its own replay buffer? -/
def State.canSend (s : State) (p : Nat) (k : Pkt) (vc : Nat) : Bool :=
  let l := s.link p
  decide (pktFlits k ≤ l.credit (3 * fabVn k.type + vc)) && decide (l.replay.length + pktFlits k ≤ 512)

/-- Sends flits on a port: they leave in order and stay in the replay buffer (R269). -/
def State.sendFlits (s : State) (p : Nat) (fs : List Flit) (i : Nat) (came : Nat × Option Nat) : State :=
  let l := s.link p
  let l := { l.setCredit i (l.credit i - fs.length) with
    txSeq := (l.txSeq + fs.length) % 4096, replay := l.replay ++ fs.map (fun f => (s.now, f)),
    came := (l.came.filter fun x => l.replay.any fun y => decide (y.2.seq = x.1)) ++ [(l.txSeq, came)] }
  (s.setLink p l).emits (fs.map fun f => .flit p f l.ackOut)

/-- Sends a packet on a port, with the channel and direction by which it came to this device. -/
def State.sendOn (s : State) (p : Nat) (k : Pkt) (vc dst : Nat) (came : Nat × Option Nat := (0, none)) : State :=
  s.sendFlits p (flitsOf k vc dst (s.link p).txSeq) (3 * fabVn k.type + vc) came

/-! Fence marks (R281). -/

/-- Is a device marked fenced? -/
def State.devFenced (s : State) (d : Nat) : Bool := decide (d < 512) && bit (s.reg (R.fabFence (d / 64))) (d % 64)

/-! Routing (R278 to R283). -/

/-- The minimal directions in a dimension from a coordinate to another: none, one, or both. -/
def minimalDirs (size dim c d : Nat) : List Nat :=
  if size = 0 ∨ c = d then []
  else
    let up := (d + size - c) % size
    if 2 * up < size then [dim] else if 2 * up = size then [dim, dim + 2] else [dim + 2]

/-- The minimal directions toward a device. -/
def State.minimalTo (s : State) (d : Nat) : List Nat :=
  minimalDirs (s.dimSize 0) 0 (s.myCoord 0) (devCoord 0 d) ++ minimalDirs (s.dimSize 1) 1 (s.myCoord 1) (devCoord 1 d)

/-- The up port with the most free credit for a buffer, the lower number on a tie (R278). -/
def State.bestPort (s : State) (k : Nat) : List Nat → Option Nat
  | [] => none
  | p :: t =>
    match s.bestPort k t with
    | none => some p
    | some q =>
      let (a, b) := ((s.link p).credit k, (s.link q).credit k)
      if b < a ∨ (a = b ∧ p < q) then some p else some q

/-- Is the leg from this device toward coordinate `d` of a dimension, in direction `m`, blocked before
its end: by a fenced device on it, or by the direction being down here (R281)? -/
def State.pathBlocked (s : State) (d m : Nat) : Bool :=
  let dim := dirDim m
  let size := s.dimSize dim
  let at_ := fun c => if dim = 0 then devAt c (s.myCoord 1) else devAt (s.myCoord 0) c
  let len := if size = 0 then 0 else if m < 2 then (d + size - s.myCoord dim) % size else (s.myCoord dim + size - d) % size
  (s.upPorts m).isEmpty ||
    ((rangeFrom 1 (len - 1)).any fun i =>
      s.devFenced (at_ (if size = 0 then 0 else if m < 2 then (s.myCoord dim + i) % size else (s.myCoord dim + size - i % size) % size)))

/-- What the escape route of a packet says: a direction, with the relay device to go by if one is
taken; or that it is unreachable; or that it would reverse. -/
inductive Escape where
  | go (m : Nat) (relay : Option Nat)
  | unreachable
  | reverse
  deriving DecidableEq, Repr

/-- The escape direction of a packet (R281): dimension order, the relay at this column when the turning
device is fenced, the other way round when the leg is blocked. -/
def State.escapeDir (s : State) (q : FabPkt) : Escape :=
  let cx := s.myCoord 0
  let cy := s.myCoord 1
  let dx := devCoord 0 q.dst
  let dy := devCoord 1 q.dst
  let turn := decide (cx ≠ dx) && s.devFenced (devAt dx cy) && decide (cy ≠ dy)
  let (dim, d, relay) := if turn then (1, devAt cx dy, some (devAt cx dy))
    else if cx ≠ dx then (0, q.dst, none) else (1, q.dst, none)
  if s.devFenced d then .unreachable
  else
    let c := s.myCoord dim
    let t := devCoord dim d
    let m := match minimalDirs (s.dimSize dim) dim c t with | m :: _ => m | [] => dim
    let m := if s.pathBlocked t m then dirOpp m else m
    if s.pathBlocked t m then .unreachable
    else if q.from_ = some m then .reverse
    else .go m relay

/-- The channel after the dateline rule (R279): low on entering a dimension, high from its wrap link on. -/
def State.datelineVc (s : State) (q : FabPkt) (m : Nat) : Nat :=
  let same := match q.from_ with | some f => decide (dirDim f = dirDim m) | none => false
  let c := s.myCoord (dirDim m)
  let wraps := if m < 2 then decide (c + 1 = s.dimSize (dirDim m)) else decide (c = 0)
  if wraps || (same && decide (q.vc = 2)) then 2 else 1

/-- A core endpoint as R274 numbers it. -/
def endpointOf (dev die row col : Nat) : Nat := dev * 2 ^ 11 + die % 8 * 2 ^ 8 + row % 16 * 2 ^ 4 + col % 16

/-- Port k_0 of an ordered packet, from its core endpoints with their logical columns (R280). -/
def orderedPort (p : Pkt) : Nat :=
  (endpointOf p.srcDev p.srcDie p.srcRow p.lcol ^^^ endpointOf p.dstDev p.dstDie p.dstRow p.dcol) % 3

/-- Does a port that has returned to service take an ordered packet of `k0`: have the ports that stood in for it
delivered those that they held (R280)? -/
def State.portReturned (s : State) (p k0 : Nat) : Bool :=
  (s.link p).after.all fun (q, upto) => !((s.link q).replay.any fun (_, f) =>
    decide (1 ≤ (upto + 4096 - f.seq % 4096) % 4096) && decide ((upto + 4096 - f.seq % 4096) % 4096 ≤ 2048) &&
      match f.pkt with | some k => fabOrdered k && decide (orderedPort k = k0) | none => false)

/-- The port of a direction for an escape packet (R280). -/
def State.escapePort (s : State) (m : Nat) (p : Pkt) (vc : Nat) : Option Nat :=
  if fabOrdered p then
    let k0 := orderedPort p
    let ports := s.dirPorts m
    ([k0, (k0 + 1) % 3, (k0 + 2) % 3].filterMap fun k =>
      ports.find? fun q => decide (q % 3 = k) && s.portUp q && (decide (k ≠ k0) || s.portReturned q k0)).head?
  else s.bestPort (3 * fabVn p.type + vc) (s.upPorts m)

/-- The adaptive port for a packet, if one has room (R278). -/
def State.adaptivePort (s : State) (q : FabPkt) : Option Nat :=
  if q.vc ≠ 0 ∨ q.esc ∨ fabOrdered q.pkt ∨ !bit (s.reg R.fabRouteCtl) 0 then none
  else
    let ports := (s.minimalTo q.dst).flatMap fun m => if s.devFenced (s.nextDev m) then [] else s.upPorts m
    s.bestPort (3 * fabVn q.pkt.type) (ports.filter fun p => s.canSend p q.pkt 0)

/-- What is done with a packet at a device (R278, R281, R282). -/
inductive Route where
  | eject
  | relay
  | send (port vc dst : Nat) (relay : Bool)
  | wait
  | unreachable
  | reverse
  deriving DecidableEq, Repr

/-- The route of a packet (R278). -/
def State.route (s : State) (q : FabPkt) : Route :=
  if q.dst = s.devIndex then (if q.pkt.relay then .relay else .eject)
  else if s.devFenced q.dst then .unreachable
  else match s.adaptivePort q with
    | some p => .send p 0 q.dst q.pkt.relay
    | none =>
      match s.escapeDir q with
      | .unreachable => .unreachable
      | .reverse => .reverse
      | .go m relay =>
        let vc := s.datelineVc q m
        match s.escapePort m q.pkt vc with
        | none => .wait
        | some p => if s.canSend p q.pkt vc then .send p vc (relay.getD q.dst) (q.pkt.relay || relay.isSome) else .wait

/-- The state as a packet of the other epoch sees it while both configuration sets are held: the
routing registers of the shadow set (R277, R360). -/
def State.routeView (s : State) (epoch : Bool) : State :=
  if epoch ≠ s.epoch ∧ s.host.swapStart.isSome then
    [R.fabTopo, R.fabStopDir, R.fabRouteCtl].foldl (fun v r => v.setReg r (s.shadowReg r)) s
  else s

/-- Counts in a field of FAB_DISCARD: 48 reverse, 32 unreachable, 16 relay, 0 reroute. -/
def State.discard (s : State) (lo : Nat) : State := s.count R.fabDiscard lo 16

/-- Returns flits of credit to the far end of a port, with the acknowledgement; a link that carries no traffic now keeps
them until it does (R265, R268, R275). -/
def State.giveCredit (s : State) (p buf n : Nat) : State :=
  if s.portUp p then s.emit (.idle p (s.link p).ackOut buf n)
  else s.setLink p { s.link p with owe := (s.link p).owe ++ [(buf, n)] }

/-- Returns the credits of a packet's buffer. -/
def State.returnCredit (s : State) (q : FabPkt) : State :=
  match q.port with
  | some p => s.giveCredit p (3 * fabVn q.pkt.type + q.vc) (pktFlits q.pkt)
  | none => s

/-- A link carries traffic again: the credits that waited go back. -/
def State.payCredits (s : State) (p : Nat) : State :=
  let l := s.link p
  l.owe.foldl (fun s (b, n) => s.giveCredit p b n) (s.setLink p { l with owe := [] })

/-- Queues a packet that the device itself sends into the fabric. -/
def State.inject (s : State) (stop : Nat) (p : Pkt) : State :=
  { s with fab := { s.fab with queue := s.fab.queue ++ [{ stop := stop, pkt := p, vc := 0, dst := p.dstDev, port := none }] } }

/-- A packet whose destination is fenced or unreachable, or that would have to reverse, is discarded and counted in a
field; a request is answered DIE_DOWN (R281, R282). -/
def State.dropUnreachable (s : State) (q : FabPkt) (lo : Nat) : State :=
  let s := s.discard lo
  if fabVn q.pkt.type = 0 then
    let r := q.pkt.fail 1
    if r.dstDev = s.devIndex then s.emit (.pkt r) else s.inject q.stop r
  else s

/-- Carries out the route of a packet that has been taken from its queue; none while it waits. -/
def State.routed (s : State) (q : FabPkt) : Option State :=
  match (s.routeView q.pkt.epoch).route q with
  | .wait => none
  | .eject => some ((s.emit (.pkt q.pkt)).returnCredit q)
  | .relay =>
    some ((if 256 ≤ s.fab.relayBuf.length then s.discard 16
      else { s with fab := { s.fab with relayBuf := s.fab.relayBuf ++ [q.pkt] } }).returnCredit q)
  | .send p vc dst relay =>
    let came := if q.vc = 0 ∧ (vc ≠ 0 ∨ q.esc) then 1 else q.vc
    some ((s.sendOn p { q.pkt with relay := relay } vc dst (came, q.from_)).returnCredit q)
  | .unreachable => some ((s.dropUnreachable q 32).returnCredit q)
  | .reverse => some ((s.dropUnreachable q 48).returnCredit q)

/-- Are two packets in one buffer: of one port stop and input, network and channel (R275)? -/
def FabPkt.sameBuf (a b : FabPkt) : Bool :=
  decide (a.stop = b.stop) && decide (a.port = b.port) && decide (a.vc = b.vc) && decide (fabVn a.pkt.type = fabVn b.pkt.type)

/-- The packets at the heads of a port stop's buffers. -/
def headsOf (stop : Nat) : List FabPkt → List FabPkt → List FabPkt
  | _, [] => []
  | seen, q :: t =>
    if q.stop = stop ∧ !(seen.any q.sameBuf) then q :: headsOf stop (q :: seen) t else headsOf stop seen t

def State.heads (s : State) (stop : Nat) : List FabPkt := headsOf stop [] s.fab.queue

/-- Can a packet go now? -/
def State.canGo (s : State) (q : FabPkt) : Bool := decide ((s.routeView q.pkt.epoch).route q ≠ .wait)

/-- The heads of a stop's buffers look at their routes: one that found no room moves to the escape channels (R278), and
one that can go is ready from now on (R276). -/
def State.markHeads (s : State) (stop : Nat) : State :=
  let look := fun (q : FabPkt) =>
    if s.canGo q then { q with ready := some (q.ready.getD s.now) } else { q with esc := true, ready := none }
  { s with fab := { s.fab with queue := s.fab.queue.map fun q => if (s.heads stop).contains q then look q else q } }

/-- The head that a port stop serves: one that has been ready for FAB_ROUTE_CTL.age, else of RSP, MGT, COL, REQ in this
order (R276). -/
def State.granted (s : State) (stop : Nat) : Option FabPkt :=
  let hs := (s.heads stop).filter fun q => q.ready.isSome
  match hs.find? (fun q => decide (q.ready.getD s.now + 1000 * s.rfld R.fabRouteCtl 8 8 ≤ s.now)) with
  | some q => some q
  | none => ([1, 3, 2, 0].filterMap fun vn => hs.find? fun q => decide (fabVn q.pkt.type = vn)).head?

/-- A port stop routes the packet that it grants; a packet from the base goes in last
(R276, R278). While the topology is not valid no packet moves (R261). -/
def State.routeHead (s : State) (stop : Nat) : State :=
  if !s.topoValid then s
  else
    let s := s.markHeads stop
    match s.granted stop with
    | none => s
    | some q => (({ s with fab := { s.fab with queue := s.fab.queue.erase q } } : State).routed q).getD s

def execRoutePacket (stop : Fin 4) (inject : Option Pkt) (s : State) : Host.Outcome State Fault Refusal :=
  .next ((match inject with | some p => s.inject stop.val p | none => s).routeHead stop.val)

/-- A relay sends its oldest packet on toward the final destination, on escape channels (R283). -/
def execRelayForward (s : State) : Host.Outcome State Fault Refusal :=
  .next (if !s.topoValid then s
    else match s.fab.relayBuf with
    | [] => s
    | p :: t =>
      let q : FabPkt := { stop := 0, pkt := { p with relay := false }, vc := 1, dst := p.dstDev, port := none }
      match ({ s with fab := { s.fab with relayBuf := t } }.count R.fabRelay 0 32).routed q with
      | some s' => s'
      | none => s)

/-- Sends a packet to the adjacent device in a direction through its stop's queue. -/
def State.sendAdjacent (s : State) (m : Nat) (p : Pkt) : State :=
  match (s.dirPorts m).head? with
  | some q => s.inject (q / 3) { p with srcDev := s.devIndex, dstDev := s.nextDev m, epoch := s.epoch }
  | none => s

/-- The directions with an up port. -/
def State.upDirs (s : State) : List Nat := (rangeFrom 0 4).filter fun m => !(s.upPorts m).isEmpty

/-- Sends a flood to every neighbour (R281). -/
def State.flood (s : State) (type dev orig seq : Nat) : State :=
  s.upDirs.foldl (fun s m => s.sendAdjacent m
    { Pkt.empty with type := type, data := natToBytes 2 dev ++ natToBytes 2 orig ++ natToBytes 4 seq }) s

end Sys2Proof.Machine
end

