-- ==== Sys2Proof/Machine/Collect.lean ====
section
/-!
DEFINITION. Collective contexts (R181, R285 to R292) and their tail acknowledgements.
-/

namespace Sys2Proof.Machine

/-! The definition (R285, R286). -/

/-- Is a definition's first member at an edge of the dimension, and which member is this device? -/
def State.ctxIndex (s : State) (w : Word) : Option Nat :=
  let dim := (bit w 3).toNat
  let size := s.dimSize dim
  let me := s.myCoord dim
  let first := fld w 5 5
  if size = 0 ∨ size ≤ first then none
  else
    let i := if bit w 4 then (first + size - me) % size else (me + size - first) % size
    if i < fld w 10 6 then some i else none

/-- The direction of reduction. -/
def ctxDir (w : Word) : Nat := (bit w 3).toNat + if bit w 4 then 2 else 0

/-- Is a definition invalid (R286)? -/
def State.ctxInvalid (s : State) (w : Word) : Bool :=
  let red := fld w 19 3
  let wire := fld w 16 3
  let dim := (bit w 3).toNat
  let pair := if fld w 1 2 = 1 then decide (red = 0)
    else if wire = 1 then decide (red = 2) else decide (wire < 4) && (decide (red = 1) || decide (red = 3) || decide (red = 4))
  decide (s.dimSize dim < fld w 10 6) || (s.ctxIndex w).isNone || decide (fld w 49 5 < 1) || decide (16 < fld w 49 5)
    || decide (fld w 34 4 < fld w 30 4) || decide (fld w 42 4 < fld w 38 4) || decide (fld w 22 8 = 0)
    || decide (1 < fld w 1 2) || !pair

/-- The members of a definition, in order. -/
def State.ctxMembers (s : State) (w : Word) : List Nat :=
  let dim := (bit w 3).toNat
  let size := s.dimSize dim
  (rangeFrom 0 (fld w 10 6)).map fun i =>
    let c := if size = 0 then 0 else if bit w 4 then (fld w 5 5 + size * 32 - i) % size else (fld w 5 5 + i) % size
    if dim = 0 then devAt c (s.myCoord 1) else devAt (s.myCoord 0) c

/-- The downstream and the upstream member adjacent to this one. -/
def State.ctxDown (s : State) (w : Word) : Option Nat :=
  match s.ctxIndex w with
  | some i => if i + 1 < fld w 10 6 then some (s.nextDev (ctxDir w)) else none
  | none => none
def State.ctxUp (s : State) (w : Word) : Option Nat :=
  match s.ctxIndex w with
  | some i => if 0 < i then some (s.nextDev (dirOpp (ctxDir w))) else none
  | none => none

/-- What CTX_READY says of a definition: every field but the dies and the rectangle (R287). -/
def ctxDigest (w : Word) : Word := w &&& (mask 0 54 &&& ~~~ (mask 22 8) &&& ~~~ (mask 30 16))

/-- A context beside its registers. -/
def State.ctx (s : State) (n : Nat) : ColCtx := SMap.get (fun _ => ColCtx.reset) s.fab.ctxs n
def State.setCtx (s : State) (n : Nat) (x : ColCtx) : State :=
  { s with fab := { s.fab with ctxs := SMap.set (fun _ => ColCtx.reset) s.fab.ctxs n x } }

/-- State of a context, and its write with a cause. -/
def State.ctxState (s : State) (n : Nat) : Nat := s.rfld (R.colCtxStatus n) 0 3
def State.setCtxState (s : State) (n st cause : Nat) : State :=
  (s.setRfld (R.colCtxStatus n) 0 3 st).setRfld (R.colCtxStatus n) 4 4 cause

/-! The mesh trees (R181). -/

/-- The physical columns of the participants in a row of a die. -/
def State.ctxCols (s : State) (w : Word) (d r : Nat) : List Nat :=
  (rangeFrom (fld w 38 4) (fld w 42 4 + 1 - fld w 38 4)).map (s.physCol d r)

/-- The reduction entry of a router in the tree, if it is in it. -/
def State.treeEntry (s : State) (w : Word) (d r c : Nat) : Option RedEntry :=
  let (cr, cc) := s.collector w d
  let part := fun x => decide (fld w 30 4 ≤ x) && decide (x ≤ fld w 34 4)
  let rows := (rangeFrom 0 16).filter part
  let cols := if part r then s.ctxCols w d r else []
  let l := (cols.contains c).toNat
  let west := (cols.any fun x => decide (x < c)).toNat
  let east := (cols.any fun x => decide (c < x)).toNat
  let north := (rows.any fun x => decide (x < r)).toNat
  let south := (rows.any fun x => decide (r < x)).toNat
  let (out, inputs) :=
    if c < cc then (3, l + 4 * west)
    else if cc < c then (2, l + 2 * east)
    else if r < cr then (1, l + 4 * west + 2 * east + 16 * north)
    else if cr < r then (0, l + 4 * west + 2 * east + 8 * south)
    else (5, l + 4 * west + 2 * east + 16 * north + 8 * south)
  if inputs = 0 then none else some { red := fld w 19 3, out := out, inputs := inputs }

/-- The routers of the tree on a die, by key. -/
def State.tree (s : State) (w : Word) (d : Nat) : List (Nat × RedEntry) :=
  (rangeFrom 0 288).filterMap fun p =>
    match s.treeEntry w d (p / 18) (p % 18) with | some e => some (288 * d + p, e) | none => none

/-- Is a context's tree needed, and on which dies? -/
def ctxDies (w : Word) : List Nat := (rangeFrom 0 8).filter fun d => bit w (22 + d)

/-- Routers of the trees that lack two free slots of their 32 (R181). -/
def State.noMeshSlots (s : State) (l : List (Nat × RedEntry)) : Bool :=
  l.any fun (k, _) => decide (16 ≤ (s.routerAt k).entries.length)

/-- Writes the trees of a context. -/
def State.writeTree (s : State) (n : Nat) (l : List (Nat × RedEntry)) : State :=
  l.foldl (fun s (k, e) =>
    let rt := s.routerAt k
    (s.setRouter k { rt with entries := SMap.set (fun _ => none) rt.entries n (some e) }).setReg (R.dieMeshRedUse (k / 288))
      (setBit (s.reg (R.dieMeshRedUse (k / 288))) n true)) s

/-- Frees what a context holds: router entries and slots, port-stop slots, credits. -/
def State.freeCtx (s : State) (n : Nat) : State :=
  let x := s.ctx n
  let s := s.routers.foldl (fun s (k, rt) =>
    s.setRouter k { entries := SMap.set (fun _ => none) rt.entries n none, slots := rt.slots.filter fun y => decide (y.ctx ≠ n) }) s
  let s := (rangeFrom 0 8).foldl (fun s d => s.setReg (R.dieMeshRedUse d) (setBit (s.reg (R.dieMeshRedUse d)) n false)) s
  let s := x.stops.foldl (fun s i => s.setRfld R.colPool (16 * i) 11 (s.rfld R.colPool (16 * i) 11 + x.reserved)) s
  s.setCtx n ColCtx.reset

/-! Creation (R287). -/

/-- The creation fails with a cause. -/
def State.ctxFail (s : State) (n cause : Nat) : State :=
  ((s.freeCtx n).setCtxState n 4 cause).event 0x0808 (b1 n ++ b1 cause)

/-- A waiting context looks at the CTX_READY messages of its neighbours: ready when all match. -/
def State.ctxSettle (s : State) (n : Nat) : State :=
  if s.ctxState n ≠ 2 then s
  else
    let x := s.ctx n
    let said : Option Nat → Option (Word × Nat) := fun d => match d with
      | none => some (x.defn, 0)
      | some d => (x.readyFrom.find? fun y => decide (y.1 = d)).map (·.2)
    match said (s.ctxDown x.defn), said (s.ctxUp x.defn) with
    | some a, some b =>
      if ctxDigest a.1 ≠ ctxDigest x.defn ∨ ctxDigest b.1 ≠ ctxDigest x.defn then s.ctxFail n 5
      else ((s.setCtx n { x with down := a.2, up := b.2 }).setCtxState n 3 0).event 0x0807 (b1 n)
    | some a, none => if ctxDigest a.1 ≠ ctxDigest x.defn then s.ctxFail n 5 else s
    | none, some b => if ctxDigest b.1 ≠ ctxDigest x.defn then s.ctxFail n 5 else s
    | none, none => s

/-- Creates a context from its active definition (R287). -/
def State.createCtx (s : State) (n : Nat) : State :=
  let w := s.reg (R.colCtx n)
  let depth := fld w 49 5
  let early := (s.ctx n).readyFrom
  let s := (s.setCtxState n 1 0).setCtx n { ColCtx.reset with defn := w, readyFrom := early }
  if s.ctxInvalid w then s.ctxFail n 1
  else if (ctxDies w).any fun d => !s.dieUp d then s.ctxFail n 9
  else
    let trees := if fld w 1 2 = 0 then (ctxDies w).flatMap (s.tree w) else []
    if s.noMeshSlots trees then s.ctxFail n 2
    else
      let s := s.writeTree n trees
      let stops := (rangeFrom 0 4).filter fun i => match s.stopDir i with | some m => decide (dirDim m = (bit w 3).toNat) | none => false
      if stops.any fun i => decide (s.rfld R.colPool (16 * i) 11 < 2 * depth) then s.ctxFail n 3
      else
        let s := stops.foldl (fun s i => s.setRfld R.colPool (16 * i) 11 (s.rfld R.colPool (16 * i) 11 - 2 * depth)) s
        let s := s.setCtx n { s.ctx n with stops := stops, reserved := 2 * depth }
        let dirs := (if (s.ctxDown w).isSome then [ctxDir w] else []) ++ (if (s.ctxUp w).isSome then [dirOpp (ctxDir w)] else [])
        if (s.ctxMembers w).any s.devFenced then s.ctxFail n 4
        else if dirs.any fun m => (s.upPorts m).isEmpty then s.ctxFail n 6
        else
          let ready : Pkt := { Pkt.empty with type := PT.ctxReady, ctx := n, data := wordBytes (ctxDigest w) ++ natToBytes 8 depth }
          ((dirs.foldl (fun s m => s.sendAdjacent m ready) s).setCtxState n 2 0).ctxSettle n

/-- A neighbour's CTX_READY (R287). -/
def execCtxReady (p : Pkt) (s : State) : Host.Outcome State Fault Refusal :=
  .next (if p.type ≠ PT.ctxReady ∨ 64 ≤ p.ctx then s
    else
      let x := s.ctx p.ctx
      let y := (p.srcDev, bytesWord (p.data.take 8), bytesToNat ((p.data.drop 8).take 8))
      (s.setCtx p.ctx { x with readyFrom := x.readyFrom.filter (fun z => decide (z.1 ≠ p.srcDev)) ++ [y] }).ctxSettle p.ctx)

/-! Abort (R291). -/

/-- Ends the pending collectives of a context on this device. -/
def State.endColls (s : State) (n code : Nat) : State :=
  s.cores.foldl (fun s (k, _) => s.onKey k fun _ c =>
    let e := c.engine 6
    c.setEngine 6 { e with active := e.active.map fun r =>
      if r.kind = .coll ∧ fld r.cmd.w0 38 6 = n then r.fail code r.errAddr else r }) s

/-- Has a core of this device a collective of a context pending? -/
def State.collPending (s : State) (n : Nat) : Bool :=
  s.cores.any fun (_, c) => (c.engine 6).active.any fun r => decide (r.kind = .coll) && decide (fld r.cmd.w0 38 6 = n)

/-- Frees an existing context with a cause and tells the members in some directions. -/
def State.abortCtx (s : State) (n cause : Nat) (toward : Option Nat → Bool) : State :=
  let st := s.ctxState n
  if st = 0 ∨ 4 ≤ st then s
  else
    let w := (s.ctx n).defn
    let p : Pkt := { Pkt.empty with type := PT.ctxAbort, ctx := n, data := b1 n ++ b1 cause ++ List.replicate 6 0#8 }
    let s := if (s.ctxDown w).isSome && toward (s.ctxDown w) then s.sendAdjacent (ctxDir w) p else s
    let s := if (s.ctxUp w).isSome && toward (s.ctxUp w) then s.sendAdjacent (dirOpp (ctxDir w)) p else s
    let s := ((s.freeCtx n).setCtxState n 5 cause).event 0x0809 (b1 n ++ b1 cause)
    s.endColls n (if cause = 4 ∨ cause = 8 ∨ cause = 9 then 1 else 3)

/-- A member receives an abort and passes it on along the chain; one that names this device as its source is a die
controller's, with cause 8 (R187, R287, R291; log entry 85). -/
def execCtxAbort (p : Pkt) (s : State) : Host.Outcome State Fault Refusal :=
  .next (if p.type ≠ PT.ctxAbort ∨ 64 ≤ p.ctx then s
    else if p.srcDev = s.devIndex then s.abortCtx p.ctx 8 fun _ => true
    else s.abortCtx p.ctx (bytesToNat ((p.data.drop 1).take 1) % 16) fun d => decide (d ≠ some p.srcDev))

def State.colAbort (s : State) (n : Nat) : State := s.abortCtx n 7 fun _ => true

/-- Rearm creates the context again (R287); one that holds its slots frees them first. -/
def State.colRearm (s : State) (n : Nat) : State :=
  if !bit (s.reg (R.colCtx n)) 0 then s
  else (if s.ctxState n = 0 ∨ 4 ≤ s.ctxState n then s else s.freeCtx n).createCtx n

def execColCtxCmdAbort (ctx : Fin 64) (s : State) : Host.Outcome State Fault Refusal := .next (s.colAbort ctx.val)

def execColCtxCmdRearm (ctx : Fin 64) (s : State) : Host.Outcome State Fault Refusal := .next (s.colRearm ctx.val)

/-- Aborts every context whose chain uses a link in a direction (R272). -/
def State.abortLinkCtxs (s : State) (m : Nat) : State :=
  (rangeFrom 0 64).foldl (fun s n =>
    let w := (s.ctx n).defn
    let uses := ((s.ctxDown w).isSome && decide (ctxDir w = m)) || ((s.ctxUp w).isSome && decide (dirOpp (ctxDir w) = m))
    if uses then s.abortCtx n 6 fun _ => true else s) s

/-- Aborts every context with a member that was fenced (R291). -/
def State.abortMemberCtxs (s : State) (d : Nat) : State :=
  (rangeFrom 0 64).foldl (fun s n =>
    if (s.ctxMembers (s.ctx n).defn).contains d then s.abortCtx n 4 fun _ => true else s) s

/-! Chunks (R160, R288 to R290). -/

/-- The writers whose contribution a chunk needs at the flow stop: the dies that are up, and 8 for the
upstream member; and whether a die of the context is down. -/
def State.ctxWriters (s : State) (w : Word) : List Nat × Bool :=
  ((ctxDies w).filter s.dieUp ++ (if (s.ctxUp w).isSome then [8] else []), (ctxDies w).any fun d => !s.dieUp d)

/-- The element values of an MXFP8 chunk: two blocks of 32 and their scales (R288). -/
def mxValues (f : Fmt) (l : List Byte) : List Num :=
  (rangeFrom 0 64).map fun i => scaled (nth 0 l (64 + i / 32)) (decodeElem f (nth 0 l i).toNat)

/-- Encodes 64 values into an MXFP8 chunk (R133, R134, R160). -/
def mxEncode (f : Fmt) (l : List Num) : List Byte :=
  let blocks := [l.take 32, l.drop 32]
  let scales := blocks.map (blockScale f)
  (blocks.zip scales).flatMap (fun (b, sc) => b.map fun v => BitVec.ofNat 8 (emit f 0 true 0 (unscaled sc v)).1) ++ scales

/-- The element format of a wire code, if it is MXFP8. -/
def wireMx (wire : Nat) : Option Fmt := if wire = 2 then some .mxE4m3 else if wire = 3 then some .mxE5m2 else none

/-- FP32 values and bytes. -/
def fp32Values (l : List Byte) : List Num := (floatsOf .fp32 l).map (decodeFloat .fp32)
def fp32Bytes (l : List Num) : List Byte := l.flatMap fun v => natToBytes 4 (encodeFloat .fp32 0 0 false v)

/-- The sum of a chunk's contributions in order of arrival, in the wire format (R160, R288): a die's FP32 sum is added as
FP32, with rounding, and an MXFP8 chunk exactly (log entry 85). -/
def wireSum (wire : Nat) (l : List (Nat × List Byte)) : List Byte :=
  match wireMx wire with
  | some f =>
    let vals := fun (x : Nat × List Byte) => if x.1 = 8 then mxValues f x.2 else fp32Values x.2
    let add := fun (a : List Num) (y : Nat × List Byte) =>
      let sum := (a.zip (vals y)).map fun (u, v) => u.add v
      if y.1 = 8 then sum else fp32Values (fp32Bytes sum)
    match l with
    | [] => []
    | x :: t => mxEncode f (t.foldl add (vals x))
  | none =>
    match l with
    | [] => []
    | x :: t => t.foldl (fun a y => addPayload (if wire = 1 then .bf16 else .fp32) a y.2) x.2

/-- What the root decodes a finished chunk into (R289). -/
def wireResult (wire : Nat) (d : List Byte) : List Byte :=
  match wireMx wire with | some f => fp32Bytes (mxValues f d) | none => d

/-- Sends a chunk one hop on a COL channel, on a port of a direction that has room; with no valid topology nothing goes
(R261). -/
def State.sendCol (s : State) (m : Nat) (p : Pkt) (vc : Nat) : Option State :=
  if !s.topoValid then none else
  let p := { p with srcDev := s.devIndex, dstDev := s.nextDev m, epoch := s.epoch }
  match s.bestPort (6 + vc) ((s.upPorts m).filter fun q => s.canSend q p vc) with
  | some q => some (s.sendOn q p vc p.dstDev)
  | none => none

/-- The result multicast into the participating rows of this device's dies (R185, R287). The origin, to which each
leg's tail acknowledgement returns, is the source core of a broadcast on its own device, else the stop (R188). -/
def State.dieMulticast (s : State) (n : Nat) (w : Word) (chunk : Nat) (d : List Byte) (void : Bool) : State :=
  let own := decide (fld w 1 2 = 1) && (s.ctxDown w).isNone
  let src := if own then fld w 46 3 else stopSrc
  ((ctxDies w).filter s.dieUp).foldl (fun s die =>
    (rangeFrom (fld w 30 4) (fld w 34 4 + 1 - fld w 30 4)).foldl (fun s r =>
      s.emit (.pkt { Pkt.empty with
        type := PT.mcast, srcDev := s.devIndex, srcDie := src, srcRow := if own then fld w 30 4 else 0,
        srcCol := if own then s.physCol src (fld w 30 4) (fld w 38 4) else 0, dstDev := s.devIndex, dstDie := die, dstRow := r,
        dstCol := s.physCol die r (fld w 38 4), mc := 1, mcLast := s.physCol die r (fld w 42 4), ctx := n,
        chunk := chunk, void := void, data := d, epoch := s.epoch })) s) s

/-- The last chunk has come round: the first member sends the tail acknowledgement toward the root,
which, when it is the first member itself, counts at once (R289). One that finds no room waits. -/
def State.tailAt (s : State) (n : Nat) (w : Word) : State :=
  let x := s.ctx n
  if (s.ctxDown w).isSome then
    (s.sendCol (ctxDir w) { Pkt.empty with type := PT.tailAck, ctx := n } 2).getD (s.setCtx n { x with tails := x.tails + 1 })
  else
    (s.setRfld (R.colCtxStatus n) 32 32 (s.rfld (R.colCtxStatus n) 32 32 + x.sent)).setCtx n { x with sent := 0 }

/-- Tail acknowledgements that waited go. -/
def State.tailPump (s : State) (n : Nat) : State :=
  let x := s.ctx n
  (rangeFrom 0 x.tails).foldl (fun s _ => s.tailAt n x.defn) (if x.tails = 0 then s else s.setCtx n { x with tails := 0 })

/-- A slot frees: credit goes to the member that sent the chunk (R290). -/
def State.slotFree (s : State) (n : Nat) (from_ : Option Nat) (m : Nat) : State :=
  match from_ with | some _ => s.emit (.colCredit m n) | none => s

/-- Passes a result chunk to the dies and to the upstream member against a credit; none while it has
none (R289, R290). -/
def State.passResult (s : State) (n chunk : Nat) (d : List Byte) (void last : Bool) : Option State :=
  let x := s.ctx n
  let w := x.defn
  match s.ctxUp w with
  | none =>
    some (let s := (s.dieMulticast n w chunk d void).slotFree n (s.ctxDown w) (ctxDir w)
      if last then s.tailAt n w else s)
  | some _ =>
    if x.up = 0 then none
    else
      match s.sendCol (dirOpp (ctxDir w)) { Pkt.empty with type := PT.mcast, ctx := n, chunk := chunk, void := void, data := d } 1 with
      | none => none
      | some s => some (((s.setCtx n { x with up := x.up - 1 }).dieMulticast n w chunk d void).slotFree n (s.ctxDown w) (ctxDir w))

/-- Passes on the result chunks that wait, oldest first. -/
def State.resultPump (s : State) (n : Nat) : Nat → State
  | 0 => s
  | fuel + 1 =>
    let x := s.ctx n
    match x.results with
    | [] => s
    | (chunk, d, void, last) :: t =>
      match (s.setCtx n { x with results := t }).passResult n chunk d void last with
      | none => s
      | some s => s.resultPump n fuel

/-- A result chunk takes one of the context's result slots, of which there are `depth`; without one it is not taken
(R287, R290). -/
def State.takeResult (s : State) (n chunk : Nat) (d : List Byte) (void last : Bool) : Option State :=
  let x := s.ctx n
  if fld x.defn 49 5 ≤ x.results.length then none
  else some ((s.setCtx n { x with results := x.results ++ [(chunk, d, void, last)] }).resultPump n (x.results.length + 1))

/-- Counts a chunk that the root multicasts. -/
def State.rootSent (s : State) (n : Nat) : State :=
  let x := s.ctx n
  if (s.ctxDown x.defn).isNone then s.setCtx n { x with sent := x.sent + 1 } else s

/-- Sends on the sums that are whole, oldest first, as credits allow; the slot of the upstream member's chunk frees
(R288, R290). -/
def State.collFlush (s : State) (n : Nat) : Nat → State
  | 0 => s
  | fuel + 1 =>
    let x := s.ctx n
    let w := x.defn
    let (need, gone) := s.ctxWriters w
    match x.accs.find? fun a => need.all fun i => a.2.1.any fun c => decide (c.1 = i) with
    | none => s
    | some (chunk, cs, void) =>
      let wire := fld w 16 3
      let d := wireSum wire cs
      let void := void || gone
      let last := x.lasts.contains chunk
      let s' := s.setCtx n { x with accs := x.accs.filter (fun a => decide (a.1 ≠ chunk)), lasts := x.lasts.filter (fun c => decide (c ≠ chunk)) }
      let sent := match s.ctxDown w with
        | some _ =>
          if x.down = 0 then none
          else
            let red := if wire = 0 then 1 else if wire = 1 then 2 else wire + 3
            (s'.sendCol (ctxDir w) { Pkt.empty with type := PT.red, ctx := n, chunk := chunk, red := red, aux := void.toNat, data := d } 0).map
              fun (s'' : State) => s''.setCtx n { s''.ctx n with down := x.down - 1 }
        | none => (s'.rootSent n).takeResult n chunk (wireResult wire d) void last
      match sent with
      | none => s
      | some s'' => (s''.slotFree n (s.ctxUp w) (dirOpp (ctxDir w))).collFlush n fuel

/-- A context that is ready goes on with what waits: results, sums and tail acknowledgements. -/
def State.collPump (s : State) (n : Nat) : State :=
  if s.ctxState n ≠ 3 then s
  else
    let x := s.ctx n
    ((s.resultPump n x.results.length).collFlush n x.accs.length).tailPump n

/-- A chunk at a port stop of a ready context (R288 to R290). A sum chunk is one of this device's dies or
of the upstream member; a result chunk comes from the downstream member, or from the source core of
a broadcast; a tail acknowledgement goes on toward the root. A chunk that opens a sum takes one of the context's `depth`
slots, and without one it is not taken. `freedDown` and `freedUp` are the slots
that the neighbours freed since the last one (log entry 19). An MXFP8 contribution in another element format
than the context's counts as free bytes (R160). -/
def execCollectiveChunk (ctx : Fin 64) (p : Pkt) (last : Bool) (freedDown freedUp : Nat) (s : State) :
    Host.Outcome State Fault Refusal :=
  .next (
    let n := ctx.val
    if s.ctxState n ≠ 3 ∨ p.ctx ≠ n then s
    else
      let x := s.ctx n
      let s := (s.setCtx n { x with down := x.down + freedDown, up := x.up + freedUp }).collPump n
      let x := s.ctx n
      if p.type = PT.red then
        let writer := if p.srcDev = s.devIndex then p.srcDie else 8
        let open_ := x.accs.find? fun a => decide (a.1 = p.chunk)
        let old := open_.getD (p.chunk, [], false)
        if (old.2.1.any fun c => decide (c.1 = writer)) || (open_.isNone && decide (fld x.defn 49 5 ≤ x.accs.length)) then s
        else
          let wire := fld x.defn 16 3
          let (s, d) := if writer = 8 ∧ (wireMx wire).isSome ∧ p.red ≠ wire + 3 then s.freeBytes p.data.length else (s, p.data)
          let new := (p.chunk, old.2.1 ++ [(writer, d)], old.2.2 || p.aux.testBit 0)
          let s := s.setCtx n { x with
            accs := x.accs.filter (fun a => decide (a.1 ≠ p.chunk)) ++ [new]
            lasts := if last then x.lasts ++ [p.chunk] else x.lasts }
          s.collFlush n (x.accs.length + 1)
      else if p.type = PT.mcast then
        ((if p.srcDev = s.devIndex then s.rootSent n else s).takeResult n p.chunk p.data p.void last).getD s
      else if p.type = PT.tailAck then s.tailAt n x.defn
      else s)

/-- A tail acknowledgement (R188, R190, R289). One of a mesh leg (mc not 0) reaches the origin, whose
command counts it, and ends DIE_DOWN when it skipped a fenced core; one of a context goes on to the root, which counts
the chunks that it had multicast. -/
def execTailAck (p : Pkt) (s : State) : Host.Outcome State Fault Refusal :=
  .next (
    if p.type ≠ PT.tailAck then s
    else if p.mc = 0 then (if s.ctxState p.ctx = 3 then s.tailAt p.ctx (s.ctx p.ctx).defn else s)
    else if p.dstDie = stopSrc then (s.meshTake p (atEdge p.srcDie)).getD s
    else s.meshRecv p PT.tailAck fun s k =>
      s.onKey k fun _ c =>
        match (c.engine 6).active.find? fun r => decide (r.kind = .coll) && decide (fld r.cmd.w0 38 6 = p.ctx) with
        | some r => c.sbUpd r.id fun r =>
            let r := { r with tails := r.tails + 1 }
            if p.aux.testBit 0 then r.fail 1 r.errAddr else r
        | none => c)

end Sys2Proof.Machine
end

