-- ==== Sys2Proof/Machine/FabLink.lean ====
section
/-!
DEFINITION. What happens on a port link (R262, R263, R268 to R273, R281, R300): training, flits, replay,
retraining, loss; and the fence marks that follow.
-/

namespace Sys2Proof.Machine

/-! Fence marks. -/

/-- Marks or unmarks a device (R281): the mark, the count, the event; the contexts it is a member of
are aborted when it is marked (R291). -/
def State.markDev (s : State) (d : Nat) (b : Bool) : State :=
  if s.devFenced d = b ∨ 512 ≤ d then s
  else
    let r := R.fabFence (d / 64)
    let s := s.setReg r (setBit (s.reg r) (d % 64) b)
    let n := s.rfld R.fabStatus 32 10
    let s := s.setRfld R.fabStatus 32 10 (if b then n + 1 else n - 1)
    let s := s.event (if b then 0x0805 else 0x0806) (natToBytes 2 d)
    if b then s.abortMemberCtxs d else s

/-- Starts a flood of this device's own. -/
def State.startFlood (s : State) (type d : Nat) : State :=
  let seq := s.fab.floodSeq
  let s := { s with fab := { s.fab with floodSeq := (seq + 1) % 2 ^ 32, floods := s.fab.floods ++ [(s.devIndex, seq)] } }
  s.flood type d s.devIndex seq

/-- Marks a neighbour whose every port is DOWN, DISABLED or MISWIRED, and floods the mark (R281). -/
def State.checkNeighbour (s : State) (p : Nat) : State :=
  if !s.topoValid then s
  else match s.portDir p with
    | none => s
    | some m =>
      let d := s.nextDev m
      let ports := (rangeFrom 0 12).filter fun q => match s.portDir q with | some m' => decide (s.nextDev m' = d) | none => false
      if d = s.devIndex || s.devFenced d then s
      else if ports.all fun q => decide (s.portState q ≤ 1) || decide (s.portState q = 6) then
        (s.markDev d true).startFlood PT.fence d
      else s

/-- A flood arrives (R281): the mark, and one forwarding for each originator and sequence. -/
def State.takeFlood (s : State) (p : Pkt) (type : Nat) : State :=
  if p.type ≠ type then s
  else
    let f := fun i n => bytesToNat ((p.data.drop i).take n)
    let (d, orig, seq) := (f 0 2, f 2 2, f 4 4)
    if s.fab.floods.contains (orig, seq) then s
    else
      let s := { s with fab := { s.fab with floods := s.fab.floods ++ [(orig, seq)] } }
      (s.markDev d (decide (type = PT.fence))).flood type d orig seq

def execFence (p : Pkt) (s : State) : Host.Outcome State Fault Refusal := .next (s.takeFlood p PT.fence)

def execUnfence (p : Pkt) (s : State) : Host.Outcome State Fault Refusal := .next (s.takeFlood p PT.unfence)

/-! Down (R272). -/

/-- The packets of a link's replay buffer whose heads it still holds, oldest first: target, and the channel and direction
by which they came to this device. A stomped one is not among them. -/
def Link.heldPkts (l : Link) : List (Pkt × Nat × Nat × Option Nat) :=
  l.replay.filterMap fun (_, f) =>
    match f.pkt with
    | some p =>
      if f.stomp then none
      else some (p, f.dst, ((l.came.find? fun x => decide (x.1 = f.seq)).map (·.2)).getD (f.vc, none))
    | none => none

/-- A link from the start of training, which keeps the count of its exchanges and the samples of the window (R293). -/
def Link.fresh (l : Link) : Link :=
  { Link.reset with exchSeq := l.exchSeq, occSum := l.occSum, occPeak := l.occPeak, occN := l.occN, replayed := l.replayed }

/-- A packet of which a link that goes DOWN had brought only a part: what the router had begun to forward, since its route
had room, ends with a stomped TAIL (R272; that a packet with room is begun at once is log entry 85). -/
def State.endPartial (s : State) (p : Nat) (l : Link) : State :=
  match l.rxPkt with
  | none => s
  | some k =>
    match (s.routeView k.epoch).route { stop := p / 3, pkt := k, vc := 0, dst := k.dstDev, port := none, from_ := s.portDir p } with
    | .send q vc dst relay =>
      let fs := (flitsOf { k with relay := relay } vc dst (s.link q).txSeq).take l.rxN
      let n := fs.length
      let fs := ((rangeFrom 0 n).zip fs).map fun (i, f) =>
        if i + 1 = n then { f with ftype := if n = 1 then 4 else 3, stomp := true } else f
      s.sendFlits q fs (3 * fabVn k.type + vc) (0, none)
    | _ => s

/-- Re-injects what the replay buffer held: REQ, RSP and MGT packets with another minimal path, ahead of
later ones, with the channel and direction by which they had come here (R279, R282); one with none is discarded and
counted, as is a TIME packet, which addresses its link; COL packets are not re-injected (R272). -/
def State.reinject (s : State) (p : Nat) (l : List (Pkt × Nat × Nat × Option Nat)) : State :=
  let l := l.filter fun x => decide (fabVn x.1.type ≠ 2)
  let path := fun (x : Pkt × Nat × Nat × Option Nat) =>
    decide (x.1.type ≠ PT.time) && (s.minimalTo x.2.1).any fun m => !(s.upPorts m).isEmpty
  let keep := (l.filter path).map fun (k, dst, vc, m) =>
    ({ stop := p / 3, pkt := k, vc := vc, dst := dst, port := none, from_ := m } : FabPkt)
  let s := (l.filter fun x => !path x).foldl (fun s _ => s.discard 0) s
  { s with fab := { s.fab with queue := keep ++ s.fab.queue } }

/-- A link goes DOWN with a cause: 0 retrain limit, 1 loss of light, 2 command (R271, R272, R299). A
packet partly received is ended, its contexts abort, the neighbour may be fenced. -/
def State.linkDown (s : State) (p cause : Nat) : State :=
  let st := s.portState p
  if st ≤ 1 then s
  else
    let l := s.link p
    let s := ((s.setPortState p 1).setRfld (R.portLaneStatus p) 4 2 2).setLink p l.fresh
    if st = 2 ∨ st = 6 then s.checkNeighbour p
    else
      let s := ((s.count (R.portLinkStats p) 32 16).ledger 22).event 0x0803 (b1 p ++ b1 cause)
      let s := (s.reinject p l.heldPkts).endPartial p l
      let s := match s.portDir p with | some m => s.abortLinkCtxs m | none => s
      s.checkNeighbour p

def execLossOfLight (p : Port) (since : Nat) (s : State) : Host.Outcome State Fault Refusal :=
  .next (if 10000 ≤ s.now - since then s.linkDown p.val 1 else s)

/-! Training (R270). -/

/-- The wavelengths that a lane map of width 0 (16 lanes) or 1 (8 lanes) uses: the lowest good ones. -/
def lanesUsed (good : BitVec 18) (width : Nat) : List Nat :=
  ((rangeFrom 0 18).filter fun w => good.getLsbD w).take (if width = 0 then 16 else 8)

/-- Writes width, spares and unused wavelengths of a port; none when fewer than 8 lanes are good. -/
def State.setLanes (s : State) (p : Nat) (good : BitVec 18) : Option State :=
  let n := ((rangeFrom 0 18).filter fun w => good.getLsbD w).length
  if n < 8 then none
  else
    let width := if n < 16 then 1 else 0
    let used := lanesUsed good width
    let out := (rangeFrom 0 18).foldl (fun m w => if used.contains w then m else m + 2 ^ w) 0
    let r := R.portLaneStatus p
    let spares := (used.filter fun w => decide (16 ≤ w)).length
    some (((s.setRfld r 40 18 out).setRfld r 8 2 spares).setRfld r 4 2 width)

/-- The wavelengths in use of a port, as TRAIN flits report them (R270). -/
def State.laneMap (s : State) (p : Nat) : BitVec 18 := ~~~ (BitVec.ofNat 18 (s.rfld (R.portLaneStatus p) 40 18))

/-- Sends a TRAIN flit (R270 step 3). -/
def State.sendTrain (s : State) (p : Nat) : State :=
  s.emit (.train p s.devIndex (Config.topoDigest (s.reg R.fabTopo)) (s.laneMap p))

/-- The optics report the lanes locked: a link that is DOWN begins to train, and sends TRAIN flits. One
with fewer than 8 good lanes, or in a dimension of size 1, stays DOWN (R262, R270). None trains before the ring search
has ended (R392). -/
def execLinkTrainingStart (p : Port) (good : BitVec 18) (s : State) : Host.Outcome State Fault Refusal :=
  .next (if s.portState p.val ≠ 1 ∨ s.portDark p.val ∨ s.opt.search.isSome then s
    else match s.setLanes p.val good with
      | none => s.setRfld (R.portLaneStatus p.val) 4 2 2
      | some s => (s.setPortState p.val 2).sendTrain p.val)

/-- Is a neighbour's report what R262 and R263 call for: the neighbour in the port's direction, and port k of its stop of
the opposite direction? The neighbour's stops are taken to serve the directions that this device's FAB_STOP_DIR gives
(log entry 85). With no valid topology nothing is called for. -/
def State.cabledRight (s : State) (p dev port : Nat) : Bool :=
  if !s.topoValid then true
  else match s.portDir p with
    | none => false
    | some m => decide (dev = s.nextDev m) && decide (port % 3 = p % 3) && decide (port < 12) && decide (s.portDir port = some (dirOpp m))

/-- The other ports of a port's direction, with the seq that each sends next: ordered traffic that they hold goes before
the port takes any (R280). -/
def State.standIns (s : State) (p : Nat) : List (Nat × Nat) :=
  (rangeFrom (p / 3 * 3) 3).filterMap fun q => if q = p then none else some (q, (s.link q).txSeq)

/-- The link becomes ACTIVE (R270 step 5, R280, R281). -/
def State.linkUp (s : State) (p : Nat) : State :=
  let l := s.link p
  let s := (s.setPortState p 3).setLink p { l.fresh with after := s.standIns p, digest := l.digest, lanes := l.lanes }
  let s := s.event 0x0801 (b1 p ++ b1 (s.rfld (R.portLaneStatus p) 4 2))
  match s.portDir p with
  | some m =>
    let d := s.nextDev m
    if s.topoValid && s.devFenced d then (s.markDev d false).startFlood PT.unfence d else s
  | none => s

/-- A TRAIN flit with the neighbour's index, port, FAB_TOPO digest and lane map (R270 steps 3 to 5). -/
def execTrainFlit (p : Port) (dev : Nat) (r : TrainReport) (s : State) : Host.Outcome State Fault Refusal :=
  .next (
    let st := s.portState p.val
    if st ≠ 2 ∧ st ≠ 5 ∧ st ≠ 6 then s
    else
      let s := s.setLink p.val { s.link p.val with digest := r.digest, lanes := r.lanes }
      let s := s.setReg (R.portNeighbour p.val) (BitVec.ofNat 64 (2 ^ 63 + dev % 2 ^ 9 * 2 ^ 16 + r.port % 16))
      if st ≠ 2 then s
      else if s.cabledRight p.val dev r.port then s.linkUp p.val
      else ((s.setPortState p.val 6).event 0x0804 (b1 p.val ++ natToBytes 2 dev ++ b1 r.port)).checkNeighbour p.val)

/-! Flits (R265, R269). -/

/-- How far `a` is ahead of `b` in sequence. -/
def seqAhead (a b : Nat) : Nat := (a + 4096 - b % 4096) % 4096

/-- Drops the packets of a replay buffer that are acknowledged whole: flits up to the last acknowledged
tail (R269). `upto` is the seq after the last acknowledged. -/
def releaseAcked (upto : Nat) (l : List (Nat × Flit)) : List (Nat × Flit) :=
  let done := (l.takeWhile fun (_, f) => decide (1 ≤ seqAhead upto f.seq) && decide (seqAhead upto f.seq ≤ 2048)).length
  let tails := (rangeFrom 0 done).filter fun i => match l[i]? with | some (_, f) => f.tail | none => false
  match tails.getLast? with
  | some i => l.drop (i + 1)
  | none => l

/-- An acknowledgement of everything before a seq; replay ends once it passes the flit that began it. -/
def State.linkAck (s : State) (p upto : Nat) : State :=
  let l := s.link p
  let l := { l with replay := releaseAcked upto l.replay, acked := upto % 4096 }
  let passed := decide (1 ≤ seqAhead upto l.replayFrom) && decide (seqAhead upto l.replayFrom ≤ 2048)
  if s.portState p = 4 ∧ passed then (s.setLink p { l with replayAt := none }).setPortState p 3 else s.setLink p l

/-- Sends flits of the replay buffer again, from a seq on. -/
def State.resendFrom (s : State) (p seq : Nat) : State :=
  let l := s.link p
  let before := fun (f : Flit) => decide (seqAhead f.seq seq ≥ 2048)
  let l := { l with replay := l.replay.map fun (t, f) => (if before f then t else s.now, f) }
  (s.setLink p l).emits ((l.replay.filter fun (_, f) => !before f).map fun (_, f) => .flit p f l.ackOut)

/-- A packet is whole at a port: a TIME packet or a COL chunk is taken at once, any other waits to be
routed (R278, R290, R296). -/
def State.linkDeliver (s : State) (p : Nat) (k : Pkt) (vc dst : Nat) : State :=
  let q : FabPkt := { stop := p / 3, pkt := k, vc := vc, dst := dst, port := some p, from_ := s.portDir p }
  if k.type = PT.time ∨ fabVn k.type = 2 then (s.emit (.pkt k)).returnCredit q
  else { s with fab := { s.fab with queue := s.fab.queue ++ [q] } }

/-- A flit that the receiver accepts in order and acknowledges: a packet begins, goes on, or ends; a stomped one, or one
on the invalid channel 3, is discarded, and the credits of its flits go back (R265, R269, R275; log entry 85). -/
def State.linkAccept (s : State) (p : Nat) (f : Flit) : State :=
  let l := s.link p
  let cur := if f.head then f.pkt else l.rxPkt
  let n := if f.head then 1 else l.rxN + 1
  let ends := f.tail || f.stomp
  let s := s.setLink p { l with
    rxSeq := (l.rxSeq + 1) % 4096, rxAny := true, nakSent := false, rxPkt := if ends then none else cur, rxN := if ends then 0 else n }
  let s := s.emit (.idle p (s.link p).ackOut 15 0)
  if f.stomp || decide (f.vc = 3) then (if f.tail && decide (f.vc < 3) then s.giveCredit p (3 * f.vn + f.vc) n else s)
  else if f.tail then
    match cur with
    | some k => s.linkDeliver p k f.vc f.dst
    | none => s
  else s

/-- A sequenced flit arrives, with the acknowledgement and credit it carries (R265, R269). Every flit of an uncorrectable
codeword fails its CRC (R264). -/
def execLinkFlit (p : Port) (f : Flit) (check : FlitCheck) (ack : Option Nat) (crIdx crCnt : Nat) (s : State) :
    Host.Outcome State Fault Refusal :=
  .next (
    let p := p.val
    if !s.portUp p then s
    else
      let nak := fun (s : State) =>
        if (s.link p).nakSent then s
        else (s.setLink p { s.link p with nakSent := true }).emit (.nak p (s.link p).rxSeq)
      let crcBad := fun (s : State) => nak ((s.count (R.portErr p) 0 32).ledger 19)
      match check, (s.link p).rxBad with
      | .codeword more, _ =>
        let s := s.setLink p { s.link p with rxBad := more }
        nak ((((s.count (R.portErr p) 0 32).ledger 19).count (R.portErr p) 32 32).ledger 18)
      | _, n + 1 => crcBad (s.setLink p { s.link p with rxBad := n })
      | .crc, 0 => crcBad s
      | .good, 0 =>
        let s := match ack with | some a => s.linkAck p (a + 1) | none => s
        let s := if crIdx < 12 then s.setLink p ((s.link p).setCredit crIdx ((s.link p).credit crIdx + crCnt)) else s
        let ahead := seqAhead f.seq (s.link p).rxSeq
        if ahead = 0 then s.linkAccept p f
        else if 2048 ≤ ahead then s.emit (.idle p (s.link p).ackOut 15 0)
        else nak s)

/-- A link enters replay: counted, and the buffer is sent again from a seq. -/
def State.startReplay (s : State) (p seq : Nat) : State :=
  let l := s.link p
  let s := (s.count (R.portLinkStats p) 0 32).ledger 20
  let s := if s.portState p = 4 then s.setLink p { l with replayed := true }
    else (s.setPortState p 4).setLink p { l with replayAt := some s.now, replayFrom := seq % 4096, replayed := true }
  s.resendFrom p seq

/-- A link enters RETRAIN (R271). -/
def State.startRetrain (s : State) (p : Nat) : State :=
  let l := s.link p
  let s := ((s.setPortState p 5).count (R.portLinkStats p) 48 16).ledger 21
  (s.setLink p { l with retrainAt := some s.now, replayAt := none, naks := 0, replayed := true }).sendTrain p

/-- A NAK acknowledges everything before the flit it names and asks for it; the eighth NAK of one flit
starts retraining (R269, R271). -/
def execFlitNak (p : Port) (seq : Nat) (s : State) : Host.Outcome State Fault Refusal :=
  .next (
    let p := p.val
    if !s.portUp p then s
    else
      let s := s.linkAck p seq
      let l := s.link p
      let n := if l.nakSeq = seq % 4096 then l.naks + 1 else 1
      let s := s.setLink p { l with nakSeq := seq % 4096, naks := n }
      if 8 ≤ n then s.startRetrain p else s.startReplay p seq)

/-- The oldest flit not acknowledged, with its send time. -/
def Link.oldest (l : Link) : Option (Nat × Flit) :=
  l.replay.find? fun (_, f) => decide (seqAhead l.acked f.seq = 0) || decide (2048 < seqAhead l.acked f.seq)

def execReplayTimeout (p : Port) (s : State) : Host.Outcome State Fault Refusal :=
  .next (match (s.link p.val).oldest with
    | some (t, f) => if s.portUp p.val ∧ 2000 ≤ s.now - t then s.startReplay p.val f.seq else s
    | none => s)

def execReplayStall (p : Port) (s : State) : Host.Outcome State Fault Refusal :=
  .next (match (s.link p.val).replayAt with
    | some t => if s.portState p.val = 4 ∧ 20000 ≤ s.now - t then s.startRetrain p.val else s
    | none => s)

/-- Retraining completes at full or half width: each end resumes from the seq that the far end expects. One that has not
ended within 1.5 ms takes the link DOWN (R271). -/
def execRetrainComplete (p : Port) (good : BitVec 18) (expect : Nat) (s : State) : Host.Outcome State Fault Refusal :=
  .next (if s.portState p.val ≠ 5 then s
    else if (match (s.link p.val).retrainAt with | some t => decide (1500000 ≤ s.now - t) | none => false) then s.linkDown p.val 0
    else match s.setLanes p.val good with
      | none => s
      | some s =>
        let r := R.portLaneStatus p.val
        let s := (s.setPortState p.val 3).setLink p.val { s.link p.val with retrainAt := none, nakSent := false }
        let s := s.event 0x0802 (b1 p.val ++ b1 (s.rfld r 4 2) ++ b1 (s.rfld r 8 2))
        ((s.linkAck p.val expect).resendFrom p.val expect).payCredits p.val)

def execRetrainTimeout (p : Port) (s : State) : Host.Outcome State Fault Refusal :=
  .next (match (s.link p.val).retrainAt with
    | some t => if s.portState p.val = 5 ∧ 1500000 ≤ s.now - t then s.linkDown p.val 0 else s
    | none => s)

/-! Commands (R300). -/

/-- The source that lights a port (R388): the one whose slot is the port. -/
def State.portSource (s : State) (p : Nat) : Option Nat :=
  [20 + p, 32 + p].find? fun n => decide (s.rfld (R.optSrcStatus n) 8 6 = p)

/-- Turns a port's laser on or off. -/
def State.portLaser (s : State) (p : Nat) (on : Bool) : State :=
  match s.portSource p with
  | none => s
  | some n =>
    let st := s.rfld (R.optSrcStatus n) 0 3
    if on then (if st = 0 then s.setRfld (R.optSrcStatus n) 0 3 2 else s)
    else if st < 4 then s.setRfld (R.optSrcStatus n) 0 3 0 else s

/-- Retraining on command: a miswired link trains from the start, a link in service retrains. -/
def State.portRetrain (s : State) (p : Nat) : State :=
  if s.portState p = 6 then (s.setPortState p 2).sendTrain p
  else if s.portUp p then s.startRetrain p else s

/-- Disables a port. -/
def State.portDisable (s : State) (p : Nat) : State :=
  (((s.linkDown p 2).setPortState p 0).portLaser p false).checkNeighbour p

/-- Enables a disabled port: it waits for light. -/
def State.portEnable (s : State) (p : Nat) : State :=
  if s.portState p = 0 then (s.setPortState p 1).portLaser p true else s

/-- A topology became active (R262, R281): ports of a dimension of size 1, or of an unused stop, go dark; the others may
light; and each neighbour is checked. -/
def State.adoptPorts (s : State) : State :=
  let s := (rangeFrom 0 12).foldl (fun s p =>
    if s.portDark p then (s.linkDown p 2).portLaser p false
    else if s.portState p = 1 then s.portLaser p true else s) s
  (rangeFrom 0 12).foldl (fun s p => s.checkNeighbour p) s

def execPortCmdRetrain (p : Port) (s : State) : Host.Outcome State Fault Refusal := .next (s.portRetrain p.val)

def execPortCmdDisable (p : Port) (s : State) : Host.Outcome State Fault Refusal := .next (s.portDisable p.val)

def execPortCmdEnable (p : Port) (s : State) : Host.Outcome State Fault Refusal := .next (s.portEnable p.val)

end Sys2Proof.Machine
end

