-- ==== Sys2Proof/Machine/Mgmt.lean ====
section
/-!
DEFINITION. What the holder stag works with: the holder, MGMT entries and their ends, writes to host memory,
the queue of package-flash operations (R346, R407, R430, R487, R521, R529).
-/

namespace Sys2Proof.Machine

/-- MGT_STAG_STATUS.holder: 0 stag A, 1 stag B, 3 none; and is there one? -/
def State.holder (s : State) : Nat := s.rfld R.mgtStagStatus 0 2
def State.held (s : State) : Bool := decide (s.holder ≠ 3)

/-- The state of a stag (R428): 0 A, 1 B. -/
def State.stagState (s : State) (u : Nat) : Nat := s.rfld R.mgtStagStatus (if u = 0 then 4 else 8) 3
def State.setStagState (s : State) (u v : Nat) : State := s.setRfld R.mgtStagStatus (if u = 0 then 4 else 8) 3 v

/-- Subcode of a MGMT entry. -/
def SqEntry.sub (e : SqEntry) : Nat := fld (e.w 2) 0 16

/-- The oldest MGMT entry with a subcode, while a stag holds the interlock (R437, R440). -/
def State.mgmtEntry (s : State) (sub : Nat) : Option SqEntry :=
  if s.held then s.host.mgmt.find? fun e => decide (e.sub = sub) else none

/-- Ends a MGMT entry. -/
def State.endMgmt (s : State) (e : SqEntry) (status : Nat) (result : Word) : State :=
  ({ s with host := { s.host with mgmt := s.host.mgmt.erase e } } : State).endEntry e status result

/-- Runs a MGMT command: an entry with a reserved bit set ends INVALID_ENTRY; `ms` are the fields of W3 to
W7 that its subcode uses. -/
def State.mgmtRun (s : State) (sub : Nat) (ms : List Word) (f : State → SqEntry → State) : State :=
  match s.mgmtEntry sub with
  | none => s
  | some e => if e.fieldsOk 0 (mask 0 16 :: ms) then f s e else s.endMgmt e 0x01 0

/-- What a command read from host memory gave (R579). -/
def hostCode (st : Nat) : Nat := if st = 1 then 0x06 else 0x07

/-- Writes bytes to host memory line by line, for a use. -/
def State.hostWrite (s : State) (use : HostUse) (a : Nat) (d : List Byte) : State :=
  (lineCuts (d.length / 64 + 2) a 0 d.length).foldl (fun s (a, off, n) =>
    s.hostReq (if n = 64 then 0x04 else 0x05) a use ((d.drop off).take n)) s

/-- Writes a command's result to host memory and ends the command with its length (R336). -/
def State.mgmtReturn (s : State) (e : SqEntry) (a : Nat) (d : List Byte) : State :=
  (s.hostWrite (.data e.ring e.index) a d).endMgmt e 0 (BitVec.ofNat 64 d.length)

/-- Asks for a package-flash write (R529). -/
def State.flashAsk (s : State) (o : FlashOp) : State :=
  { s with fw := { s.fw with queue := s.fw.queue ++ [o] } }

/-- The body of the start-up default records of a kind, if stored (R498). -/
def State.defaultOf (s : State) (kind : Nat) : Option (List Byte) :=
  (s.fw.defaults.find? fun x => decide (x.1 = kind)).map (·.2)

/-- Sets a cause of ALERT_N (R553). -/
def State.alert (s : State) (n : Nat) : State :=
  let s := s.setReg R.mgtAlertPend (setBit (s.reg R.mgtAlertPend) n true)
  if bit (s.reg R.mgtAlertEn) n then ({ s with pkg := { s.pkg with alert := true } } : State).drive Pin.alert false else s

end Sys2Proof.Machine
end

