-- ==== Sys2Proof/Machine/Ledger.lean ====
section
/-!
DEFINITION. The ledger: records, the close of windows, reading (R512 to R524).
-/

namespace Sys2Proof.Machine

/-- The block of a window's items (R518): counters, then histogram bins. -/
def ledgerBlock (m : SMap Nat) : List Byte :=
  (rangeFrom 0 176).flatMap fun i => natToBytes 8 (if 53 ≤ i ∧ i < 64 then 0 else SMap.get (fun _ => 0) m i)

/-- Item-wise difference of two tables. -/
def itemSub (a b : SMap Nat) : SMap Nat :=
  b.foldl (fun m (k, v) => SMap.set (fun _ => 0) m k (SMap.get (fun _ => 0) m k - v)) a

/-- Item-wise sum of two tables. -/
def itemSum (a b : SMap Nat) : SMap Nat := b.foldl (fun m (k, v) => itemAdd m k v) a

/-- Session, the count of cold resets over life. -/
def State.session (s : State) : Nat := s.rfld R.lifeStatus 32 32

/-- A record (R518): its CRC covers all but its own word. -/
def State.ledgerRecord (s : State) (kind seq start stop_ : Nat) (flags : Nat) (win life : SMap Nat) : List Byte :=
  let head := natToBytes 8 (0x4C47 * 2 ^ 48 + 2 ^ 40 + kind) ++ natToBytes 8 seq ++ natToBytes 8 start ++ natToBytes 8 stop_ ++
    natToBytes 8 (s.session * 2 ^ 32 + flags + (if s.holder = 1 then 4 else 0)) ++ wordBytes Config.serial ++ natToBytes 8 0
  let rest := ledgerBlock win ++ ledgerBlock life ++
    ((rangeFrom 0 44).flatMap fun n => natToBytes 2 (s.rfld (R.optSrcStatus n) 16 16)) ++ List.replicate 1128 0#8
  head ++ natToBytes 8 (crc32 (head ++ rest)) ++ rest

/-- End of the hour and of the day window in force: the next boundary. -/
def State.hourEnd (s : State) : Nat := ((s.reg R.lifeHourStart).toNat / hourNs + 1) * hourNs
def State.dayEnd (s : State) : Nat := ((s.reg R.lifeDayStart).toNat / dayNs + 1) * dayNs

/-- Closes the hour window at a moment: its record is asked for, and the counts that came after its end
begin the next window (R513, R514, R519). -/
def State.closeHour (s : State) (stop_ next : Nat) (early : Bool) : State :=
  let l := s.life
  let r := s.ledgerRecord 1 l.hourSeq (s.reg R.lifeHourStart).toNat stop_ (early.toNat + 2 * l.continued.toNat) l.hour
    (itemSub l.life l.hourNext)
  let s := s.flashAsk (.ledger false l.hourSeq r)
  let s := { s with life := { l with hour := l.hourNext, hourNext := [], continued := false, hourSeq := l.hourSeq + 1 } }
  (s.setReg R.lifeHourStart (BitVec.ofNat 64 next)).setRfld R.lifeStatus 31 1 1

/-- Closes the day window. -/
def State.closeDay (s : State) (stop_ next : Nat) (early : Bool) : State :=
  let l := s.life
  let r := s.ledgerRecord 2 l.daySeq (s.reg R.lifeDayStart).toNat stop_ early.toNat l.day (itemSub l.life l.dayNext)
  let s := s.flashAsk (.ledger true l.daySeq r)
  let s := { s with life := { l with day := l.dayNext, dayNext := [], daySeq := l.daySeq + 1 } }
  (s.setReg R.lifeDayStart (BitVec.ofNat 64 next)).setRfld R.lifeStatus 31 1 1

/-- Item `i` of the window block and of the lifetime block of a record (R518). -/
def LifeRec.win (r : LifeRec) (i : Nat) : Nat := bytesToNat ((r.bytes.drop (64 + 8 * i)).take 8)
def LifeRec.total (r : LifeRec) (i : Nat) : Nat := bytesToNat ((r.bytes.drop (1472 + 8 * i)).take 8)
def LifeRec.start (r : LifeRec) : Nat := bytesToNat ((r.bytes.drop 16).take 8)

/-- The items that a function of the item number gives. -/
def itemsOf (f : Nat → Nat) : SMap Nat := (rangeFrom 0 176).foldl (fun m i => SMap.set (fun _ => 0) m i (f i)) []

/-- The session's counts, held apart so far, join the windows that contain SYSTIME (R520). -/
def State.settleLedger (s : State) : State :=
  let l := s.life
  if !l.apart then s
  else
    let own := l.hour
    let cont := match l.hourLog.getLast? with | some r => decide (r.start / hourNs = s.now / hourNs) | none => false
    let hour := match l.hourLog.getLast? with | some r => if cont then itemSum (itemsOf r.win) own else own | none => own
    let day := (l.hourLog.filter fun r => decide (r.start / dayNs = s.now / dayNs)).foldl (fun m r => itemSum m (itemsOf r.win)) own
    let s := { s with life := { l with apart := false, continued := cont, hour := hour, hourNext := [], day := day, dayNext := [] } }
    (s.setReg R.lifeHourStart (BitVec.ofNat 64 (s.now / hourNs * hourNs))).setReg R.lifeDayStart (BitVec.ofNat 64 (s.now / dayNs * dayNs))

/-- The holder closes a window 10 ms after its end (R513). -/
def execHourWindowClose (s : State) : Host.Outcome State Fault Refusal :=
  .next (if s.held ∧ !s.life.apart ∧ s.hourEnd + 10000000 ≤ s.now then s.closeHour s.hourEnd s.hourEnd false else s)

def execDayWindowClose (s : State) : Host.Outcome State Fault Refusal :=
  .next (if s.held ∧ !s.life.apart ∧ s.dayEnd + 10000000 ≤ s.now then s.closeDay s.dayEnd s.dayEnd false else s)

/-- A step of SYSTIME of more than 1 ms ends the windows in force (R514). A window whose end has passed
closes as it is. -/
def State.stepWindows (s : State) (next : Nat) : State :=
  if s.life.apart then s else
  let s := if s.hourEnd ≤ s.now then s.closeHour s.hourEnd s.hourEnd false else s
  let s := if s.dayEnd ≤ s.now then s.closeDay s.dayEnd s.dayEnd false else s
  let s := s.closeHour s.now next true
  s.closeDay s.now next true

/-! Storing (R517, R529). -/

/-- Sectors of a log that did not fail, and the next one after a sector. -/
def nextSector (size : Nat) (bad : List Nat) (from_ : Nat) : Nat :=
  (((rangeFrom 0 size).map fun i => (from_ + i) % size).find? fun i => !bad.contains i).getD (from_ % size)

/-- A ledger record's write ends: stored, or its sector is skipped from now on and it goes to the next
(R517). -/
def State.storeRecord (s : State) (day : Bool) (seq : Nat) (r : List Byte) (ok : Bool) : State :=
  let l := s.life
  let size := if day then 256 else 1792
  let bad := if day then l.dayBad else l.hourBad
  let at_ := nextSector size bad (if day then l.daySector else l.hourSector)
  if !ok then
    let s := if day then { s with life := { l with dayBad := l.dayBad ++ [at_] } } else { s with life := { l with hourBad := l.hourBad ++ [at_] } }
    s.event 0x1101 (b1 (if day then 2 else 1) ++ natToBytes 4 ((if day then 0x2700000 else 0x2000000) + 4096 * at_))
  else
    let x : LifeRec := { seq := seq, sector := at_, bytes := r }
    let put := fun (g : List LifeRec) => g.filter (fun y => decide (y.sector ≠ at_)) ++ [x]
    let s := if day then { s with life := { l with dayLog := put l.dayLog, daySector := (at_ + 1) % size } }
      else { s with life := { l with hourLog := put l.hourLog, hourSector := (at_ + 1) % size } }
    let s := s.setRfld R.lifeLastSeq (if day then 32 else 0) 32 seq
    (s.setRfld R.lifeStatus 16 11 s.life.hourLog.length).setRfld R.lifeStatus 0 9 s.life.dayLog.length

/-! Seconds (R515, R516). -/

/-- The bin of a source's bias in percent of its maximum (R516, h = 4). -/
def biasBin (bias max_ : Nat) : Nat :=
  let p := if max_ = 0 then 0 else 100 * bias / max_
  if p < 50 then 0 else min 15 ((p - 47) / 3)

/-- The bin of a margin in 0.01 dB (R516, h = 6). -/
def marginBin (m : Int) : Nat := if m < 50 then 0 else min 15 (m.toNat / 50)

/-- A second of ledger operation (R515, R516): power-on time, the bias of each active source, and the
margins of port wavelengths in use, given as they were measured, in 0.01 dB. -/
def execLedgerSecond (margins : List Int) (s : State) : Host.Outcome State Fault Refusal :=
  .next (
    let s := s.ledger 0
    let s := (rangeFrom 0 44).foldl (fun s n =>
      let st := s.rfld (R.optSrcStatus n) 0 3
      if st = 2 ∨ st = 3 then s.hist 4 (biasBin (s.rfld (R.optSrcStatus n) 16 16) (s.rfld (R.optSrcStatus n) 32 16)) else s) s
    let s := margins.foldl (fun s m => s.hist 6 (marginBin m)) s
    let s : State := { s with life := { s.life with second := s.life.second + 1 } }
    if 10 ≤ s.life.second then s.settleLedger else s)

/-! Reading (R521 to R523). -/

/-- The stored records of a kind. -/
def State.ledgerLog (s : State) (kind : Nat) : List LifeRec :=
  if kind = 1 then s.life.hourLog else if kind = 2 then s.life.dayLog else []

/-- LEDGER_READ: whole valid records in increasing sequence, which is the order they are stored in, as
many as fit. -/
def execLedgerRead (s : State) : Host.Outcome State Fault Refusal :=
  .next (s.mgmtRun 0x1101 [mask 0 64, mask 0 64, mask 0 2, mask 0 64, 0] fun s e =>
    let l := (s.ledgerLog (fld (e.w 5) 0 2)).filter fun r => decide ((e.w 6).toNat ≤ r.seq)
    let l := l.take ((e.w 4).toNat / 4096)
    if (e.w 3).toNat % 64 ≠ 0 then s.endMgmt e 0x0B 0
    else s.mgmtReturn e (e.w 3).toNat (l.flatMap (·.bytes)))

/-- LEDGER_SNAPSHOT: an hour-format record of the window in force, not stored (R521, log entry 20). -/
def execLedgerSnapshot (s : State) : Host.Outcome State Fault Refusal :=
  .next (s.mgmtRun 0x1102 [mask 0 64, mask 0 64, 0, 0, 0] fun s e =>
    if (e.w 4).toNat < 4096 ∨ (e.w 3).toNat % 64 ≠ 0 then s.endMgmt e 0x0B 0
    else
      let r := s.ledgerRecord 1 s.life.hourSeq (s.reg R.lifeHourStart).toNat s.hourEnd (8 + 2 * s.life.continued.toNat) s.life.hour s.life.life
      s.mgmtReturn e (e.w 3).toNat r)

/-- The current value of an item (R522, R523): window 0 hour, 1 day, 2 lifetime. -/
def State.lifeItem (s : State) (window item : Nat) : Nat :=
  let m := if window = 0 then s.life.hour else if window = 1 then s.life.day else if window = 2 then s.life.life else []
  if (53 ≤ item ∧ item < 64) ∨ 176 ≤ item then 0 else SMap.get (fun _ => 0) m item

end Sys2Proof.Machine
end

