-- ==== Sys2Proof/Machine/FabTime.lean ====
section
/-!
DEFINITION. Congestion maps, and SYSTIME: its exchange with neighbours, correction and alignment (R293 to
R298, R564).
-/

namespace Sys2Proof.Machine

/-! Congestion maps (R293, R294). -/

/-- The buffers of REQ, RSP and MGT, and their size in flits (R275). -/
def mapBufs : List Nat := [0, 1, 2, 3, 4, 5, 9, 10, 11]
def mapTotal : Nat := 520

/-- Flits of REQ, RSP and MGT that wait at the far end of a port or are on the way there: the credit in
use. -/
def Link.occupancy (l : Link) : Nat := mapBufs.foldl (fun n k => n + (bufSize k - l.credit k)) 0

/-- A sample of the three outputs of a port stop. -/
def execCmapSample (stop : Fin 4) (s : State) : Host.Outcome State Fault Refusal :=
  .next ((rangeFrom (3 * stop.val) 3).foldl (fun s p =>
    let l := s.link p
    let o := l.occupancy
    s.setLink p { l with occSum := l.occSum + o, occPeak := max l.occPeak o, occN := l.occN + 1 }) s)

/-- The map byte of a port for a sum of occupancies, in flits, over `n` samples (R293). -/
def State.mapByte (s : State) (p sum n : Nat) : Byte :=
  let fenced := match s.portDir p with | some m => s.devFenced (s.nextDev m) | none => false
  let st := if fenced then 3 else if !s.portUp p && decide (s.portState p ≠ 5) then 2
    else if s.rfld (R.portLaneStatus p) 4 2 = 1 then 1 else 0
  BitVec.ofNat 8 (min 31 (32 * sum / (max 1 n * mapTotal)) * 8 + ((s.link p).replayed.toNat * 4) + st)

/-- The end of a 100 µs window: the map is sent to the collector when enabled, and the next window begins. -/
def execCmapWindowEnd (s : State) : Host.Outcome State Fault Refusal :=
  .next (
    let start := s.fab.cmapStart
    if s.now < start + 100000 then s
    else
      let ports := rangeFrom 0 12
      let d := natToBytes 2 s.devIndex ++ natToBytes 2 s.fab.cmapSeq ++ natToBytes 4 0 ++ natToBytes 8 start ++
        ports.map (fun p => s.mapByte p (s.link p).occSum (s.link p).occN) ++ ports.map (fun p => s.mapByte p (s.link p).occPeak 1) ++ List.replicate 24 0#8
      let s := if bit (s.reg R.fabCmapCtl) 63 && s.topoValid then
          (s.inject 0 { Pkt.empty with type := PT.cmap, srcDev := s.devIndex, dstDev := s.rfld R.fabCmapCtl 0 9, epoch := s.epoch, data := d }).count
            R.fabCmapStatus 0 32
        else s
      let s := ports.foldl (fun s p => s.setLink p { s.link p with occSum := 0, occPeak := 0, occN := 0, replayed := false }) s
      { s with fab := { s.fab with cmapStart := start + 100000, cmapSeq := (s.fab.cmapSeq + 1) % 2 ^ 16 } })

/-- The collector writes a map it receives to host memory (R294). -/
def execCmap (p : Pkt) (s : State) : Host.Outcome State Fault Refusal :=
  .next (if p.type ≠ PT.cmap then s
    else ((s.count R.fabCmapStatus 32 32).hostWrite .cmap ((s.reg R.fabCmapBase).toNat / 2 ^ 15 * 2 ^ 15 + 64 * (p.srcDev % 512)) p.data))

/-! SYSTIME (R295 to R298). -/

/-- CLK_TIME_CTL.source: 0 master, 1 links, 2 SYNC_IN; a reserved code acts as a master. -/
def State.timeSource (s : State) : Nat := s.rfld R.clkTimeCtl 0 2
def State.aligned (s : State) : Bool := bit (s.reg R.clkTimeStatus) 0

/-- Hops that the device reports: 0 for a master, 63 while unaligned, else its parent's plus 1 (R296). -/
def State.timeHops (s : State) : Nat :=
  if s.timeSource = 0 then 0 else if s.aligned then s.rfld R.clkTimeOffset 56 6 else 63

/-- A change of alignment is reported; the first alignment after a reset brings the replay table into
service (R297, R322). -/
def State.setAligned (s : State) (b : Bool) : State :=
  if s.aligned = b then s
  else
    let s := s.setRfld R.clkTimeStatus 0 1 b.toNat
    let s := s.event 0x080B (b1 b.toNat ++ b1 s.timeSource ++ b1 s.timeHops)
    if b then
      (rangeFrom 20 4).foldl (fun s i =>
        match SMap.get (fun _ => none) s.xport.tUp i with
        | some _ => s
        | none => { s with xport := { s.xport with tUp := SMap.set (fun _ => none) s.xport.tUp i (some s.now) } }) s.settleLedger
    else s

/-- SYSTIME takes another value at once (R297, R514). A compare value that lies ahead again is met again
(log entry 21). -/
def State.stepTime (s : State) (v : Nat) : State :=
  let big := decide (1000000 < natDist v s.now)
  let s := if big then (s.count R.clkTimeStatus 32 16).stepWindows v else s
  let s := { s with time := { s.time with systime := v % 2 ^ 64, slew := 0 } }
  s.cores.foldl (fun s (k, _) => s.onKey k fun _ c => { c with sysArmed := c.sysArmed || decide (v < c.sysCmp.toNat) }) s

/-- A correction of SYSTIME by `c` ns from its source (R297). -/
def State.correctTime (s : State) (c : Int) : State :=
  let s := s.setRfld R.clkTimeOffset 0 32 (c % 2 ^ 32).toNat
  let small := decide (c.natAbs ≤ 4)
  let good := if small then s.time.good + 1 else 0
  let s := { s with time := { s.time with good := good, lastCorr := s.now } }
  if c.natAbs ≤ 1000 then
    let s := { s with time := { s.time with slew := c } }
    if 3 ≤ good then s.setAligned true else s
  else
    let s := s.setAligned false
    let s := s.stepTime ((s.now : Int) + c).toNat
    { s with time := { s.time with lastCorr := s.now } }

/-- The parent chosen among neighbours that report aligned over an ACTIVE link: the fewest hops, the lower
port on a tie (R296). -/
def State.chooseParent (s : State) : Nat :=
  (rangeFrom 0 12).foldr (fun p best =>
    if decide (s.portState p = 3) && (s.link p).aligned && (decide (best = 15) || decide ((s.link p).hops ≤ (s.link best).hops))
    then p else best) 15

/-- Keeps the parent while it stays aligned over a link that carries traffic, else chooses again. -/
def State.checkParent (s : State) : State :=
  let p := s.rfld R.clkTimeOffset 48 4
  let hasParent := decide (p < 12) && s.portUp p && (s.link p).aligned && decide (0 < s.time.lastCorr)
  if hasParent then s else s.setRfld R.clkTimeOffset 48 4 s.chooseParent

/-- Starts a TIME exchange on a port, at most one per 1 ms (R296). -/
def execTimeExchangeStart (p : Port) (s : State) : Host.Outcome State Fault Refusal :=
  .next (
    let l := s.link p.val
    let early := match l.exchAt with | some t => decide (s.now < t + 1000000) | none => false
    let d := b1 1 ++ b1 s.timeHops ++ b1 s.aligned.toNat ++ b1 0 ++ natToBytes 4 l.exchSeq ++ List.replicate 24 0#8
    let k : Pkt := { Pkt.empty with type := PT.time, srcDev := s.devIndex, data := d, epoch := s.epoch }
    if !s.portUp p.val || early || !s.canSend p.val k 1 then s
    else
      let s := s.sendOn p.val k 1 0
      s.setLink p.val { s.link p.val with exch := some (l.exchSeq, s.now), exchSeq := (l.exchSeq + 1) % 2 ^ 32, exchAt := some s.now })

/-- Answers a TIME request that waits, once the link has room for it (R296). -/
def State.answerTime (s : State) (q : Nat) : State :=
  match (s.link q).answer with
  | none => s
  | some (seq, t2) =>
    let d := b1 2 ++ b1 s.timeHops ++ b1 s.aligned.toNat ++ b1 0 ++ natToBytes 4 seq ++
      natToBytes 8 t2 ++ natToBytes 8 s.now ++ List.replicate 8 0#8
    let k : Pkt := { Pkt.empty with type := PT.time, srcDev := s.devIndex, data := d, epoch := s.epoch }
    if s.portUp q && s.canSend q k 1 then (s.setLink q { s.link q with answer := none }).sendOn q k 1 0 else s

/-- A TIME request is answered; a response ends the exchange: the neighbour's hops and alignment, and for
the parent of a link follower a correction by the offset (R296). -/
def execTime (port : Port) (p : Pkt) (s : State) : Host.Outcome State Fault Refusal :=
  .next (
    let f := fun i n => bytesToNat ((p.data.drop i).take n)
    let q := port.val
    if p.type ≠ PT.time ∨ !s.portUp q then s
    else
      let kind := f 0 1
      let s := s.setLink q { s.link q with hops := f 1 1 % 64, aligned := decide (f 2 1 % 2 = 1) }
      if kind = 1 then
        (s.setLink q { s.link q with answer := some (f 4 4, s.now) }).answerTime q
      else
        match (s.link q).exch with
        | none => s
        | some (seq, t1) =>
          if kind ≠ 2 ∨ seq ≠ f 4 4 then s
          else
            let s := s.setLink q { s.link q with exch := none }
            if s.timeSource ≠ 1 then s
            else
              let s := s.checkParent
              if s.rfld R.clkTimeOffset 48 4 ≠ q then s
              else
                let off : Int := (((f 8 8 : Int) - t1) - ((s.now : Int) - f 16 8)) / 2
                (s.setRfld R.clkTimeOffset 56 6 (min 63 ((s.link q).hops + 1))).correctTime off)

/-- A follower that its source has not corrected for 100 ms is no longer aligned (R297). -/
def execAlignmentTimeout (s : State) : Host.Outcome State Fault Refusal :=
  .next (if s.aligned ∧ s.timeSource ≠ 0 ∧ s.time.lastCorr + 100000000 ≤ s.now then
      ({ s with time := { s.time with good := 0 } } : State).setAligned false
    else s)

/-- A master is aligned from the first write of CLK_TIME_SET after its last cold reset (R295). -/
def State.alignMaster (s : State) : State := if s.timeSource = 0 ∧ s.time.given then s.setAligned true else s

/-- A write of CLK_TIME_SET steps SYSTIME and aligns a master (R295, R564). -/
def State.setTime (s : State) (v : Word) : State :=
  let s := s.stepTime v.toNat
  ({ s with time := { s.time with given := true } } : State).alignMaster

def execClkTimeSetWrite (val : Word) (s : State) : Host.Outcome State Fault Refusal := .next (s.setTime val)

/-- A 32-bit read of the lower half of CLK_SYSTIME captures the upper half (R7, R567). -/
def execClkSystimeLowRead (s : State) : Host.Outcome State Fault Refusal :=
  .next ({ s with host := { s.host with capture := some (s.now / 2 ^ 32) } })

end Sys2Proof.Machine
end

