-- ==== Sys2Proof/Machine/HostRing.lean ====
section
/-!
DEFINITION. Rings, submission entries, their completions, events and interrupt messages (R338 to R355).
-/

namespace Sys2Proof.Machine

/-! Rings (R339 to R344). -/

/-- Do two enabled rings name the doorbell word of a CFG register (R343)? -/
def State.dblShared (s : State) (cfg : Word) : Bool :=
  let isCfg := fun o => (decide (0x51800 ≤ o) && decide (o < 0x52000)) || (decide (0x53000 ≤ o) && decide (o < 0x53800))
    || (decide (0x54040 ≤ o) && decide (o < 0x54080))
  decide (1 < (s.regs.filter fun x =>
    isCfg x.1 && bit x.2 63 && decide (fld x.2 16 8 = fld cfg 16 8) && decide (fld x.2 0 4 = fld cfg 0 4)).length)

/-- The doorbell word that a CFG register names; a free value where two enabled rings name it (R343). -/
def State.dblWord (s : State) (cfg : Word) : Nat :=
  if s.dblShared cfg then fld (s.freeWord 0) 0 32 else SMap.get (fun _ => 0) s.host.words (16 * fld cfg 16 8 + fld cfg 0 4)

/-- The size of a ring from its CFG register. -/
def ringSize (cfg : Word) : Nat := 2 ^ fld cfg 48 5

/-- How far index `a` lies beyond `b`, modulo 2^32. -/
def idxAhead (a b : Nat) : Nat := (a + 2 ^ 32 - b % 2 ^ 32) % 2 ^ 32

/-- Head and tail of a submission ring. -/
def State.sqHead (s : State) (n : Nat) : Nat := s.rfld (R.hifSqStatus n) 0 32
def State.sqTail (s : State) (n : Nat) : Nat := s.dblWord (s.reg (R.hifSqCfg n))

/-- A ring's state: 0 disabled, 1 running, 2 error, 3 draining. -/
def State.sqState (s : State) (n : Nat) : Nat := s.rfld (R.hifSqStatus n) 56 2

/-- A ring enters state error with a cause, and SQ_ERROR is reported (R342, R353). -/
def State.sqError (s : State) (n cause : Nat) : State :=
  ((s.setRfld (R.hifSqStatus n) 56 2 2).setRfld (R.hifSqStatus n) 52 2 cause).event 0x0A01
    (b1 n ++ b1 cause ++ natToBytes 4 (s.sqHead n))

/-- A running ring whose tail lies beyond its size enters state error (R342). -/
def State.checkTail (s : State) (n : Nat) : State :=
  if s.sqState n = 1 ∧ ringSize (s.reg (R.hifSqCfg n)) < idxAhead (s.sqTail n) (s.sqHead n) then s.sqError n 0 else s

/-- The completion ring of a submission ring. -/
def State.cqOf (s : State) (n : Nat) : Nat := s.rfld (R.hifSqCfg n) 40 8

/-- Has a completion ring a free slot (R341)? -/
def State.cqRoom (s : State) (c : Nat) : Bool :=
  let cfg := s.reg (R.hifCqCfg c)
  bit cfg 63 && decide (idxAhead (s.rfld (R.hifCqStatus c) 0 32) (s.dblWord cfg) + s.rfld (R.hifCqStatus c) 32 17 < ringSize cfg)

/-- Changes the reserved slots of a completion ring. -/
def State.reserve (s : State) (c : Nat) : State := s.setRfld (R.hifCqStatus c) 32 17 (s.rfld (R.hifCqStatus c) 32 17 + 1)
def State.release (s : State) (c : Nat) : State := s.setRfld (R.hifCqStatus c) 32 17 (s.rfld (R.hifCqStatus c) 32 17 - 1)

/-! Starting entries (R340, R345 to R347). -/

/-- The fields that W2 to W7 of an operation use, and its flags in W0 (R345, R346). -/
def opFields (op : Nat) : Option (Word × List Word) :=
  match op with
  | 0x01 => some (0, [mask 0 41, mask 0 48, mask 0 18, mask 0 48, mask 0 37, 0])
  | 0x02 => some (mask 24 2, [mask 0 52, mask 0 52, mask 0 40, 0, 0, 0])
  | 0x03 => some (0, [mask 0 3, mask 16 32, 0, 0, 0, 0])
  | 0x04 => some (0, [mask 8 1 ||| mask 0 3, mask 16 32, 0, 0, 0, 0])
  | 0x05 => some (0, [mask 0 33, 0, 0, 0, 0, 0])
  | 0x06 => some (0, [mask 60 4 ||| mask 16 32, 0, 0, 0, 0, 0])
  | 0x07 => some (0, [mask 0 8, 0, 0, 0, 0, 0])
  | 0x08 => some (0, [0, 0, 0, 0, 0, 0])
  | 0x10 => some (0, List.replicate 6 (mask 0 64))
  | _ => none

/-- Fields of a LAUNCH. -/
def SqEntry.dies (e : SqEntry) : List Nat := (rangeFrom 0 8).filter fun d => bit (e.w 2) d
def SqEntry.startPc (e : SqEntry) : Nat := fld (e.w 2) 24 17
def SqEntry.launchOk (e : SqEntry) : Bool :=
  decide (fld (e.w 2) 8 4 ≤ fld (e.w 2) 12 4) && decide (fld (e.w 2) 16 4 ≤ fld (e.w 2) 20 4) && decide (e.startPc % 4 = 0)
    && decide ((e.w 4).toNat % 4 = 0) && decide ((e.w 4).toNat ≤ pstoreSize)
    && decide (fld (e.w 6) 16 21 + fld (e.w 6) 0 16 ≤ scratchSize)

/-- The dies that a command of the die controllers names. -/
def SqEntry.named (e : SqEntry) : List Nat := if e.op = 0x03 ∨ e.op = 0x04 then [fld (e.w 2) 0 3] else e.dies

/-- Does a command go to the die controllers (R347)? -/
def SqEntry.forDies (e : SqEntry) : Bool := decide (e.op = 0x01) || decide (e.op = 0x03) || decide (e.op = 0x04) || decide (e.op = 0x07)

/-- The mask of a list of dies. -/
def dieMask (l : List Nat) : Nat := l.foldl (fun m d => m ||| 2 ^ d) 0

/-- The status and result with which an entry ends before it starts, if it does (R338, R345 to R349). -/
def State.entryBad (s : State) (e : SqEntry) : Option (Nat × Nat) :=
  let mgmtRing := bit (s.reg (R.hifSqCfg e.ring)) 62
  match opFields e.op with
  | none => some (0x01, 0)
  | some (fl, ms) =>
    if !e.fieldsOk fl ms || !s.jobMatches e then some (0x01, 0)
    else if e.op = 0x10 then (if mgmtRing then none else some (0x01, 0))
    else if e.op = 0x01 ∧ !e.launchOk then some (0x01, 0)
    else if e.op = 0x06 ∧ (Inval.ofWord (e.w 2) e.job).bad then some (0x01, 0)
    else if e.op = 0x02 ∧ ((!bit (e.w 0) 24 ∧ s.capacity < (e.w 2).toNat + (e.w 4).toNat) ∨
        (!bit (e.w 0) 25 ∧ s.capacity < (e.w 3).toNat + (e.w 4).toNat)) then some (0x01, 0)
    else if !s.jobExists e.job then some (0x02, 0)
    else if e.forDies && e.named.any fun d => !bit (s.reg (R.hifJob e.job)) d then some (0x02, 0)
    else if e.forDies && e.named.any fun d => !s.dieUp d then some (0x04, dieMask (e.named.filter fun d => !s.dieUp d))
    else none

/-- Starts what can start without a row of its own: entries that end at once, and commands that the host
stop sends to the die controllers and the holder stag (R340, R347). -/
def State.pumpN (s : State) (ring : Nat) : Nat → State
  | 0 => s
  | fuel + 1 =>
    match s.frontEntry ring with
    | none => s
    | some e =>
      match s.entryBad e with
      | some (st, r) => ((s.startEntry e).endEntry e st (BitVec.ofNat 64 r)).pumpN ring fuel
      | none =>
        if e.op = 0x10 then
          let s := s.startEntry e
          ({ s with host := { s.host with mgmt := s.host.mgmt ++ [e] } } : State).pumpN ring fuel
        else if e.forDies then
          let s := s.startEntry e
          let s := e.named.foldl (fun s d => s.setDieQueue d (s.dieQueue d ++ [e])) s
          (if e.named.isEmpty then s.endEntry e 0 0 else s).pumpN ring fuel
        else s

/-- A ring that drains becomes disabled once its started entries have completed. -/
def State.settleRing (s : State) (n : Nat) : State :=
  if s.sqState n = 3 ∧ (s.sq n).started.isEmpty then s.setRfld (R.hifSqStatus n) 56 2 0 else s

/-- Starts what can start of a ring, and settles its state. -/
def State.pump (s : State) (ring : Nat) : State := (s.pumpN ring ((s.sq ring).fetched.length)).settleRing ring

/-- The front entry of a ring with an operation, once it may start. -/
def State.nextEntry (s : State) (ring op : Nat) : Option SqEntry :=
  match s.frontEntry ring with
  | some e => if e.op = op && (s.entryBad e).isNone then some e else none
  | none => none

/-- NOP completes at start with SYSTIME (R346). -/
def execNop (sq : Fin 256) (s : State) : Host.Outcome State Fault Refusal :=
  .next (match s.nextEntry sq.val 0x08 with
    | some e => ((s.startEntry e).endEntry e 0 (BitVec.ofNat 64 s.now)).pump sq.val
    | none => s.pump sq.val)

/-- FAULT_REPLY (R243, R346). -/
def execFaultReply (sq : Fin 256) (s : State) : Host.Outcome State Fault Refusal :=
  .next (match s.nextEntry sq.val 0x05 with
    | some e => (((s.startEntry e).faultReply (fld (e.w 2) 0 32) (bit (e.w 2) 32)).endEntry e 0 0).pump sq.val
    | none => s.pump sq.val)

/-- INVALIDATE acts as MMU_INV for the entry's job and ends when the invalidation does (R239, R346). With
16 in progress it waits. -/
def execInvalidate (sq : Fin 256) (s : State) : Host.Outcome State Fault Refusal :=
  .next (match s.nextEntry sq.val 0x06 with
    | some e =>
      if 16 ≤ s.mmu.invs.length then s
      else ((s.startEntry e).invalidate { Inval.ofWord (e.w 2) e.job with entry := some (e.ring, e.index) }).pump sq.val
    | none => s.pump sq.val)

/-- An invalidation ends once no request made through what it removed is outstanding (R239). -/
def execInvalidationDone (index : Nat) (s : State) : Host.Outcome State Fault Refusal :=
  .next (match s.mmu.invs[index]? with
    | none => s
    | some i =>
      if s.invBusy i then s
      else
        let invs := s.mmu.invs.eraseIdx index
        let s := { s with mmu := { s.mmu with invs := invs } }
        let s := s.setRfld R.mmuInvStatus 32 16 (s.rfld R.mmuInvStatus 32 16 + 1)
        let s := if invs.isEmpty then s.setRfld R.mmuInvStatus 0 1 0 else s
        match i.entry with
        | some (r, k) => (s.endBy r k 0 0).pump r
        | none => s)

/-! COPY (R346, R349, R579). -/

/-- One line of the source of a COPY: the status of its read, and its bytes. -/
def State.copySrc (s : State) (e : SqEntry) (data : List Byte) (bad : List (Nat × Nat)) (ecc : List LineRead)
    (i a off n : Nat) : State × Nat × List Byte :=
  if bit (e.w 0) 24 then
    let st := match bad.find? fun x => decide (x.1 = i) with | some x => hostCode x.2 | none => 0
    (s, st, (data.drop off).take n)
  else if s.stackOut a then (s, 0x07, [])
  else
    let (s, good) := s.readLine (a / 64) (nth .ok ecc i)
    (s, if good then 0 else 0x07, Mem.bytes s.mem.bytes a n)

/-- Writes bytes of a COPY that lie in one destination line. -/
def State.copyDst (s : State) (e : SqEntry) (ecc : List LineRead) (a : Nat) (d : List Byte) : State × Nat :=
  if bit (e.w 0) 25 then (s.hostWrite (.data e.ring e.index) a d, 0)
  else if s.stackOut a then (s, 0x07)
  else
    let (s, ok) := s.memWrite a d [nth .ok ecc (a / 64 - (e.w 3).toNat / 64)]
    (s, if ok then 0 else 0x07)

/-- Is a line of device memory that a COPY reads or writes held by its stop (R232)? -/
def State.copyHeld (s : State) (e : SqEntry) : Bool :=
  let n := (e.w 4).toNat
  let at_ := fun (a : Nat) => (rangeFrom 0 (linesOf a n)).any fun i => s.channelHeld (a / 64 * 64 + 64 * i)
  !s.mem.repairing.isEmpty && (!bit (e.w 0) 24 && at_ (e.w 2).toNat || !bit (e.w 0) 25 && at_ (e.w 3).toNat)

/-- Copies line by line; the status is that of the first line that failed, and no byte of a line that
failed is written (R579). -/
def State.copyAll (s : State) (e : SqEntry) (data : List Byte) (bad : List (Nat × Nat)) (ecc decc : List LineRead) : State × Nat :=
  let n := (e.w 4).toNat
  let cuts := lineCuts (n / 64 + 2) (e.w 2).toNat 0 n
  let (s, st, _) := cuts.foldl (fun (s, st, i) (a, off, k) =>
    let (s, rst, d) := s.copySrc e data bad ecc i a off k
    if rst ≠ 0 then (s, if st = 0 then rst else st, i + 1)
    else
      let (s, st) := (lineCuts 3 ((e.w 3).toNat + off) 0 d.length).foldl (fun (s, st) (b, o, m) =>
        let (s, w) := s.copyDst e decc b ((d.drop o).take m)
        (s, if st = 0 then w else st)) (s, st)
      (s, st, i + 1)) (s, 0, 0)
  (s, st)

/-- COPY: `data` is the host source as it was read, `bad` the indices and statuses of its lines whose read
failed, `ecc` and `decc` what SECDED says of the source and destination lines in device memory. -/
def execCopy (sq : Fin 256) (data : List Byte) (bad : List (Nat × Nat)) (ecc decc : List LineRead) (s : State) :
    Host.Outcome State Fault Refusal :=
  .next (match s.nextEntry sq.val 0x02 with
    | some e =>
      if s.copyHeld e then s else
      let (s, st) := (s.startEntry e).copyAll e data bad ecc decc
      (s.endEntry e st 0).pump sq.val
    | none => s.pump sq.val)

/-! LAUNCH and JOB_KILL (R347). -/

/-- Ends the launches whose cores have all ended: halted under `halt`, on double exception, or fenced
(R346, R349). -/
def State.reapLaunches (s : State) : State :=
  s.host.launches.foldl (fun s l =>
    let gone := l.cores.all fun k => let r := (s.coreAt k).rs; decide (r = .haltedSelf) || decide (r = .haltedDouble) || decide (r = .fenced)
    if !gone then s
    else
      let s := { s with host := { s.host with launches := s.host.launches.erase l } }
      let with_ := fun (r : RunState) => dieMask ((l.cores.filter fun k => decide ((s.coreAt k).rs = r)).map (· / 288))
      let (st, res) := if with_ .fenced ≠ 0 then (0x04, with_ .fenced)
        else if with_ .haltedDouble ≠ 0 then (0x05, with_ .haltedDouble) else (0, 0)
      (s.endBy l.ring l.index st (BitVec.ofNat 64 res)).pump l.ring) s

/-- Ends the JOB_KILL entries whose cores hold no tracked slot. -/
def State.reapKills (s : State) : State :=
  s.host.kills.foldl (fun s l =>
    if l.cores.any fun k => !((s.coreAt k).engine 6).slots.isEmpty then s
    else
      let s := { s with host := { s.host with kills := s.host.kills.erase l } }
      (s.endBy l.ring l.index 0 0).pump l.ring) s

def State.reap (s : State) : State := s.reapLaunches.reapKills

/-- Takes an entry off the die queues. -/
def State.unqueue (s : State) (e : SqEntry) : State :=
  e.named.foldl (fun s d => s.setDieQueue d ((s.dieQueue d).erase e)) s

/-- The entry at the head of the queue of every die that it names, with no transfer under way there, nor
a reload of its controller (R494). -/
def State.dieEntry (s : State) (d op : Nat) : Option SqEntry :=
  match s.dieQueue d with
  | e :: _ =>
    if e.op = op && e.named.all fun d => decide ((s.dieQueue d).head? = some e) && (s.xfer d).isNone && !s.reloading d then some e else none
  | [] => none

/-- The cores of a launch's rectangle on its dies. -/
def State.launchCores (s : State) (e : SqEntry) : List Nat :=
  let w := e.w 2
  e.dies.flatMap fun d => (rangeFrom (fld w 8 4) (fld w 12 4 + 1 - fld w 8 4)).flatMap fun r =>
    (rangeFrom (fld w 16 4) (fld w 20 4 + 1 - fld w 16 4)).map fun c => posKey d r (s.physCol d r c)

/-- The status with which a load of a launch stands while it waits; no status of the spec. -/
def loadWaits : Nat := 0x100

/-- Reads `n` bytes of a job for a launch on a die: the bytes, or the status with which the load ends (R237, R349,
R579). A translation that the die's TLB does not hold is walked. `rd.tabs` holds the lines of host memory that it
reads, by address / 64. -/
def State.jobBytes (rd : Reads) (die job : Nat) : Nat → Nat → Nat → State → State × (List Byte ⊕ Nat)
  | 0, _, _, s => (s, .inl [])
  | fuel + 1, va, n, s =>
    if n = 0 then (s, .inl [])
    else
      let k := min n (64 - va % 64)
      let (s, x) := match (s.dtlb die).find? fun t => t.covers job va with
        | some t => (s, Xlated.leaf t)
        | none =>
          match s.walkNow rd (288 * die) job va 0 0 with
          | (s, .leaf t) => (s.fillDie die t, .leaf t)
          | r => r
      match x with
      | .wait => (s, .inr loadWaits)
      | .fault _ => (s, .inr 0x08)
      | .leaf t =>
        let a := t.pa + (va - t.va)
        let (s, got) : State × (List Byte ⊕ Nat) :=
          if t.tgt = 1 then
            (s, match tabLine rd.tabs (a / 64) with
              | some l => .inl ((l.drop (a % 64)).take k ++ List.replicate (k - (l.drop (a % 64)).length) 0#8)
              | none => .inr 0x06)
          else if s.stackOut a then (s, .inr 0x07)
          else if s.channelHeld a then (s, .inr loadWaits)
          else
            let (s, good) := s.readLine (a / 64) (eccOf rd.ecc (a / 64))
            (s, if good then .inl (Mem.bytes s.mem.bytes a k) else .inr 0x07)
        match got with
        | .inr c => (s, .inr c)
        | .inl d =>
          match State.jobBytes rd die job fuel (va + k) (n - k) s with
          | (s, .inl l) => (s, .inl (d ++ l))
          | r => r

/-- Loads and starts one core of a launch (R347): program, arguments, CORE_JOB, start under R60. -/
def Core.launch (env : CoreEnv) (c : Core) (e : SqEntry) (prog args : List Byte) : Core :=
  if c.rs = .fenced then c
  else
    let c := { c with pstore := Mem.write c.pstore 0 prog, job := BitVec.ofNat 64 e.job }
    let c := c.store env (fld (e.w 6) 16 21) args
    c.start e.startPc

/-- LAUNCH at the head of the queues of its dies (R347): BUSY with a core of the rectangle running, else
program and arguments are loaded and every core starts; it waits while a line it reads is held, or no walker is free
(R232, R238). `tabs` are lines read from host memory, `ecc` what SECDED says of lines read. -/
def execLaunch (d : Die) (tabs : List (Nat × List Byte)) (ecc : List (Nat × LineRead)) (s : State) : Host.Outcome State Fault Refusal :=
  .next (match s.dieEntry d.val 0x01 with
    | none => s
    | some e =>
      let s0 := s
      let s := (s.reap).unqueue e
      let cores := s.launchCores e
      let busy := cores.any fun k => let r := (s.coreAt k).rs; !r.halted && decide (r ≠ .fenced)
      if busy then (s.endEntry e 0x03 0).pump e.ring
      else
        let n := (e.w 4).toNat
        let va := (e.w 3).toNat
        let m := fld (e.w 6) 0 16
        match State.jobBytes ⟨tabs, ecc⟩ d.val e.job (n / 64 + 2) va n s with
        | (s, .inr st) => if st = loadWaits then s0 else (s.endEntry e st 0).pump e.ring
        | (s, .inl prog) =>
          match State.jobBytes ⟨tabs, ecc⟩ d.val e.job (m / 64 + 2) (e.w 5).toNat m s with
          | (s, .inr st) => if st = loadWaits then s0 else (s.endEntry e st 0).pump e.ring
          | (s, .inl args) =>
            let s := cores.foldl (fun s k => s.onKey k fun env c => c.launch env e prog args) s
            { s with host := { s.host with launches := s.host.launches ++
              [{ ring := e.ring, index := e.index, job := e.job, cookie := e.w 1, nocqe := e.nocqe, cores := cores }] } })

/-- A core of a killed job halts, its engine queues are discarded; what is outstanding ends by itself. -/
def Core.kill (env : CoreEnv) (c : Core) : Core :=
  let c := if c.rs.halted then c else c.halt env .haltedCtl
  (rangeFrom 0 7).foldl (fun c n => c.setEngine n { c.engine n with queue := [], run := none, active := [], stop := false, held := false }) c

/-- JOB_KILL at the head of the queues of its dies (R347). -/
def execJobKill (d : Die) (s : State) : Host.Outcome State Fault Refusal :=
  .next (match s.dieEntry d.val 0x07 with
    | none => s
    | some e =>
      let s := s.unqueue e
      let cores := e.dies.flatMap fun d => s.jobCores d e.job
      let s := s.withdrawFaults fun f => cores.contains f.core
      let s := cores.foldl (fun s k => s.onKey k fun env c => c.kill env) s
      let dead := s.host.launches.filter fun l => decide (l.job = e.job) && l.cores.any fun k => e.dies.contains (k / 288)
      let s := { s with host := { s.host with launches := s.host.launches.filter fun l => !dead.contains l } }
      let s := dead.foldl (fun s l => (s.endBy l.ring l.index 0x09 0).pump l.ring) s
      ({ s with host := { s.host with kills := s.host.kills ++
        [{ ring := e.ring, index := e.index, job := e.job, cookie := e.w 1, nocqe := e.nocqe, cores := cores }] } } : State).reap)

/-! Interrupt messages (R354, R355). -/

/-- A vector's count. -/
def State.vec (s : State) (v : Nat) : Vec := SMap.get (fun _ => { count := 0, first := 0 }) s.host.vecs v
def State.setVec (s : State) (v : Nat) (x : Vec) : State :=
  { s with host := { s.host with vecs := SMap.set (fun _ => { count := 0, first := 0 }) s.host.vecs v x } }

/-- HIRQ_PEND's bit of a vector. -/
def State.irqPend (s : State) (v : Nat) : Bool := bit (s.reg (R.hirqPend (v / 64))) (v % 64)
def State.setIrqPend (s : State) (v : Nat) (b : Bool) : State :=
  s.setReg (R.hirqPend (v / 64)) (setBit (s.reg (R.hirqPend (v / 64))) (v % 64) b)

/-- Sends the message of a vector, or withholds it while the vector is masked. -/
def State.sendIrq (s : State) (v : Nat) : State :=
  let ctl := s.reg (R.hirqVecCtl v)
  let s := s.setVec v { count := 0, first := 0 }
  if bit ctl 63 then
    if s.irqPend v then s else (s.setIrqPend v true).count R.hirqStats 32 32
  else
    (s.count R.hirqStats 0 32).hostReq 0x08 (s.reg (R.hirqVecAddr v)).toNat (.irq v) (natToBytes 4 (fld ctl 0 32))

/-- Is a limit of a vector met: its count, or its timer since the first counted entry? -/
def State.vecDue (s : State) (v : Nat) : Bool :=
  let ctl := s.reg (R.hirqVecCtl v)
  let x := s.vec v
  decide (0 < x.count) && (decide (max 1 (fld ctl 40 8) ≤ x.count) ||
    (decide (0 < fld ctl 48 12) && decide (x.first + 1000 * fld ctl 48 12 ≤ s.now)))

/-- An entry of a vector's rings has been written (R336, R354). -/
def State.vecEntry (s : State) (v : Nat) : State :=
  let x := s.vec v
  let s := s.setVec v { count := x.count + 1, first := if x.count = 0 then s.now else x.first }
  if max 1 (s.rfld (R.hirqVecCtl v) 40 8) ≤ x.count + 1 then s.sendIrq v else s

def execVectorTimerExpire (vec : Fin 256) (s : State) : Host.Outcome State Fault Refusal :=
  .next (if s.vecDue vec.val then s.sendIrq vec.val else s)

/-- A write of HIRQ_VEC_CTL takes effect at once (R354, R355). -/
def State.writeVecCtl (s : State) (v : Nat) (val : Word) : State :=
  let (val, s) := s.reservedOk (mask 63 1 ||| mask 48 12 ||| mask 40 8 ||| mask 0 32) val
  let s := s.setReg (R.hirqVecCtl v) val
  if s.irqPend v && !bit val 63 then (s.setIrqPend v false).sendIrq v
  else if s.vecDue v then s.sendIrq v else s

def execHirqVecCtlWrite (vec : Fin 256) (val : Word) (s : State) : Host.Outcome State Fault Refusal :=
  .next (s.writeVecCtl vec.val val)

/-! Completion entries (R336, R341, R348). -/

/-- The phase of an entry (R348). -/
def phaseOf (tail size : Nat) : Bool := decide (tail / size % 2 = 0)

/-- Are writes of a command's data outstanding? -/
def State.dataOut (s : State) (ring index : Nat) : Bool :=
  s.host.reqs.any (fun (_, r) => match r with | some r => decide (r.use = .data ring index) | none => false)
    || s.host.waiting.any fun w => decide (w.2.2.1 = .data ring index)

/-- The bytes of a completion entry. -/
def Compl.bytes (c : Compl) (phase : Bool) : List Byte :=
  natToBytes 8 (phase.toNat * 2 ^ 63 + c.status % 256 * 2 ^ 48 + c.ring % 256 * 2 ^ 40 + c.job % 64 * 2 ^ 32 + c.index % 2 ^ 32) ++
    wordBytes c.cookie ++ wordBytes c.result ++ natToBytes 8 c.time

/-- Writes or drops one completion: its reserved slot is used or released. -/
def State.writeCompl (s : State) (c : Compl) : State :=
  let s := { s with host := { s.host with compls := s.host.compls.erase c } }
  let q := s.cqOf c.ring
  if c.nocqe ∧ c.status = 0 then s.release q
  else
    let size := ringSize (s.reg (R.hifCqCfg q))
    let tail := s.rfld (R.hifCqStatus q) 0 32
    let s := (s.release q).setRfld (R.hifCqStatus q) 0 32 (tail + 1)
    s.hostWrite (.compl q) (fld (s.reg (R.hifCqBase q)) 12 40 * 2 ^ 12 + 32 * (tail % size)) (c.bytes (phaseOf tail size))

/-- The oldest completion whose command's host writes have all ended is written. -/
def execCompletionEntryWrite (s : State) : Host.Outcome State Fault Refusal :=
  .next (
    let s := s.reap
    match s.host.compls.find? fun c => !s.dataOut c.ring c.index && (bit (s.reg (R.hifCqCfg (s.cqOf c.ring))) 63 || (c.nocqe && decide (c.status = 0))) with
    | some c => (s.writeCompl c).pump c.ring
    | none => s)

/-! Event entries (R350 to R352). -/

/-- The event ring of a code (R352). -/
def State.eventRing (s : State) (code : Nat) : Nat :=
  let k := code / 256
  if k < 16 then s.rfld R.hifEvtRoute0 (4 * k) 3 else s.rfld R.hifEvtRoute1 (4 * ((k - 16) % 16)) 3

/-- Continuation entries of a detail. -/
def contCount (d : List Byte) : Nat := if d.length ≤ 16 then 0 else (d.length - 16 + 23) / 24

/-- Fills a byte list with zeros to a length. -/
def fillTo (n : Nat) (l : List Byte) : List Byte := l ++ List.replicate (n - l.length) 0#8

/-- The oldest event is written to its ring, or dropped and counted. The bits of a continuation entry's
W0 other than phase and code are free values. -/
def execEventEntryWrite (s : State) : Host.Outcome State Fault Refusal :=
  .next (if !s.sends then s else match s.host.events with
    | [] => s
    | ev :: rest =>
      let seq := (s.host.evSeq + 1) % 2 ^ 32
      let s := { s with host := { s.host with events := rest, evSeq := seq } }
      let r := s.eventRing ev.code
      let cfg := s.reg (R.hifEqCfg r)
      let size := ringSize cfg
      let tail := s.rfld (R.hifEqStatus r) 0 32
      let cont := contCount ev.detail
      let lost := SMap.get (fun _ => 0) s.host.eqLost r
      if !bit cfg 63 ∨ size < idxAhead tail (s.dblWord cfg) + 1 + cont then
        ({ s with host := { s.host with eqLost := SMap.set (fun _ => 0) s.host.eqLost r (min 8191 (lost + 1)) } } : State).count (R.hifEqStatus r) 32 32
      else
        let base := fld (s.reg (R.hifEqBase r)) 12 40 * 2 ^ 12
        let w0 := fun t => (phaseOf t size).toNat * 2 ^ 63 + cont * 2 ^ 61 + lost * 2 ^ 48 + ev.code * 2 ^ 32 + seq
        let first := natToBytes 8 (w0 tail) ++ natToBytes 8 ev.time ++ fillTo 16 (ev.detail.take 16)
        let s := s.hostWrite (.event r) (base + 32 * (tail % size)) first
        let s := (rangeFrom 0 cont).foldl (fun s i =>
          let t := tail + 1 + i
          let w := setBit (setFld (s.freeWord 0) 32 16 0xFFFF) 63 (phaseOf t size)
          (s.drew 1).hostWrite (.event r) (base + 32 * (t % size)) (wordBytes w ++ fillTo 24 ((ev.detail.drop (16 + 24 * i)).take 24))) s
        let s := s.setRfld (R.hifEqStatus r) 0 32 (tail + 1 + cont)
        ({ s with host := { s.host with eqLost := SMap.set (fun _ => 0) s.host.eqLost r 0 } } : State).setRfld R.hifEvtSeq 0 32 seq)

/-! Ring configuration and fetching (R339 to R342). -/

/-- Ends the entries fetched and not started with FLUSHED (R342). -/
def State.flushRing (s : State) (n : Nat) : State :=
  let q := s.sq n
  let s := s.setSq n { q with fetched := [] }
  q.fetched.foldl (fun s e => s.endEntry e 0x0A 0) s

/-- A write of HIF_SQ_CFG (R339, R342): with en = 1 only the clearing of en has an effect. -/
def State.writeSqCfg (s : State) (n : Nat) (val : Word) : State :=
  let (val, s) := s.reservedOk (mask 62 2 ||| mask 48 5 ||| mask 40 8 ||| mask 32 6 ||| mask 16 8 ||| mask 0 4) val
  let old := s.reg (R.hifSqCfg n)
  if bit old 63 then
    if bit val 63 then s
    else (((s.setReg (R.hifSqCfg n) (setBit old 63 false)).flushRing n).setRfld (R.hifSqStatus n) 56 2 3).settleRing n
  else
    let s := s.setReg (R.hifSqCfg n) val
    if bit val 63 then (s.setRfld (R.hifSqStatus n) 56 2 1).setRfld (R.hifSqStatus n) 52 2 0 else s

def execHifSqCfgWrite (sq : Fin 256) (val : Word) (s : State) : Host.Outcome State Fault Refusal :=
  .next (s.writeSqCfg sq.val val)

/-- Has a ring an entry to fetch, with a completion slot to reserve? Until the device runs only rings with mgmt = 1 are
fetched from (R452). -/
def State.canFetch (s : State) (n : Nat) : Bool :=
  (decide (s.rfld R.rstStatus 0 2 = 1) || bit (s.reg (R.hifSqCfg n)) 62) &&
  decide (s.sqState n = 1) && !(s.sq n).fetching && decide (s.sqTail n ≠ s.sqHead n) && s.cqRoom (s.cqOf n)

/-- Fetches the next submission entry of the next ring in turn (R340, R341). -/
def execSqFetch (s : State) : Host.Outcome State Fault Refusal :=
  .next (
    let s := (rangeFrom 0 256).foldl (fun s n => s.checkTail n) s
    match ((rangeFrom s.host.turn 256).map (· % 256)).find? s.canFetch with
    | none => s
    | some n =>
      let head := s.sqHead n
      let s := (s.reserve (s.cqOf n)).setSq n { s.sq n with fetching := true }
      let s := { s with host := { s.host with turn := (n + 1) % 256 } }
      let size := ringSize (s.reg (R.hifSqCfg n))
      s.hostReq 0x02 (fld (s.reg (R.hifSqBase n)) 12 40 * 2 ^ 12 + 64 * (head % size)) (.sqEntry n head) [])

/-- A submission entry arrives, or its read fails (R340, R342). With poisoned data the ring acts as on an
error status: no byte of the entry can be used. -/
def State.sqArrive (s : State) (n idx st : Nat) (data : List Byte) : State :=
  let s := s.setSq n { s.sq n with fetching := false }
  if st ≠ 0 then
    let s := s.release (s.cqOf n)
    if s.sqState n = 1 then s.sqError n 1 else s
  else
    let e : SqEntry := { ring := n, index := idx, words := (rangeFrom 0 8).map fun i => bytesWord ((data.drop (8 * i)).take 8) }
    let s := s.setRfld (R.hifSqStatus n) 0 32 (idx + 1)
    if s.sqState n = 0 ∨ s.sqState n = 3 then s.endEntry e 0x0A 0
    else (s.setSq n { s.sq n with fetched := (s.sq n).fetched ++ [e] }).pump n

end Sys2Proof.Machine
end

