-- ==== Sys2Proof/Machine/Bolmin.lean ====
section
/-!
DEFINITION. The Bolmin link and its streams (11_bolmin_stream.md): messages wait in a queue and leave in frames, which
the tick codes for the lanes.
-/

namespace Sys2Proof.Machine

/-! The link (R366 to R372). -/

/-- BOL_LINK_STATUS.state: 0 disabled, 1 train, 2 active, 3 replay, 4 retrain, 5 incompatible, 6 down. -/
def State.bolState (s : State) : Nat := s.rfld R.bolLinkStatus 0 3

/-- The capability block that this device sends: version 1, 256 streams, the slots of its receive buffer and its
identifier (R371, R372). -/
def bolCapability : List Byte :=
  [1#8, 255#8] ++ natToBytes 3 16384 ++ List.replicate 3 0#8 ++ natToBytes 6 Config.bolIdent.toNat

/-- Changes the state of the link, which both stags are told (R424, source 61). A link that trains sends its
capability block (R372). -/
def State.setBolState (s : State) (v : Nat) : State :=
  if s.bolState = v then s
  else
    let s := (s.setRfld R.bolLinkStatus 0 3 v).stagEdge 61
    if v = 1 then s.emit (.bolTrain bolCapability) else s

/-- Does the link carry messages? In RETRAIN messages wait, and so do the frames not acknowledged. -/
def State.bolUp (s : State) : Bool := let st := s.bolState; decide (2 ≤ st) && decide (st ≤ 4)

/-- The 40 slots of a frame (R368), from its flags, headers or capability block, seq, ack, credits and data. -/
def bolBytes (flags : Nat) (hdrs : List Byte) (lcr seq ack : Nat) (d : List Byte) : List Byte :=
  let head := fillTo 48 hdrs ++ natToBytes 3 lcr ++ [BitVec.ofNat 8 flags] ++ natToBytes 2 seq ++ natToBytes 2 ack ++ List.replicate 4 0#8
  let d := fillTo 2496 d
  head ++ natToBytes 4 (crc32 (head ++ d)) ++ d

/-- The bytes of what is sent on this link. -/
def outBol : Out → Option (List Byte)
  | .bolFrame q nak ack f =>
    some (bolBytes (nak.toNat + (if q.isNone then 2 else 0)) (f.hdrs.flatMap (natToBytes 12)) f.lcr (q.getD 0) ack f.data)
  | .bolTrain block => some (bolBytes 4 block 0 0 0 [])
  | _ => none

/-- The last frame received in order, which every frame carries back (R368). -/
def BolState.ack (b : BolState) : Nat := (b.rxSeq + 4095) % 4096

/-- Sends a fill frame (R370). -/
def State.bolFill (s : State) (nak : Bool) : State :=
  ({ s with bol := { s.bol with fills := 0 } } : State).emit (.bolFrame none nak s.bol.ack ⟨[], 0, []⟩)

/-- Sends a sequenced frame; a fill frame goes at least once in every 4,096 frames (R370). -/
def State.bolPut (s : State) (f : BolSent) : State :=
  let s := if 4095 ≤ s.bol.fills then s.bolFill false else s
  ({ s with bol := { s.bol with fills := s.bol.fills + 1 } } : State).emit (.bolFrame (some f.seq) false s.bol.ack f.frame)

/-- Data slots of a message, and its stream. -/
def BolMsg.slots (m : BolMsg) : Nat := m.data.length / 64
def BolMsg.stream (m : BolMsg) : Nat := m.hdr / 2 ^ 82 % 256

/-- The first message that may start, and the queue without it: one for all of whose slots the link credits
suffice, and behind no other of its stream (R371, R374). -/
def pickMsg (lcr : Nat) : List Nat → List BolMsg → Option (BolMsg × List BolMsg)
  | _, [] => none
  | held, m :: t =>
    if m.slots ≤ lcr ∧ !held.contains m.stream then some (m, t)
    else (pickMsg lcr (m.stream :: held) t).map fun (x, r) => (x, m :: r)

/-- Fills a frame: the data of the message that was started, then up to `n` messages more (R367, R373, R374). -/
def BolState.fillFrame : Nat → BolState → BolSent → BolState × BolSent
  | n, b, f =>
    let k := 2496 - f.frame.data.length
    let f := { f with
      frame := { f.frame with data := f.frame.data ++ b.cur.take k },
      note := f.note ++ (if b.cur.length ≤ k then b.curNote else []) }
    let b := { b with cur := b.cur.drop k, curNote := if b.cur.length ≤ k then [] else b.curNote }
    match n with
    | 0 => (b, f)
    | n + 1 =>
      if !b.cur.isEmpty then (b, f)
      else match pickMsg b.lcr [] b.queue with
        | none => (b, f)
        | some (m, rest) =>
          BolState.fillFrame n { b with queue := rest, lcr := b.lcr - m.slots, cur := m.data, curNote := m.note }
            { f with frame := { f.frame with hdrs := f.frame.hdrs ++ [m.hdr] } }

/-- Is there anything to send? -/
def BolState.work (b : BolState) : Bool :=
  !b.cur.isEmpty || decide (0 < b.owed) || (pickMsg b.lcr [] b.queue).isSome

/-- Sends frames while there is anything to send and fewer than 256 are kept (R369), in state active or replay. -/
def State.bolPumpN : Nat → State → State
  | 0, s => s
  | n + 1, s =>
    let b := s.bol
    if (s.bolState = 2 ∨ s.bolState = 3) ∧ b.frames.length < 256 ∧ b.work then
      let (b, f) := ({ b with txSeq := (b.txSeq + 1) % 4096, owed := 0 } : BolState).fillFrame 4
        { seq := b.txSeq, sent := s.now, frame := ⟨[], b.owed % 2 ^ 24, []⟩, note := [] }
      State.bolPumpN n (({ s with bol := { b with frames := b.frames ++ [f] } } : State).bolPut f)
    else s

def State.bolPump (s : State) : State := s.bolPumpN 256

/-- A message header (R373): type, stream, the flags sor, eor, rst and err as [3:0], data bytes, tag and credit. -/
def bolHdr (type stream flags len utag credit : Nat) : Nat :=
  type * 2 ^ 90 + stream * 2 ^ 82 + flags * 2 ^ 78 + (len - 1) * 2 ^ 64 + utag * 2 ^ 40 + credit

/-- Messages join the queue, and leave as far as the link takes them. -/
def State.bolSend (s : State) (ms : List BolMsg) : State :=
  ({ s with bol := { s.bol with queue := s.bol.queue ++ ms } } : State).bolPump

/-- Width from the good lanes (R369): 0 full on 32, 1 half on 16; with fewer the link cannot run. -/
def bolWidth (lanes : Nat) : Option Nat := if 32 ≤ lanes then some 0 else if 16 ≤ lanes then some 1 else none

/-! Streams: placing and reading (R376 to R378). -/

/-- Bytes of a stream's ring, and its state: 0 disabled, 1 open, 2 closing, 3 error. -/
def State.streamSize (s : State) (n : Nat) : Nat := 2 ^ s.rfld (R.bolStreamCfg n) 48 6
def State.streamState (s : State) (n : Nat) : Nat := s.rfld (R.bolStreamStatus n) 62 2
def State.setStreamState (s : State) (n v : Nat) : State := s.setRfld (R.bolStreamStatus n) 62 2 v
def State.isEgress (s : State) (n : Nat) : Bool := bit (s.reg (R.bolStreamCfg n)) 62

/-- Bytes rounded up to whole 64 B slots. -/
def pad64 (n : Nat) : Nat := (n + 63) / 64 * 64

/-- Sends SCLOSE, and the credit of the stream is gone (R374). -/
def State.sendClose (s : State) (n : Nat) : State :=
  let s := s.setStream n { s.stream n with credit := 0, unclosed := s.bolUp }
  if s.bolUp then s.bolSend [{ hdr := bolHdr 3 n 0 0 0 0, data := [], note := [.close n] }] else s

/-- Counts and reports a stream error (R381). -/
def State.streamErr (s : State) (n cause : Nat) : State :=
  (s.count R.bolStreamErr 0 32).event 0x0B03 (b1 n ++ b1 cause)

/-- A ring or control block failed: the stream goes to state error and nothing more is placed (R381). -/
def State.streamFail (s : State) (n cause : Nat) : State :=
  if s.streamState n = 3 ∨ s.streamState n = 0 then s
  else
    let s := (s.streamErr n cause).setRfld (R.bolStreamStatus n) 58 4 cause
    ((s.setStreamState n 3).setStream n { s.stream n with part := none, ready := [] }).sendClose n

/-- Writes bytes for a stream, in one target: host memory, or device memory by lines. -/
def State.streamPut (s : State) (n : Nat) (host : Bool) (a : Nat) (d : List Byte) : State :=
  if host then s.hostWrite (.stream n) a d
  else
    (lineCuts (d.length / 64 + 2) a 0 d.length).foldl (fun s (b, o, k) =>
      if !s.inRange b k || s.stackOut b then s.streamFail n 5
      else if s.channelHeld b then s.holdMem (.stream n b ((d.drop o).take k))
      else
        let (s, ok) := s.memWrite b ((d.drop o).take k) [.ok]
        if ok then s else s.streamFail n 5) s

/-- Writes bytes to a stream's ring from a count on, wrapping at the end of the ring. -/
def State.ringPut (s : State) (n c : Nat) (d : List Byte) : State :=
  let base := s.reg (R.bolStreamBase n)
  let size := s.streamSize n
  let addr := fld base 12 40 * 2 ^ 12
  let first := min d.length (size - c % size)
  let s := s.streamPut n (bit base 63) (addr + c % size) (d.take first)
  if first < d.length then s.streamPut n (bit base 63) addr (d.drop first) else s

/-- Writes a word of a stream's control block. -/
def State.ctrlPut (s : State) (n i v : Nat) : State :=
  let c := s.reg (R.bolStreamCtrl n)
  s.streamPut n (bit c 63) (fld c 6 46 * 64 + 8 * i) (natToBytes 8 v)

/-- Reads a word of a control block: from device memory with what SECDED says, or the operand that host
memory answered with its status. `none` is a read that failed. -/
def State.ctrlGet (s : State) (n i : Nat) (st : Nat) (host : Word) (ecc : LineRead) : State × Option Nat :=
  let c := s.reg (R.bolStreamCtrl n)
  let a := fld c 6 46 * 64 + 8 * i
  if bit c 63 then (s, if st = 0 then some host.toNat else none)
  else if !s.inRange a 8 || s.stackOut a then (s, none)
  else
    let (s, good) := s.readLine (a / 64) ecc
    (s, if good then some (Mem.nat s.mem.bytes a 8) else none)

/-- Grants the free space of an ingress ring that is not granted yet (R378, R380). -/
def State.grantStream (s : State) (n : Nat) : State :=
  let x := s.stream n
  if s.bolUp && decide (s.streamState n = 1) && !s.isEgress n then
    let used := x.fill - x.head + (match x.part with | some (g, _) => 64 + pad64 g | none => 0)
    let units := (s.streamSize n - used - 64 * x.credit) / 64
    if units = 0 then s else ((s.setStream n { x with credit := x.credit + units }).bolSend [{ hdr := bolHdr 2 n 0 0 0 units, data := [], note := [] }])
  else s

/-- Is the control block of a stream in a channel that is held (R232)? -/
def State.ctrlHeld (s : State) (n : Nat) : Bool :=
  let c := s.reg (R.bolStreamCtrl n)
  !bit c 63 && s.channelHeld (fld c 6 46 * 64)

/-- Is a write of a stream to host memory outstanding, or held by a memory stop? -/
def State.streamBusy (s : State) (n : Nat) : Bool :=
  (s.mem.held.any fun r => match r with | .stream m _ _ => decide (m = n) | _ => false) ||
  s.host.reqs.any (fun (_, r) => match r with | some r => decide (r.use = .stream n) | none => false)
    || s.host.waiting.any fun w => decide (w.2.2.1 = .stream n)

/-- Closes a partial ingress record with err = 1 (R380 to R382). -/
def State.closePart (s : State) (n : Nat) : State :=
  let x := s.stream n
  match x.part with
  | none => s
  | some (g, utag) => s.setStream n { x with
      part := none, fill := x.fill + 64 + pad64 g,
      ready := x.ready ++ [{ start := x.fill, utag := utag, err := true, len := g, stage := 0 }] }

/-- Bytes of a header slot (R377). -/
def InRec.header (r : InRec) : List Byte := natToBytes 8 (r.utag % 2 ^ 24 * 2 ^ 40 + r.err.toNat * 2 ^ 32 + r.len % 2 ^ 24) ++ List.replicate 56 0#8

/-- Tells of a completed record as notify selects (R378, R382). -/
def State.notifyStream (s : State) (n : Nat) : State :=
  let cfg := s.reg (R.bolStreamCfg n)
  match fld cfg 38 2 with
  | 1 => let x := s.stream n; if x.noteOut then s.setStream n { x with noteDue := true } else s.sendNote n
  | 2 => s.vecEntry (fld cfg 24 8)
  | _ => s

/-- Moves the oldest whole record on (R378): its header slot once its data are acknowledged, then W0, then W2, each once
the write before it is. A closing stream with nothing left is disabled. -/
def State.commitStep (s : State) (n : Nat) : State :=
  let x := s.stream n
  if s.streamBusy n || s.ctrlHeld n then s
  else match x.ready with
    | [] => if s.streamState n = 2 then s.setStreamState n 0 else s
    | r :: t =>
      let s := s.setStream n { x with ready := { r with stage := r.stage + 1 } :: t }
      let tail := r.start + 64 + pad64 r.len
      match r.stage with
      | 0 => s.ringPut n r.start r.header
      | 1 => (s.setStream n { s.stream n with tail := tail }).ctrlPut n 0 tail
      | _ => ((s.setStream n { x with ready := t, done := x.done + 1 }).ctrlPut n 2 (x.done + 1)).notifyStream n

def execIngressRecordCommit (stream : Fin 256) (s : State) : Host.Outcome State Fault Refusal :=
  .next ((rangeFrom 0 4).foldl (fun s _ => s.commitStep stream.val) s)

/-! The link's rows. -/

/-- The link goes down (R369, R372, R382): partial ingress records close, egress streams restart their
first record that is not wholly acknowledged, credits are gone. -/
def State.bolDown (s : State) (state cause : Nat) : State :=
  let up := s.bolUp
  let s := (s.setBolState state).setRfld R.bolLinkStatus 4 2 2
  let s := { s with bol := s.bol.fresh }
  if !up then s
  else
    let s := s.event 0x0B02 (b1 cause)
    s.bol.streams.foldl (fun s (n, _) =>
      let s := if s.isEgress n then s else s.closePart n
      let x := s.stream n
      s.setStream n { x with credit := 0, unclosed := false,
                             fill := if s.isEgress n then x.head else x.fill,
                             again := x.again || (s.isEgress n && decide (x.fill ≠ x.head)) }) s

/-- A write of BOL_CTL (R372). -/
def State.writeBolCtl (s : State) (val : Word) : State :=
  let (val, s) := s.reservedOk (mask 0 1) val
  let old := bit (s.reg R.bolCtl) 0
  let s := s.setReg R.bolCtl val
  if bit val 0 && !old then
    if bit (s.reg R.bolLinkStatus) 8 then s.setBolState 1 else s.setBolState 6
  else if !bit val 0 && old then s.bolDown 0 3 else s

def execBolCtlWrite (val : Word) (s : State) : Host.Outcome State Fault Refusal := .next (s.writeBolCtl val)

/-- BCLK is lost (R372). -/
def execBclkLoss (s : State) : Host.Outcome State Fault Refusal :=
  .next (
    let s := s.setRfld R.bolLinkStatus 8 1 0
    if s.bolState = 0 then s else s.bolDown 6 1)

/-- BCLK has been within tolerance since a SYSTIME (R372). -/
def execBclkGood (since : Nat) (s : State) : Host.Outcome State Fault Refusal :=
  .next (if s.now < since + 1000000 ∨ bit (s.reg R.bolLinkStatus) 8 then s
    else
      let s := s.setRfld R.bolLinkStatus 8 1 1
      if bit (s.reg R.bolCtl) 0 then s.setBolState 1 else s)

/-- A train frame with the peer's capability block (R372 steps 3 to 5): version, streams minus 1, link
credits and identifier; and the lanes found good. -/
def execBolTrainFrame (crcOk : Bool) (version : BitVec 8) (_streams : BitVec 8) (credits : BitVec 24) (id : BitVec 48)
    (lanes : Nat) (s : State) : Host.Outcome State Fault Refusal :=
  .next (if s.bolState ≠ 1 then s
    else if !crcOk then s.count R.bolLinkErr 32 16
    else
      let s := s.setReg R.bolPeer (BitVec.ofNat 64 (2 ^ 63 + version.toNat * 2 ^ 48 + id.toNat))
      if version ≠ 1 then (s.setBolState 5).event 0x0B04 (b1 version.toNat)
      else match bolWidth lanes with
        | none => s.bolDown 6 0
        | some w =>
          let s := (s.setBolState 2).setRfld R.bolLinkStatus 4 2 w
          let s := { s with bol := { s.bol.fresh with lcr := credits.toNat } }
          let s := s.event 0x0B01 (b1 w)
          (rangeFrom 0 256).foldl (fun s n => s.grantStream n) s)

/-- What an acknowledged frame ended: a record is complete and its pointers advance (R379), or a SCLOSE has arrived. -/
def State.bolNote (s : State) : BolNote → State
  | .close n => s.setStream n { s.stream n with unclosed := false }
  | .record n c =>
    let x := s.stream n
    let s := s.setStream n { x with head := c, done := x.done + 1 }
    (s.ctrlPut n 1 c).ctrlPut n 2 (x.done + 1)

/-- Sends the frames that are not acknowledged again, in order (R369). -/
def State.bolResend (s : State) : State :=
  let s : State := { s with bol := { s.bol with frames := s.bol.frames.map fun f => { f with sent := s.now } } }
  s.bol.frames.foldl State.bolPut s

/-- Replays the frames from the oldest on that is not acknowledged. -/
def State.bolReplay (s : State) : State :=
  if s.bol.frames.isEmpty then s
  else
    let s := (s.count R.bolLinkErr 16 16).ledger 25
    let b := s.bol
    let s : State := { s with bol := { b with
      replayAt := some (b.replayAt.getD s.now),
      replayTo := if b.replayAt.isSome then b.replayTo else b.txSeq } }
    (s.setBolState 3).bolResend

/-- Takes the acknowledgement of a frame (R369). -/
def State.bolTakeAck (s : State) (ack : Nat) : State :=
  let b := s.bol
  if !b.frames.any fun f => decide (f.seq = ack % 4096) then s
  else
    let k := (b.frames.takeWhile fun f => decide (f.seq ≠ ack % 4096)).length + 1
    let gone := b.frames.take k
    let rest := b.frames.drop k
    let s : State := { s with bol := { b with frames := rest, replayAt := b.replayAt.map fun _ => s.now } }
    let s : State := if decide (s.bolState = 3) && (rest.isEmpty || gone.any fun f => decide (f.seq = (b.replayTo + 4095) % 4096)) then
        ({ s with bol := { s.bol with replayAt := none } } : State).setBolState 2 else s
    (gone.flatMap (·.note)).foldl State.bolNote s

/-- A frame's control slot (R368 to R371), and how many of its four codewords could not be corrected: any that could
not is counted, and the frame is not accepted (R385). A fill frame is not sequenced. A frame that is accepted is
acknowledged by the next frame sent, a fill frame where nothing else waits (log entry 86). -/
def execBolFrame (seq : BitVec 12) (check : BolCheck) (fill nak : Bool) (ack : BitVec 12) (lcr : BitVec 24) (s : State) :
    Host.Outcome State Fault Refusal :=
  .next (if s.bolState ≠ 2 ∧ s.bolState ≠ 3 then s
    else
      let naks := fun (s : State) => if s.bol.nakSent then s
        else ({ s with bol := { s.bol with nakSent := true } } : State).bolFill true
      let s := if check.fec = 0 then s else s.countBy R.bolLinkErr 48 16 check.fec
      if !check.crcOk ∨ 0 < check.fec then naks (if check.crcOk then s else s.count R.bolLinkErr 32 16)
      else
        let take := fun (s : State) =>
          let s := s.bolTakeAck ack.toNat
          (if nak then s.bolReplay else s).bolPump
        if fill then take s
        else if seq.toNat ≠ s.bol.rxSeq then
          (if (seq.toNat + 4096 - s.bol.rxSeq) % 4096 < 2048 then naks s else s.bolFill false)
        else
          let t := take { s with bol := { s.bol with rxSeq := (seq.toNat + 1) % 4096, nakSent := false, lcr := s.bol.lcr + lcr.toNat } }
          if t.bol.fills = s.bol.fills then t.bolFill false else t)

/-- The oldest frame has gone 2 µs without acknowledgement (R369). -/
def execBolReplayTimeout (s : State) : Host.Outcome State Fault Refusal :=
  .next (match s.bol.frames with
    | [] => s
    | f :: _ =>
      if (s.bolState ≠ 2 ∧ s.bolState ≠ 3) ∨ s.now < f.sent + 2000 then s
      else match s.bol.replayAt with
        | some a =>
          if a + 20000 ≤ s.now then
            let s := ((s.count R.bolLinkErr 0 16).ledger 26).setBolState 4
            { s with bol := { s.bol with replayAt := none, retrainAt := some s.now } }
          else s.bolReplay
        | none => s.bolReplay)

/-- Retraining ends with a number of good lanes (R369). -/
def execBolRetrainDone (lanes : Nat) (s : State) : Host.Outcome State Fault Refusal :=
  .next (if s.bolState ≠ 4 then s
    else match bolWidth lanes, s.bol.retrainAt with
      | some w, some t =>
        if t + 1500000 < s.now then s.bolDown 6 0
        else
          let s := (s.setBolState 2).setRfld R.bolLinkStatus 4 2 w
          ({ s with bol := { s.bol with retrainAt := none } } : State).bolResend.bolPump
      | _, _ => s.bolDown 6 0)

/-- BOL_CMD 1: a running link retrains; an incompatible or down one trains again (R372, R385). -/
def State.bolCommand (s : State) (val : Word) : State :=
  if fld val 0 2 ≠ 1 then s
  else
    let st := s.bolState
    if st = 2 ∨ st = 3 then
      let s := ((s.count R.bolLinkErr 0 16).ledger 26).setBolState 4
      { s with bol := { s.bol with replayAt := none, retrainAt := some s.now } }
    else if (st = 5 ∨ st = 6) ∧ bit (s.reg R.bolLinkStatus) 8 ∧ bit (s.reg R.bolCtl) 0 then s.setBolState 1
    else s

def execBolCmdRetrain (s : State) : Host.Outcome State Fault Refusal := .next (s.bolCommand 1)

def execBolLossOfSignal (s : State) : Host.Outcome State Fault Refusal :=
  .next (let st := s.bolState; if 1 ≤ st ∧ st ≤ 5 then s.bolDown 6 2 else s)

/-! Ingress (R373 to R381). -/

/-- The condition of R381 that a message of an open stream meets, if one does. -/
def State.sdataCause (s : State) (n : Nat) (sor : Bool) (len : Nat) : Option Nat :=
  let x := s.stream n
  let units := (len + 63) / 64 + sor.toNat
  let got := match x.part with | some (g, _) => g | none => 0
  if x.part.isSome = sor then some 4
  else if x.credit < units then some 2
  else if 16777215 < got + len ∨ s.streamSize n - 64 < 64 + pad64 (got + len) then some 3
  else none

/-- A message's data (R378, R380, R381). -/
def State.takeSdata (s : State) (n : Nat) (sor eor rst err : Bool) (utag : Nat) (d : List Byte) : State :=
  let x := s.stream n
  if s.isEgress n ∨ s.streamState n ≠ 1 then
    if x.opened ∧ x.unclosed then s.count R.bolStreamErr 32 16 else s.streamErr n 1
  else
    let s := if rst then s.setStream n { x with part := none } else s
    match s.sdataCause n sor d.length with
    | some c => (s.streamErr n c).closePart n
    | none =>
      let x := s.stream n
      let (got, tag) := match x.part with | some p => p | none => (0, utag)
      let x := { x with credit := x.credit - ((d.length + 63) / 64 + sor.toNat), part := some (got + d.length, tag) }
      let s := s.setStream n x
      let s := s.ringPut n (x.fill + 64 + got) (fillTo (pad64 (got + d.length) - got) d)
      if eor ∧ s.streamState n = 1 then
        s.setStream n { s.stream n with
          part := none, fill := x.fill + 64 + pad64 (got + d.length),
          ready := x.ready ++ [{ start := x.fill, utag := tag, err := err, len := got + d.length, stage := 0 }] }
      else s

/-- SDATA; its link credits go back whether or not it was discarded (R371). -/
def execSdata (stream : Fin 256) (sor eor rst err : Bool) (utag : BitVec 24) (d : List Byte) (s : State) : Host.Outcome State Fault Refusal :=
  .next (if !s.bolUp then s
    else
      let s := s.takeSdata stream.val sor eor rst err utag.toNat d
      ({ s with bol := { s.bol with owed := s.bol.owed + (d.length + 63) / 64 } } : State).bolPump)

def execScredit (stream : Fin 256) (credit : BitVec 32) (s : State) : Host.Outcome State Fault Refusal :=
  .next (
    let n := stream.val
    if s.bolUp && s.isEgress n && decide (s.streamState n = 1) then
      s.setStream n { s.stream n with credit := (s.stream n).credit + credit.toNat }
    else s)

def execSclose (stream : Fin 256) (s : State) : Host.Outcome State Fault Refusal :=
  .next (let n := stream.val
    if s.bolUp && s.isEgress n then s.setStream n { s.stream n with credit := 0 } else s)

/-- Is a poll of a stream due (R378, R379)? -/
def State.pollDue (s : State) (n : Nat) : Bool :=
  decide ((s.stream n).polled + 100 * s.rfld (R.bolStreamCfg n) 40 8 ≤ s.now)

/-- Rereads W1 while less than half the ring is granted, and grants what was freed (R378). A read that
fails grants nothing, and the next poll reads again. A head beyond the tail is a free value (R383). -/
def execIngressPoll (stream : Fin 256) (st : Nat) (w1 : Word) (ecc : LineRead) (s : State) : Host.Outcome State Fault Refusal :=
  .next (
    let n := stream.val
    if s.streamState n ≠ 1 ∨ s.isEgress n ∨ !s.pollDue n ∨ s.ctrlHeld n ∨ s.streamSize n ≤ 128 * (s.stream n).credit then s
    else
      let s := s.setStream n { s.stream n with polled := s.now }
      match s.ctrlGet n 1 st w1 ecc with
      | (s, some h) =>
        let (s, h) := if (s.stream n).tail < h then (s.drew 1, (s.freeWord 0).toNat) else (s, h)
        (s.setStream n { s.stream n with head := h }).grantStream n
      | (s, none) => s)

/-! Egress (R379). -/

/-- Rereads W0 while every record known has been sent. A tail beyond the ring's size is a free value (R383). -/
def execEgressPoll (stream : Fin 256) (st : Nat) (w0 : Word) (ecc : LineRead) (s : State) : Host.Outcome State Fault Refusal :=
  .next (
    let n := stream.val
    let x := s.stream n
    if s.streamState n ≠ 1 ∨ !s.isEgress n ∨ !s.pollDue n ∨ s.ctrlHeld n ∨ x.fill ≠ x.tail then s
    else
      let s := s.setStream n { x with polled := s.now }
      match s.ctrlGet n 0 st w0 ecc with
      | (s, some t) =>
        let (s, t) := if (s.stream n).head + s.streamSize n < t ∨ t < (s.stream n).tail then (s.drew 1, (s.freeWord 0).toNat) else (s, t)
        s.setStream n { s.stream n with tail := t }
      | (s, none) => s.streamFail n 6)

/-- Is one of the first lines of a stream's ring from a count on held (R232)? -/
def State.ringHeld (s : State) (n c lines : Nat) : Bool :=
  let base := s.reg (R.bolStreamBase n)
  !bit base 63 && (rangeFrom 0 lines).any fun i => s.channelHeld (fld base 12 40 * 2 ^ 12 + (c + 64 * i) % s.streamSize n)

/-- One 64 B line of a stream's ring from a count on: zeros and a failure where the read fails. -/
def State.streamLine (s : State) (n c i : Nat) (host : List Byte) (bad : List Nat) (ecc : List LineRead) : State × List Byte × Bool :=
  let base := s.reg (R.bolStreamBase n)
  let a := fld base 12 40 * 2 ^ 12 + (c + 64 * i) % s.streamSize n
  if bit base 63 then
    if bad.contains i then (s, List.replicate 64 0#8, false) else (s, fillTo 64 ((host.drop (64 * i)).take 64), true)
  else if !s.inRange a 64 || s.stackOut a then (s, List.replicate 64 0#8, false)
  else
    let (s, good) := s.readLine (a / 64) (nth .ok ecc i)
    (s, if good then Mem.bytes s.mem.bytes a 64 else List.replicate 64 0#8, good)

/-- The messages of a record: at most 4,096 B each, sor on the first, eor on the last (R379). -/
def recMsgs : Nat → List Byte → Bool → List (List Byte × Bool × Bool)
  | 0, _, _ => []
  | fuel + 1, d, first =>
    if d.length ≤ 4096 then [(d, first, true)] else (d.take 4096, first, false) :: recMsgs fuel (d.drop 4096) false

/-- Queues the next record of a stream, once the peer granted credit for all of it (R379). `host` is the record as host memory answered, `bad` its lines that failed. A
header that cannot be read, or that gives no data, stops the stream as a failed control-block read. While a line of it is
held, it waits (R232). -/
def execEgressRecordSend (stream : Fin 256) (host : List Byte) (bad : List Nat) (ecc : List LineRead) (s : State) :
    Host.Outcome State Fault Refusal :=
  .next (
    let n := stream.val
    let x := s.stream n
    let st := s.bolState
    let s0 := s
    if s.streamState n ≠ 1 ∨ !s.isEgress n ∨ (st ≠ 2 ∧ st ≠ 3) ∨ x.tail - x.fill < 128 ∨ s.ringHeld n x.fill 1 then s
    else
      let (s, h, good) := s.streamLine n x.fill 0 host bad ecc
      let w := bytesWord (h.take 8)
      let len := fld w 0 24
      let slots := (len + 63) / 64
      if !good ∨ len = 0 then s.streamFail n 6
      else if x.tail - x.fill < 64 + 64 * slots ∨ x.credit < slots + 1 then s
      else if s.ringHeld n x.fill (slots + 1) then s0
      else
        let (s, d, ok) := (rangeFrom 1 slots).foldl (fun (s, d, ok) i =>
          let (s, l, g) := s.streamLine n x.fill i host bad ecc
          (s, d ++ l, ok && g)) (s, [], true)
        let ms := recMsgs (len / 4096 + 1) (d.take len) true
        let fin := x.fill + 64 + 64 * slots
        let ms := ms.map fun (m, sor, eor) =>
          let flags := sor.toNat * 8 + eor.toNat * 4 + (sor && x.again).toNat * 2 + (eor && (bit w 32 || !ok)).toNat
          { hdr := bolHdr 1 n flags m.length (if sor then fld w 40 24 else 0) 0, data := fillTo (pad64 m.length) m,
            note := if eor then [.record n fin] else [] : BolMsg }
        (s.setStream n { x with fill := fin, credit := x.credit - (slots + 1), again := false }).bolSend ms)

/-! Configuration (R380). -/

/-- Is a note one of a stream's records? -/
def BolNote.of (n : Nat) : BolNote → Bool
  | .record m _ => decide (m = n)
  | .close _ => false

/-- An egress stream is disabled: its messages that were not started are not sent, and a record that is partly sent
ends with err = 1 on a final SDATA of one byte. No pointer of it advances any more (R380). -/
def State.cutEgress (s : State) (n : Nat) : State :=
  let mine : BolMsg → Bool := fun m => decide (m.hdr / 2 ^ 90 = 1) && decide (m.stream = n)
  let b := s.bol
  let last : List BolMsg := match b.queue.find? mine with
    | some m => if m.hdr.testBit 81 then [] else [{ hdr := bolHdr 1 n 5 1 0 0, data := List.replicate 64 0#8, note := [] }]
    | none => []
  let drop : List BolNote → List BolNote := fun l => l.filter fun x => !x.of n
  { s with bol := { b with
      queue := b.queue.filter (fun m => !mine m) ++ last,
      curNote := drop b.curNote,
      frames := b.frames.map fun f => { f with note := drop f.note } } }

/-- Opens a stream: its control block is read, `ws` being its first words where host memory holds it. -/
def State.openStream (s : State) (n : Nat) (ws : List Word) : State :=
  let s := (s.setStreamState n 1).setRfld (R.bolStreamStatus n) 58 4 0
  let (s, w0) := s.ctrlGet n 0 0 (nth 0 ws 0) .ok
  let (s, w1) := s.ctrlGet n 1 0 (nth 0 ws 1) .ok
  let (s, w2) := s.ctrlGet n 2 0 (nth 0 ws 2) .ok
  let t := w0.getD 0
  let h := w1.getD 0
  let eg := s.isEgress n
  let again := (s.stream n).again
  let s := s.setStream n { Stream.reset with
    tail := t, head := h, done := w2.getD 0, fill := if eg then h else t, opened := true, polled := s.now, again := eg && again }
  if w0.isNone ∨ w1.isNone ∨ w2.isNone then s.streamFail n 6 else s.grantStream n

/-- A write of BOL_STREAM_CFG: with en = 1 only the clearing of en has an effect. Enabling reads the
control block, once the memory stop serves it (R232): `ws` are its first words where host memory holds it. -/
def State.writeStreamCfg (s : State) (n : Nat) (val : Word) (ws : List Word) : State :=
  let (val, s) := s.reservedOk (mask 62 2 ||| mask 48 6 ||| mask 38 10 ||| mask 24 8 ||| mask 16 3 ||| mask 8 8) val
  let r := R.bolStreamCfg n
  let old := s.reg r
  if bit old 63 then
    if bit val 63 then s
    else
      let s := s.setReg r (setBit old 63 false)
      let s : State := { s with mem := { s.mem with held := s.mem.held.filter fun r =>
        match r with | .opens m _ _ => decide (m ≠ n) | _ => true } }
      if s.streamState n = 3 then s.setStreamState n 0
      else
        let s := if s.isEgress n then s.cutEgress n else s
        let s := ((s.sendClose n).closePart n).setStreamState n 2
        if s.isEgress n then s.setStreamState n 0 else s.commitStep n
  else
    let s := s.setReg r val
    if !bit val 63 then s
    else
      if s.ctrlHeld n then s.holdMem (.opens n (fld (s.reg (R.bolStreamCtrl n)) 6 46 * 64) ws) else s.openStream n ws

def execBolStreamCfgWrite (stream : Fin 256) (val : Word) (ws : List Word) (s : State) : Host.Outcome State Fault Refusal :=
  .next (s.writeStreamCfg stream.val val ws)

/-- A write of a stream to host memory ended (R378, R381): an error status is RING_WRITE. -/
def State.streamWrote (s : State) (n : Nat) (ok : Bool) : State := if ok then s else s.streamFail n 5

end Sys2Proof.Machine
end

