-- ==== Sys2Proof/Machine/HostLink.lean ====
section
/-!
DEFINITION. The Nogar link, doorbells and the responses of the host (R328 to R336, R343, R344, R579).
-/

namespace Sys2Proof.Machine

/-! The link (R328, R332). -/

/-- Changes state and width of the link; the host and the stags are told of a change (R353, R424). -/
def State.setHif (s : State) (st width : Nat) : State :=
  if s.hifState = st ∧ s.rfld R.hifLinkStatus 4 2 = width then s
  else (((s.setRfld R.hifLinkStatus 0 3 st).setRfld R.hifLinkStatus 4 2 width).stagEdge 60).event 0x0A05 (b1 st ++ b1 width)

def State.hifWidth (s : State) : Nat := s.rfld R.hifLinkStatus 4 2

/-- Sends the messages that waited, in order within their classes, as far as the replay buffer and the credits reach. -/
def State.hifFlushN (s : State) : Nat → State
  | 0 => s
  | fuel + 1 =>
    match s.host.msgs.find? s.hifMay with
    | none => s
    | some m => (({ s with host := { s.host with msgs := s.host.msgs.erase m } } : State).nogarNow m).hifFlushN fuel

def State.hifFlush (s : State) : State := s.hifFlushN s.host.msgs.length

/-- Sends the codewords that are not acknowledged again, from the oldest one on. -/
def State.hifResend (s : State) : State :=
  let h := s.host
  let s : State := { s with host := { h with sent := h.sent.map fun x => (s.now, x.2) } }
  (s.emit (.nogarCtl false h.acked)).emits
    (h.sent.zipIdx.map fun (x, i) => .nogarAgain ((h.acked + i) % 4096) x.2.type x.2.tag x.2.addr x.2.status x.2.data)

/-- Replays the codewords from the oldest one that is not acknowledged. -/
def State.hifReplay (s : State) : State :=
  if s.host.sent.isEmpty then s
  else
    let s := (s.count R.hifLinkErr 16 16).ledger 23
    let h := s.host
    let s : State := { s with host := { h with replayAt := some (h.replayAt.getD s.now),
                                               replayTo := if h.replayAt.isSome then h.replayTo else h.txSeq } }
    (s.setHif 3 s.hifWidth).hifResend

/-- Takes an acknowledgement: codewords up to a seq have arrived. -/
def State.hifTakeAck (s : State) (ack : Nat) : State :=
  let h := s.host
  let n := (ack + 1 + 4096 - h.acked) % 4096
  if n = 0 ∨ h.sent.length < n then s
  else
    let left := (h.replayTo + 4096 - h.acked) % 4096
    let gone := h.replayAt.isSome && decide (left ≤ n)
    let s : State := { s with host := { h with acked := (ack + 1) % 4096, sent := h.sent.drop n,
                                               replayAt := if gone then none else h.replayAt.map fun _ => s.now } }
    (if gone && decide (s.hifState = 3) then s.setHif 2 s.hifWidth else s).hifFlush

/-- A codeword's control slot (R329, R332). A bad CRC or a gap asks once for replay; a repeat is
discarded. The messages of the codeword are commands of their own; those of reserved types are counted (R331). -/
def execNogarCodeword (seq : BitVec 12) (chk : NogarCheck) (nak : Bool) (ack : BitVec 12) (crReq crRsp crSnp : BitVec 8) (s : State) :
    Host.Outcome State Fault Refusal :=
  .next (if !s.hifUp then s
    else
      let naks := fun (s : State) => if s.host.nakSent then s
        else ({ s with host := { s.host with nakSent := true, owed := SMap.set (fun _ => 0) s.host.owed 4 1 } } : State).emit
          (.nogarCtl true s.host.rxSeq)
      let ahead := (seq.toNat + 4096 - s.host.rxSeq) % 4096
      if !chk.crcOk || chk.lost then naks s
      else if ahead ≠ 0 then (if ahead < 2048 then naks s else s)
      else
        let add := fun (m : SMap Nat) (k n : Nat) => SMap.set (fun _ => 0) m k (SMap.get (fun _ => 0) m k + n)
        let s : State := { s with host := { s.host with
          rxSeq := (seq.toNat + 1) % 4096, nakSent := false,
          credits := add (add (add s.host.credits 0 crReq.toNat) 1 crRsp.toNat) 2 crSnp.toNat
          owed := SMap.set (fun _ => 0) (add (add (add s.host.owed 0 chk.req) 1 chk.rsp) 2 chk.snp) 3 1 } }
        let s := if chk.reserved = 0 then s else s.countBy R.hifLinkErr 48 16 chk.reserved
        let s := (s.hifTakeAck ack.toNat).hifFlush
        if nak then s.hifReplay else s)

/-- The oldest codeword has gone 2 µs without acknowledgement; after 20 µs of replay without progress the
link retrains. -/
def execNogarReplayTimeout (s : State) : Host.Outcome State Fault Refusal :=
  .next (match s.host.sent with
    | [] => s
    | (t, _) :: _ =>
      if !s.hifUp ∨ s.now < t + 2000 then s
      else match s.host.replayAt with
        | some a =>
          if a + 20000 ≤ s.now then
            let s := (s.count R.hifLinkErr 0 16).ledger 24
            ({ s with host := { s.host with replayAt := none, retrainAt := some s.now } } : State).setHif 4 s.hifWidth
          else s.hifReplay
        | none => s.hifReplay)

/-- Training or retraining ends with a number of good lanes (R328, R332): the codewords that the host has
not acknowledged go again, then what waited. -/
def execNogarRetrainDone (lanes : Nat) (s : State) : Host.Outcome State Fault Refusal :=
  .next (if s.hifUp then s
    else if lanes < 8 then
      ({ s with host := { s.host with retrainAt := some (s.host.retrainAt.getD s.now) } } : State).setHif 0 2
    else
      let s : State := { s with host := { s.host with retrainAt := none } }
      let s := s.setHif 2 (if lanes < 16 then 1 else 0)
      (if s.host.sent.isEmpty then s else s.hifResend).hifFlush)

/-! The codewords that the device sends (R328 to R330). -/

/-- The bytes of a message's line: its data at their offset. -/
def HostMsg.slot (m : HostMsg) : List Byte :=
  (List.replicate (m.addr % 64) 0#8 ++ m.data ++ List.replicate 64 0#8).take 64

/-- Does a message name a whole line: a read, or a write of 64 B? -/
def HostMsg.whole (m : HostMsg) : Bool :=
  decide (m.type = 0x01) || decide (m.type = 0x02) || decide (m.type = 0x03) || decide (m.type = 0x04) ||
    decide (m.type = 0x06) || decide (m.type = 0x07)

/-- A message's data slots: the byte mask of WR_PART goes before its data (R331). -/
def HostMsg.slots (m : HostMsg) : List Byte :=
  if m.data.isEmpty then []
  else if m.type = 0x05 then natToBytes 64 ((2 ^ m.data.length - 1) * 2 ^ (m.addr % 64)) ++ m.slot
  else m.slot

/-- A message's header of 12 B (R330); the attributes of a read without a copy and of poisoned data are set (log entry 88). -/
def HostMsg.header (m : HostMsg) : List Byte :=
  if m.type = 0 then List.replicate 12 0#8
  else natToBytes 12 (m.type % 64 * 2 ^ 90 + m.tag % 4096 * 2 ^ 78 + m.addr / 64 % 2 ^ 46 * 2 ^ 32 + m.status % 16 * 2 ^ 28 +
    (if m.whole then 0 else m.addr % 64) * 2 ^ 22 + (if m.whole then 63 else (m.data.length + 63) % 64) * 2 ^ 16 +
    (if m.type = 0x02 then 2 ^ 8 else 0) + (if m.status = 2 then 2 ^ 10 else 0))

/-- The ten slots of a codeword with one message, or with none: header, credits, flags, seq, ack and CRC, then the data
slots (R329). -/
def hifBytes (m : HostMsg) (cr : List Nat) (nak : Bool) (seq ack : Nat) : List Byte :=
  let head := m.header ++ List.replicate 36 0#8 ++ (rangeFrom 0 3).map (fun i => BitVec.ofNat 8 (nth 0 cr i)) ++
    [BitVec.ofNat 8 (nak.toNat + (if m.type = 0 then 2 else 0))] ++ natToBytes 2 (seq % 4096) ++ natToBytes 2 (ack % 4096) ++
    List.replicate 4 0#8
  let data := (m.slots ++ List.replicate 576 0#8).take 576
  head ++ natToBytes 4 (crc32 (head ++ data)) ++ data

/-- What the host is owed: credits of the three classes, an acknowledgement at 3, a request for replay at 4. -/
def State.hifOwes (s : State) (k : Nat) : Nat := SMap.get (fun _ => 0) s.host.owed k

/-- A codeword leaves over the lanes in use with what the host is owed, at most 255 credits of a class; an alignment block
follows every 16,384 codewords (R328, R329). -/
def State.sendHif (s : State) (seq : Nat) (m : HostMsg) : State :=
  let cr := (rangeFrom 0 3).map fun k => min 255 (s.hifOwes k)
  let (syms, scr) := codeword s.host.scr (hifBytes m cr (decide (s.hifOwes 4 ≠ 0)) seq (s.host.rxSeq + 4095))
  let owed := (rangeFrom 0 3).foldl (fun o k => SMap.set (fun _ => 0) o k (s.hifOwes k - nth 0 cr k)) []
  let n := (s.host.cws + 1) % 16384
  let s : State := { s with host := { s.host with scr := scr, cws := n, owed := owed } }
  let s := s.emit (.nogarWord (onLanes (if s.rfld R.hifLinkStatus 4 2 = 1 then 8 else 16) syms))
  if n = 0 then s.emit .nogarAlign else s

/-- The message of an entry of the output that a codeword carries, and its seq where it is sent again. -/
def outHif : Out → Option (Option Nat × HostMsg)
  | .nogar type tag addr status data => some (none, { type := type, tag := tag, addr := addr, status := status, data := data })
  | .nogarAgain seq type tag addr status data =>
    some (some seq, { type := type, tag := tag, addr := addr, status := status, data := data })
  | _ => none

/-- What was sent to the host since the last tick leaves in codewords; where nothing carried what the host is owed, a
codeword without a message does (log entry 88). -/
def State.hifTick (s : State) : State :=
  let new := (s.out.drop s.host.seen).filterMap outHif
  let fresh := (new.filter (·.1.isNone)).length
  let (s, _) := new.foldl (fun (s, i) (seq, m) => match seq with
    | some q => (s.sendHif q m, i)
    | none => (s.sendHif ((s.host.txSeq + 4096 - fresh + i) % 4096) m, i + 1)) (s, 0)
  let s := if s.hifUp && decide (s.host.sent.length < 256) && s.host.owed.any (fun x => decide (x.2 ≠ 0)) then
      let m : HostMsg := { type := 0, tag := 0, addr := 0, status := 0, data := [] }
      let q := s.host.txSeq
      ({ s with host := { s.host with txSeq := (q + 1) % 4096, sent := s.host.sent ++ [(s.now, m)] } } : State).sendHif q m
    else s
  { s with host := { s.host with seen := s.out.length } }

/-! Doorbells (R343, R344). -/

/-- Reads a watched line and holds it. -/
def State.readDbl (s : State) (n : Nat) : State :=
  s.hostReq 0x01 (fld (s.reg (R.hifDbl n)) 6 46 * 64) (.doorbell n) []

/-- A write of HIF_DBL: a line that becomes enabled is read; one that is disabled is no longer held. -/
def State.writeDbl (s : State) (n : Nat) (val : Word) : State :=
  let (val, s) := s.reservedOk (mask 6 46 ||| mask 0 1) val
  let old := bit (s.reg (R.hifDbl n)) 0
  let s := s.setReg (R.hifDbl n) val
  if bit val 0 && !old then s.readDbl n
  else if !bit val 0 then
    ({ s with host := { s.host with rereadAt := SMap.set (fun _ => none) s.host.rereadAt n none } } : State).setRfld (R.hifDblStatus n) 32 1 0
  else s

def execHifDblWrite (line : Fin 256) (val : Word) (s : State) : Host.Outcome State Fault Refusal :=
  .next (s.writeDbl line.val val)

/-- After a failed reread the line is read again every 10 µs. -/
def execDoorbellRereadRetry (line : Fin 256) (s : State) : Host.Outcome State Fault Refusal :=
  .next (
    let n := line.val
    match SMap.get (fun _ => none) s.host.rereadAt n with
    | none => s
    | some t =>
      if s.now < t ∨ !bit (s.reg (R.hifDbl n)) 0 then s
      else
        let s : State := { s with host := { s.host with rereadAt := SMap.set (fun _ => none) s.host.rereadAt n none } }
        (s.count (R.hifDblStatus n) 0 32).readDbl n)

/-- A watched line's data: every word takes its new value; or its read failed (R344). -/
def State.dblArrive (s : State) (n st : Nat) (d : List Byte) : State :=
  if !bit (s.reg (R.hifDbl n)) 0 then s
  else if st ≠ 0 then
    ({ s with host := { s.host with rereadAt := SMap.set (fun _ => none) s.host.rereadAt n (some (s.now + 10000)) } } : State).event
      0x0A02 (b1 n)
  else
    let line := fld (s.reg (R.hifDbl n)) 6 46
    let s := (s.keepLine line d).takeWords line d
    let s := s.setRfld (R.hifDblStatus n) 32 1 1
    (rangeFrom 0 256).foldl (fun s q => if s.rfld (R.hifSqCfg q) 16 8 = n then s.checkTail q else s) s

/-- Answers a snoop, drops the copy, and rereads a watched line (R333, R344). -/
def State.snoop (s : State) (tag line : Nat) : State :=
  let s := s.dropLine line
  let s := s.nogar 0x22 tag (64 * line) 0 []
  (rangeFrom 0 256).foldl (fun s n =>
    let r := s.reg (R.hifDbl n)
    if bit r 0 && decide (fld r 6 46 = line) then
      ((s.setRfld (R.hifDblStatus n) 32 1 0).count (R.hifDblStatus n) 0 32).readDbl n
    else s) s

/-- Does the line atomic unit own a line (R334)? -/
def State.lineOwned (s : State) (line : Nat) : Bool :=
  s.host.reqs.any fun (_, r) => match r with
    | some r => decide (r.addr = 64 * line) && (match r.use with | .own _ => true | .back _ _ => true | _ => false)
    | none => false

/-- SNP_INV: answered at once, or after the write back of an atomic on the line. -/
def execSnpInv (tag : BitVec 12) (line : BitVec 46) (s : State) : Host.Outcome State Fault Refusal :=
  .next (
    let s := s.count R.hifHlcStats 32 32
    if s.lineOwned line.toNat then { s with host := { s.host with snoops := s.host.snoops ++ [4096 * line.toNat + tag.toNat] } }
    else s.snoop tag.toNat line.toNat)

/-- Answers the snoops that waited for a line. -/
def State.releaseLine (s : State) (line : Nat) : State :=
  if s.lineOwned line then s
  else
    let go := s.host.snoops.filter fun x => decide (x / 4096 = line)
    let s : State := { s with host := { s.host with snoops := s.host.snoops.filter fun x => decide (x / 4096 ≠ line) } }
    go.foldl (fun s x => s.snoop (x % 4096) line) s

/-! Responses (R579). -/

/-- The bytes that a read's packet takes of a line. -/
def State.lineBytes (s : State) (id off : Nat) (line : List Byte) : List Byte :=
  match s.host.pkts.find? fun x => decide (x.id = id) with
  | none => []
  | some x =>
    let a := x.pkt.addr + off
    (line.drop (a % 64)).take (min (64 - a % 64) (x.pkt.aux % 256 + 1 - off))

/-- An atomic's line has arrived with ownership (R334, R308): the new value goes back, or the line is
given up unchanged. -/
def State.ownArrive (s : State) (p : Pkt) (st : Nat) (line : List Byte) : State :=
  if st ≠ 0 then (s.emit (.pkt (p.fail (if st = 2 then 5 else 6)))).releaseLine (p.addr / 64)
  else
    let wide := p.aux.testBit 3
    let n := if wide then 8 else 4
    let o := p.addr % 64
    let old := (line.drop o).take n
    let new := atomNew (p.aux % 8) wide (bytesToNat old) (bytesToNat (p.data.take 8)) (bytesToNat ((p.data.drop 8).take 8))
    let line' := line.take o ++ natToBytes n new ++ line.drop (o + n)
    if line' = line then s.hostReq 0x07 p.addr (.back p old) [] else s.hostReq 0x06 p.addr (.back p old) line'

/-- A write of a command's result failed: its completion says HOST_ERROR. -/
def State.complFail (s : State) (ring index : Nat) : State :=
  { s with host := { s.host with compls := s.host.compls.map fun c =>
      if c.ring = ring ∧ c.index = index ∧ c.status = 0 then { c with status := 0x06 } else c } }

/-- What the end of a request does, by its use: status 0 success, 1 error, 2 poisoned. -/
def State.useEnd (s : State) (r : HostReq) (st : Nat) (d : List Byte) : State :=
  match r.use with
  | .sqEntry ring index => s.sqArrive ring index st d
  | .doorbell n => s.dblArrive n st d
  | .read id off =>
    let s : State := match s.host.pkts.find? fun x => decide (x.id = id) with
      | some x => if x.pkt.hc ∧ st = 0 then s.keepLine (r.addr / 64) d else s
      | none => s
    s.pktLine id off st (if st = 0 then s.lineBytes id off d else [])
  | .write id off => s.pktLine id off st []
  | .own p => s.ownArrive p st d
  | .back p old => (s.emit (.pkt (if st = 0 then p.reply PT.memAck 0 old [] else p.fail 6))).releaseLine (r.addr / 64)
  | .compl c => s.vecEntry (s.rfld (R.hifCqCfg c) 40 8)
  | .event e => s.vecEntry (s.rfld (R.hifEqCfg e) 40 8)
  | .irq _ => s
  | .cmap => s
  | .stream n => s.streamWrote n (decide (st = 0))
  | .data ring index => if st = 0 then s else s.complFail ring index

/-- Is a request answered by DATA, or by CMP (R331)? -/
def HostUse.byData : HostUse → Bool
  | .sqEntry _ _ => true | .doorbell _ => true | .read _ _ => true | .own _ => true | _ => false

/-- Ends the request of a tag: the tag is free, and a request that waited for one goes. -/
def State.reqEnd (s : State) (tag st : Nat) (d : List Byte) : State :=
  match SMap.get (fun _ => none) s.host.reqs tag with
  | none => s
  | some r =>
    let s : State := { s with host := { s.host with reqs := SMap.set (fun _ => none) s.host.reqs tag none } }
    let s := s.useEnd r st d
    match s.host.waiting with
    | [] => s
    | (ty, a, u, d) :: t => ({ s with host := { s.host with waiting := t } } : State).hostReq ty a u d

/-- A response with the tag of a request that expects it; another is discarded. -/
def State.response (s : State) (tag st : Nat) (data : Bool) (d : List Byte) : State :=
  match SMap.get (fun _ => none) s.host.reqs tag with
  | some r => if r.use.byData = data then s.reqEnd tag st d else s
  | none => s

def execNogarData (tag : BitVec 12) (status : Fin 3) (line : List Byte) (s : State) : Host.Outcome State Fault Refusal :=
  .next (s.response tag.toNat status.val true line)

def execNogarCmp (tag : BitVec 12) (status : Fin 3) (s : State) : Host.Outcome State Fault Refusal :=
  .next (s.response tag.toNat status.val false [])

/-- A request held for 1 ms while the link is not active ends as an error status would end it (R332). -/
def execHostRequestHoldTimeout (tag : BitVec 12) (s : State) : Host.Outcome State Fault Refusal :=
  .next (match SMap.get (fun _ => none) s.host.reqs tag.toNat with
    | none => s
    | some r =>
      let held := max r.since (s.host.retrainAt.getD s.now)
      if s.hifUp ∨ s.now < held + 1000000 then s
      else
        let s : State := { s with host := { s.host with msgs := s.host.msgs.filter fun m => !(decide (m.tag = tag.toNat) && decide (m.type < 0x10)) } }
        s.reqEnd tag.toNat 1 [])

/-! The host's accesses to device memory (R335). -/

def execDmRd (tag : BitVec 12) (addr : BitVec 39) (len : Fin 64) (ecc : LineRead) (s : State) : Host.Outcome State Fault Refusal :=
  .next (s.dmRead tag.toNat addr.toNat (len.val + 1) ecc)

def execDmWr (addr : BitVec 39) (data : List Byte) (ecc : LineRead) (s : State) : Host.Outcome State Fault Refusal :=
  .next (s.dmWrite addr.toNat data ecc)

end Sys2Proof.Machine
end

