-- ==== Sys2Proof/Machine/HostSwap.lean ====
section
/-!
DEFINITION. Configuration sets and their swap (R356 to R362, R455).
-/

namespace Sys2Proof.Machine

/-- Is the register at an offset part of the configuration set (R356)? -/
def isRws (off : Nat) : Bool := match Regs.find off with | some r => decide (r.access = .rws) | none => false

/-- CFG_SWAP_STATUS.state: 0 idle, 1 scheduled, 2 transition, 3 copying. -/
def State.swapState (s : State) : Nat := s.rfld R.cfgSwapStatus 0 2
def State.setSwapState (s : State) (v : Nat) : State := s.setRfld R.cfgSwapStatus 0 2 v

/-- Are RWS writes blocked (R357, R359)? -/
def State.rwsBlocked (s : State) : Bool := decide (s.swapState ≠ 0)

/-- Copies every active RWS register into its shadow (R357). -/
def State.copySets (s : State) : State := { s with shadow := s.regs.filter fun x => isRws x.1 }

/-- Exchanges the two copies of every RWS register (R356). -/
def State.swapSets (s : State) : State :=
  let keep := s.regs.filter fun x => !isRws x.1
  { s with regs := (s.shadow.filter fun x => isRws x.1).foldr (fun x m => SMap.set Regs.initial m x.1 x.2) keep,
           shadow := s.regs.filter fun x => isRws x.1 }

/-- FAB_STATUS.topo_valid follows the FAB_TOPO that became active (R261), and so do ports and marks (R262, R281). -/
def State.adoptTopo (s : State) : State :=
  let w := s.reg R.fabTopo
  let s := s.setRfld R.fabStatus 0 1 (topoOk w).toNat
  let s := if bit w 63 && !topoOk w then s.event 0x080A (b1 (fld w 16 6) ++ b1 (fld w 24 5) ++ b1 (fld w 0 5) ++ b1 (fld w 8 4)) else s
  s.adoptPorts

/-- Is a warm reset under way (R455)? -/
def State.warm (s : State) : Bool := decide (s.rfld R.rstStatus 0 2 = 2)

/-- The start of a transition (R360): the epoch inverts, the new set is active, the old one is the shadow. -/
def State.startSwap (s : State) (late : Bool) : State :=
  let st := s.reg R.cfgSwapStatus
  let st := setBit (setBit st 8 (!bit st 8)) 9 late
  let s := s.setReg R.cfgSwapStatus (setFld (satInc st 16 16) 0 2 2)
  let s := s.setReg R.cfgSwapLast (BitVec.ofNat 64 s.now)
  let s : State := { s with host := { s.host with swapAt := none, swapStart := some s.now }, therm := { s.therm with swapWaits := false } }
  let s := s.swapSets.adoptTopo
  (rangeFrom 0 8).foldl (fun s d => if s.dieUp d then s.dieEdge d 22 else s) s

/-- Starts a swap, or lets it wait for the end of a warm reset (R455). -/
def State.beginSwap (s : State) (late : Bool) : State :=
  if s.warm then { s.setSwapState 1 with therm := { s.therm with swapWaits := true }, host := { s.host with swapAt := none } }
  else s.startSwap late

/-- A write of CFG_SWAP (R358). -/
def State.writeSwap (s : State) (val : Word) : State :=
  let cmd := fld val 62 2
  let t := fld val 0 62
  let refuse := s.count R.cfgSwapStatus 48 16
  if cmd = 1 then (if s.swapState = 0 then s.beginSwap false else refuse)
  else if cmd = 2 then
    if s.swapState ≠ 0 then refuse
    else if t < s.now % 2 ^ 62 then s.beginSwap true
    else { s.setSwapState 1 with host := { s.host with swapAt := some t } }
  else if cmd = 3 then
    if s.swapState ≠ 1 then refuse
    else
      let s : State := { s with host := { s.host with swapAt := none }, therm := { s.therm with swapWaits := false } }
      (s.setSwapState 0).event 0x0A04 []
  else refuse

def execCfgSwapNow (s : State) : Host.Outcome State Fault Refusal := .next (s.writeSwap (BitVec.ofNat 64 (2 ^ 62)))

def execCfgSwapAtTime (atTime : BitVec 62) (s : State) : Host.Outcome State Fault Refusal :=
  .next (s.writeSwap (BitVec.ofNat 64 (2 * 2 ^ 62 + atTime.toNat)))

def execCfgSwapCancel (s : State) : Host.Outcome State Fault Refusal := .next (s.writeSwap (BitVec.ofNat 64 (3 * 2 ^ 62)))

/-- SYSTIME, with bits [63:62] taken as 0, has reached the time of a scheduled swap (R358, R424). -/
def execSwapTimeReached (s : State) : Host.Outcome State Fault Refusal :=
  .next (match s.host.swapAt with
    | some t => if s.swapState = 1 ∧ t ≤ s.now % 2 ^ 62 ∧ s.held then (s.stagEdge 70).beginSwap false else s
    | none => s)

/-- A context's definition changed at a swap: it is created, created again, or freed (R287, R292, R360). Its
pending commands end, with a code that is a free value. -/
def State.swapCtx (s : State) (n : Nat) : State :=
  let old := s.shadowReg (R.colCtx n)
  let new := s.reg (R.colCtx n)
  if old = new then s
  else
    let s := if s.ctxState n ≠ 0 ∧ s.ctxState n < 4 then s.freeCtx n else s
    let s := if s.collPending n then (s.endColls n (max 1 (fld (s.freeWord 0) 0 8))).drew 1 else s
    if bit new 0 then s.createCtx n else s.setCtxState n 0 0

/-- The end of a transition (R360). -/
def State.endSwap (s : State) : State :=
  match s.host.swapStart with
  | none => s
  | some t =>
    let s : State := { s with host := { s.host with swapStart := none } }
    let s := (rangeFrom 0 64).foldl (fun s n => s.swapCtx n) (s.setSwapState 0)
    s.event 0x0A03 (b1 s.epoch.toNat ++ b1 (s.rfld R.cfgSwapStatus 9 1) ++ natToBytes 8 t)

def execSwapTransitionEnd (s : State) : Host.Outcome State Fault Refusal := .next s.endSwap

/-- CFG_COPY (R357): copy = 0 has no effect; a swap or copy under way blocks it. -/
def State.writeCopy (s : State) (copy : Bool) : State :=
  if !copy then s
  else if s.rwsBlocked then s.count R.cfgSwapStatus 32 16
  else ({ s.copySets with host := { s.host with copyStart := some s.now } } : State).setSwapState 3

def execCfgCopy (copy : Bool) (s : State) : Host.Outcome State Fault Refusal := .next (s.writeCopy copy)

def execCfgCopyDone (s : State) : Host.Outcome State Fault Refusal :=
  .next (if s.swapState = 3 then ({ s with host := { s.host with copyStart := none } } : State).setSwapState 0 else s)

end Sys2Proof.Machine
end

