-- ==== Sys2Proof/Machine/Xport.lean ====
section
/-!
DEFINITION. The transport: slots of the requester and replay tables of the responder (R313 to R325).
-/

namespace Sys2Proof.Machine

/-! The requester (R315, R317, R319, R320, R323). -/

/-- A transport slot of a core. -/
def State.xslot (s : State) (i : Nat) : Option XSlot := SMap.get (fun _ => none) s.xport.slots i
def State.setXslot (s : State) (i : Nat) (x : Option XSlot) : State :=
  { s with xport := { s.xport with slots := SMap.set (fun _ => none) s.xport.slots i x } }

/-- Is a request one that the replay table keeps: a write, CPUT, MSG or atomic (R318)? -/
def keptType (t : Nat) : Bool := decide (t = PT.memWr) || decide (t = PT.memAtom) || decide (t = PT.cput) || decide (t = PT.msg)

/-- The slot index of the key of a reply: the core it is addressed to, and its tag's slot. -/
def replySlot (p : Pkt) : Option Nat := match p.toCore with | some k => some (16 * k + p.tag % 16) | none => none

/-- Ends a request: its slot frees and a STATUS goes into the die; an unknown outcome or a timeout is
counted. -/
def State.xportEnd (s : State) (i : Nat) (x : XSlot) (code : Nat) : State :=
  let s := s.setXslot i none
  let s := if code = 2 then s.count R.fabXportStats 48 16 else if code = 3 then s.count R.fabXportStats 32 16 else s
  s.enterDie (i / 16 / 288) (x.pkt.fail code)

/-- The first reply of an open slot's key (R317): passed into the die, the slot freed, and acknowledged
for a kept request. RETRY_LATER is absorbed (R319); DIE_DOWN after a later attempt of a kept request is
an unknown outcome (R323). -/
def State.xportReply (s : State) (p : Pkt) : State :=
  if p.dstDev ≠ s.devIndex then s
  else match replySlot p with
    | none => s
    | some i =>
      match s.xslot i with
      | none => s
      | some x =>
        if x.pkt.tag ≠ p.tag ∨ x.pkt.t0 ≠ p.t0 ∨ x.pkt.dstDev ≠ p.srcDev then s
        else if p.type = PT.status ∧ p.aux % 256 = 8 then
          let k := x.retries + 1
          s.setXslot i (some { x with retries := k, retryAt := some (s.now + 1000 * min 64 (2 ^ (k - 1))) })
        else
          let kept := keptType x.pkt.type
          let s := if kept then { s with xport := { s.xport with acks := s.xport.acks ++ [(p.srcDev, i / 16, p.tag % 256, s.now)] } } else s
          if p.type = PT.status ∧ p.aux % 256 = 1 ∧ kept ∧ 1 < x.attempts then s.xportEnd i x 2
          else (s.setXslot i none).enterDie (i / 16 / 288) p

def execTransportReply (p : Pkt) (s : State) : Host.Outcome State Fault Refusal := .next (s.xportReply p)

/-- Sends a slot's request again with the same key. -/
def State.xportSend (s : State) (i : Nat) (x : XSlot) : State :=
  let (s, a) := s.takeAck (i / 16 / 288) x.pkt.dstDev
  (s.setXslot i (some { x with sentAt := s.now, retryAt := none })).emit (.pkt { x.pkt with xack := a })

/-- T without reply (R315): a further attempt, or after the third the end. -/
def execTransportTimeout (c : CoreId) (slot : Fin 16) (s : State) : Host.Outcome State Fault Refusal :=
  .next (
    let i := 16 * c.key + slot.val
    match s.xslot i with
    | none => s
    | some x =>
      if x.retryAt.isSome ∨ s.now < x.sentAt + x.timeout then s
      else if x.attempts < 3 then (s.count R.fabXportStats 0 32).xportSend i { x with attempts := x.attempts + 1 }
      else s.xportEnd i x (if keptType x.pkt.type then 2 else 3))

/-- The backoff after RETRY_LATER ends (R319); T runs from this sending. -/
def execRetryLaterResend (c : CoreId) (slot : Fin 16) (s : State) : Host.Outcome State Fault Refusal :=
  .next (
    let i := 16 * c.key + slot.val
    match s.xslot i with
    | none => s
    | some x => match x.retryAt with
      | some t => if t ≤ s.now then s.xportSend i x else s
      | none => s)

/-- Core and tag as an acknowledgement carries them (R314, R320). -/
def ackWord (k tag : Nat) : Nat :=
  let (d, r, c) := keyPos k
  2 ^ 31 + (d * 2 ^ 9 + r * 2 ^ 5 + c) * 2 ^ 8 + tag % 256

/-- Acknowledgements of a die that no packet has taken within 1 µs leave in an XACK packet, up to eight
(R320). -/
def execXackTimer (d : Die) (dev : Nat) (s : State) : Host.Outcome State Fault Refusal :=
  .next (
    let mine := s.xport.acks.filter fun (v, k, _) => decide (v = dev) && decide (k / 288 = d.val)
    if !mine.any fun (_, _, _, t) => decide (t + 1000 ≤ s.now) then s
    else
      let go := mine.take 8
      let data := go.flatMap fun (_, k, tag, _) => natToBytes 4 (ackWord k tag)
      let p : Pkt := { Pkt.empty with
        type := PT.xack, srcDev := s.devIndex, srcDie := d.val, dstDev := dev, epoch := s.epoch,
        data := data ++ List.replicate (32 - data.length) 0#8 }
      { s with xport := { s.xport with acks := s.xport.acks.filter fun a => !go.contains a } }.emit (.pkt p))

/-! The responder (R306, R318 to R322). -/

/-- The owning stop of the keys of a source device: 20 to 23, the next one in service (R318). -/
def State.replayOwner (s : State) (dev : Nat) : Option Nat :=
  ((rangeFrom 0 4).map fun i => 20 + (dev + i) % 4).find? fun n => bit (s.reg (R.baseStopStatus n)) 0

/-- A replay table. -/
def State.rtable (s : State) (stop : Nat) : List REntry := SMap.get (fun _ => []) s.xport.table stop

/-- Writes a table, keeping the counts of entries (R327). -/
def State.setRtable (s : State) (stop : Nat) (l : List REntry) : State :=
  let s := { s with xport := { s.xport with table := SMap.set (fun _ => []) s.xport.table stop l } }
  let used := s.xport.table.foldl (fun n (_, l) => n + l.length) 0
  let s := s.setRfld R.fabReplayStatus 0 14 used
  s.setRfld R.fabReplayStatus 16 14 (max used (s.rfld R.fabReplayStatus 16 14))

/-- Frees the entries of a source device, core and tag (R320). -/
def State.freeReplay (s : State) (dev k tag : Nat) : State :=
  match s.replayOwner dev with
  | none => s
  | some n => s.setRtable n ((s.rtable n).filter fun e => !(decide (e.dev = dev) && decide (e.core = k) && decide (e.tag % 256 = tag % 256)))

/-- Takes every acknowledgement that a packet carries. -/
def State.takeXacks (s : State) (p : Pkt) : State :=
  let s := match p.xack with | some (k, tag) => s.freeReplay p.srcDev k tag | none => s
  if p.type ≠ PT.xack then s
  else (rangeFrom 0 8).foldl (fun s i =>
    let w := bytesToNat ((p.data.drop (4 * i)).take 4)
    if w / 2 ^ 31 % 2 = 1 then
      s.freeReplay p.srcDev (288 * (w / 2 ^ 17 % 8) + 18 * (w / 2 ^ 13 % 16) + w / 2 ^ 8 % 32) (w % 256)
    else s) s

def execXack (p : Pkt) (s : State) : Host.Outcome State Fault Refusal := .next (s.takeXacks p)

/-- Is a time t0, in µs modulo 2^32, at or before a SYSTIME (R322)? -/
def atOrBefore (t0 t : Nat) : Bool := decide ((t / 1000 % 2 ^ 32 + 2 ^ 32 - t0 % 2 ^ 32) % 2 ^ 32 < 2 ^ 31)

/-- T_up for the keys of a source device: the takeover of its stop's keys, else when the stop's table came
into service (R318, R322). -/
def State.replayUp (s : State) (dev stop : Nat) : Option Nat :=
  match SMap.get (fun _ => none) s.xport.tUp (100 + dev % 4) with
  | some t => some t
  | none => SMap.get (fun _ => none) s.xport.tUp stop

/-- The source core of a request as the key names it. -/
def srcCore (p : Pkt) : Nat := 288 * (p.srcDie % 8) + 18 * (p.srcRow % 16) + p.srcCol

/-- Is an entry of a request's key? -/
def REntry.matches (e : REntry) (p : Pkt) (core : Nat) (dev : Nat) : Bool :=
  decide (e.dev = dev) && decide (e.core = core) && decide (e.tag = p.tag) && decide (e.t0 = p.t0)

/-- A packet of another device names a logical column; its die knows the physical one (R274). -/
def State.toPhysical (s : State) (p : Pkt) : Pkt :=
  if p.type = PT.cput ∨ p.type = PT.msg then { p with dstCol := s.physCol (p.dstDie % 8) (p.dstRow % 16) (p.dstCol % 16) } else p

/-- The owning stop looks a kept request up by its key (R318, R319, R322). -/
def State.replayLookup (s : State) (p : Pkt) : State :=
  if !keptType p.type ∨ p.dstDev ≠ s.devIndex ∨ p.srcDev = s.devIndex then s
  else match s.replayOwner p.srcDev with
    | none => s
    | some n =>
      let s := s.takeXacks p
      let t := s.rtable n
      let core := srcCore p
      match t.find? fun e => e.matches p core p.srcDev with
      | some e =>
        let s := (s.count R.fabReplayStats 32 32).setRtable n (t.map fun x => if x = e then { x with touched := s.now } else x)
        (match e.reply with | some r => s.emit (.pkt r) | none => s)
      | none =>
        let late := match s.replayUp p.srcDev n with | some up => atOrBefore p.t0 up | none => true
        if late then s.emit (.pkt (p.fail 2))
        else if 2048 ≤ t.length then (s.count R.fabReplayStatus 32 32).emit (.pkt (p.fail 8))
        else
          let e : REntry := { dev := p.srcDev, core := core, tag := p.tag, t0 := p.t0, reply := none, touched := s.now }
          (s.setRtable n (t ++ [e])).emit (.pkt (s.toPhysical p))

def execReplayTableLookup (p : Pkt) (s : State) : Host.Outcome State Fault Refusal := .next (s.replayLookup p)

/-- A target's reply comes back: stored in its entry, and sent to the requester (R318). -/
def execReplayTableStore (p : Pkt) (s : State) : Host.Outcome State Fault Refusal :=
  .next (if p.dstDev = s.devIndex then s
    else match s.replayOwner p.dstDev with
      | none => s
      | some n =>
        let core := 288 * (p.dstDie % 8) + 18 * (p.dstRow % 16) + p.dstCol
        let t := s.rtable n
        let r := { p with data := p.data.take 8 }
        (s.setRtable n (t.map fun e => if e.matches p core p.dstDev then { e with reply := some r } else e)).emit (.pkt p))

/-- An entry untouched for 2T is freed and counted (R321). -/
def execReplayEntryExpire (stop : Fin 4) (index : Nat) (s : State) : Host.Outcome State Fault Refusal :=
  .next (
    let n := 20 + stop.val
    match (s.rtable n)[index]? with
    | none => s
    | some e =>
      if e.touched + 2 * s.xportT ≤ s.now then (s.count R.fabReplayStats 0 32).setRtable n ((s.rtable n).eraseIdx index) else s)

/-- A port stop leaves service: its entries are lost, and the keys it owned are treated from this moment
(R318). -/
def State.replayStopOut (s : State) (n : Nat) : State :=
  let mine := (rangeFrom 0 4).filter fun r => decide (s.replayOwner r = some n)
  mine.foldl (fun s r => { s with xport := { s.xport with tUp := SMap.set (fun _ => none) s.xport.tUp (100 + r) (some s.now) } })
    (s.setRtable n [])

end Sys2Proof.Machine
end

