-- ==== Sys2Proof/Machine/DieOps.lean ====
section
/-!
DEFINITION. What ends when a die goes down or into reset (R165, R208, R217, R256, R456).
-/

namespace Sys2Proof.Machine

/-- A core after a reset: its own draws of free values go on counting. -/
def State.freshCore (s : State) (k : Nat) (spare : Bool) : State :=
  s.setCore k { Core.reset spare with free := (s.coreAt k).free, cycOff := (s.envAt k).clk }

/-- Sets the state and cause of a die (R476). -/
def State.setDie (s : State) (d st : Nat) : State := s.setRfld (R.rstDieStatus d) 0 3 st
def State.setDieCause (s : State) (d c : Nat) : State := s.setRfld (R.rstDieStatus d) 4 3 c

/-- Is an offset in the window of a die? -/
def inDieWindow (d off : Nat) : Bool := decide (0x500000 + 0x100000 * d ≤ off) && decide (off < 0x600000 + 0x100000 * d)

/-- What the compute stop had of a die (R205, R456 step 1): a request that waited for a reply slot is refused with
DIE_DOWN, and a CPUT or MSG that it passed into the die without acknowledgement is answered OUTCOME_UNKNOWN. -/
def State.stopAnswers (s : State) (d : Nat) : State :=
  let s := (SMap.get (fun _ => []) s.base.slotWait d).foldl (fun s p => s.emit (.pkt (p.fail 1))) s
  let s := s.meshSync
  let s := (s.mesh.flying.filter fun e => decide (e.dst / 288 = d) && decide (e.exit = 4) && decide (e.src % 8 < 4)
      && (decide (e.pkt.type = PT.cput) || decide (e.pkt.type = PT.msg))).foldl (fun s e => s.emit (.pkt (e.pkt.fail 2))) s
  { s with base := { s.base with
      slots := s.base.slots.filter fun x => decide (x.1 ≠ d), slotWait := s.base.slotWait.filter fun x => decide (x.1 ≠ d) } }

/-- Everything of a die returns to its reset state, and what needed the die ends: launches and host
commands with DIE_DOWN, a save or resume with DIE_LOST, pending faults withdrawn. -/
def State.dieQuiet (s : State) (d : Nat) : State :=
  let s := s.stopAnswers d
  let dead := s.host.launches.filter fun l => l.cores.any fun k => decide (k / 288 = d)
  let s : State := { s with host := { s.host with launches := s.host.launches.filter fun l => !dead.contains l } }
  let s := dead.foldl (fun s l => s.endBy l.ring l.index 0x04 (BitVec.ofNat 64 (2 ^ d))) s
  let waits := s.dieQueue d
  let s := waits.foldl (fun s e => (s.unqueue e).endEntry e 0x04 (BitVec.ofNat 64 (2 ^ d))) s
  let s := match s.xfer d with
    | some x => (s.setXfer d none).xferEnd d x.save x.job x.ring x.index 2 []
    | none => s
  let s := s.withdrawFaults fun f => decide (f.core / 288 = d)
  let late := match s.fw.pausing with | some x => if x.die = d then x.late else [] | none => []
  let s : State := if s.reloading d then { s with fw := { s.fw with pausing := none } } else s
  let s := late.foldl (fun s r => s.replyFault r.1 r.2) s
  let m := s.mmu
  let s : State := { s with
    mmu := { m with
      utlb := m.utlb.filter fun x => decide (x.1 / 288 ≠ d), tlb := m.tlb.filter fun x => decide (x.1 ≠ d),
      walks := m.walks.filter fun w => decide (w.core / 288 ≠ d), stopped := m.stopped.filter fun x => decide (x.1 ≠ d),
      dieRsp := m.dieRsp.filter fun x => decide (x.1 ≠ d) },
    xport := { s.xport with slots := s.xport.slots.filter fun x => decide (x.1 / 16 / 288 ≠ d) },
    routers := s.routers.filter fun x => decide (x.1 / 288 ≠ d),
    mesh := s.meshSync.mesh.dropDie d,
    regs := s.regs.filter fun x => !inDieWindow d x.1,
    dieCtl := s.dieCtl.filter fun x => decide (x.1 ≠ d),
    stag := { s.stag with lostSeen := s.stag.lostSeen.filter fun x => decide (x.1 / 2 ≠ d) } }
  let s := (rangeFrom 0 288).foldl (fun s i => s.freshCore (288 * d + i) (decide (16 ≤ i % 18))) s
  let s := (s.setRfld (R.rstDieStatus d) 48 9 0).setRfld (R.dieMeshStatus d) 0 1 0
  ((dead.map (·.ring)) ++ waits.map (·.ring)).foldl (fun s r => s.pump r) s

/-- A die stays down (R165, R217, R457). -/
def State.dieStays (s : State) (d cause : Nat) : State :=
  ((s.setDie d 4).setDieCause d cause).event 0x0F04 (b1 d ++ b1 cause)

end Sys2Proof.Machine
end

