-- ==== Sys2Proof/Machine/Chomet.lean ====
section
/-!
DEFINITION. Windows, bursts, packets and control words of the Chomet base (R195 to R208).
-/

namespace Sys2Proof.Machine

/-- Waveguides of a stop's bundle (R195). -/
def wgCount (stop : Nat) : Nat :=
  if stop < 8 then 8 else if stop < 20 then 4 else if stop < 24 then 6 else if stop = 25 then 2 else 1

/-- Packets of a window at a reader (R196). -/
def windowPackets (stop : Nat) : Nat :=
  if stop < 8 then 256 else if stop < 20 then 128 else if stop < 24 then 256 else if stop = 25 then 64 else 32

/-- What a writer holds for a reader, and a reader for a writer. -/
def State.chW (s : State) (w r : Nat) : ChWriter := SMap.get (fun _ => ChWriter.reset) s.base.wr (28 * w + r)
def State.setChW (s : State) (w r : Nat) (x : ChWriter) : State :=
  { s with base := { s.base with wr := SMap.set (fun _ => ChWriter.reset) s.base.wr (28 * w + r) x } }
def State.chR (s : State) (r w : Nat) : ChReader := SMap.get (fun _ => ChReader.reset) s.base.rd (28 * r + w)
def State.setChR (s : State) (r w : Nat) (x : ChReader) : State :=
  { s with base := { s.base with rd := SMap.set (fun _ => ChReader.reset) s.base.rd (28 * r + w) x } }

/-- Is a stop in service? -/
def State.stopUp (s : State) (n : Nat) : Bool := bit (s.reg (R.baseStopStatus n)) 0

/-- The waveguides of a bundle in service (R207). -/
def State.wgsUp (s : State) (n : Nat) : List Nat :=
  (rangeFrom 0 (wgCount n)).filter fun w => !bit (s.reg (R.baseStopStatus n)) (16 + w)

/-- A control word: kind and fields, with its CRC (R198). -/
def ctlWord (kind : Nat) (fields : Nat) : Word := sealWord (BitVec.ofNat 64 (kind * 2 ^ 60 + fields))

/-- A stop takes a control word of a kind: one with a CRC error is discarded and counted (R198). -/
def State.ctlRecv (s : State) (at_ : Nat) (kind : Nat) (w : Word) (f : State → State) : State :=
  if fld w 0 8 ≠ crc8 w then s.count (R.baseStopErr at_) 32 8
  else if fld w 60 4 ≠ kind then s
  else f s

/-! Windows (R196, R199). -/

/-- The window numbers a reader has granted. -/
def State.windows (s : State) (r : Nat) : List Nat :=
  (rangeFrom 0 28).filterMap fun w => (s.chR r w).win

/-- Shows the number of windows granted. -/
def State.showWindows (s : State) (r : Nat) : State := s.setRfld (R.baseStopStatus r) 4 4 (s.windows r).length

/-- The reader's WIN_GRANT to a writer. -/
def grantWord (w win credits : Nat) : Word := ctlWord 3 (w * 2 ^ 55 + win * 2 ^ 52 + credits * 2 ^ 43)

/-- Grants a free window to a writer. -/
def State.grant (s : State) (r w : Nat) : State :=
  match (rangeFrom 0 8).find? fun n => !(s.windows r).contains n with
  | none => s
  | some n =>
    let x := s.chR r w
    let s := (s.setChR r w { x with win := some n, credits := windowPackets r, owed := 0 }).showWindows r
    s.emit (.ctl r (grantWord w n (windowPackets r)))

/-- Writers waiting at a reader, in order of request. -/
def State.waiting (s : State) (r : Nat) : List Nat := SMap.get (fun _ => []) s.base.waiting r
def State.setWaiting (s : State) (r : Nat) (l : List Nat) : State :=
  { s with base := { s.base with waiting := SMap.set (fun _ => []) s.base.waiting r l } }

/-- A writer asks a reader for a window, or for its credits if it holds one (R198, R199). -/
def execWinReq (at_ from_ : Stop) (word : Word) (s : State) : Host.Outcome State Fault Refusal :=
  .next (s.ctlRecv at_.val 2 word fun s =>
    let r := at_.val
    let w := from_.val
    if fld word 55 5 ≠ r then s
    else match (s.chR r w).win with
    | some n => s.emit (.ctl r (grantWord w n (s.chR r w).credits))
    | none =>
      if (s.windows r).length < 8 then s.grant r w
      else if (s.waiting r).contains w then s else s.setWaiting r (s.waiting r ++ [w]))

/-- A reader takes a window back and serves the writer that waits longest (R198, R199). -/
def execWinRelease (at_ from_ : Stop) (word : Word) (s : State) : Host.Outcome State Fault Refusal :=
  .next (s.ctlRecv at_.val 4 word fun s =>
    let r := at_.val
    let x := s.chR r from_.val
    if fld word 55 5 ≠ r ∨ x.win.isNone then s
    else
      let s := (s.setChR r from_.val { x with win := none, credits := 0, owed := 0 }).showWindows r
      match s.waiting r with
      | [] => s
      | w :: rest => (s.setWaiting r rest).grant r w)

/-- The writer's WIN_REQ to a reader. -/
def State.sendWinReq (s : State) (w r : Nat) : State :=
  (s.setChW w r { s.chW w r with reqAt := some s.now }).emit (.ctl w (ctlWord 2 (r * 2 ^ 55)))

/-- A writer that needs a window asks for it, unless it has asked. -/
def State.needWindow (s : State) (w r : Nat) : State :=
  let x := s.chW w r
  if x.win.isNone && x.reqAt.isNone then s.sendWinReq w r else s

def execWinReqRetry (w r : Stop) (s : State) : Host.Outcome State Fault Refusal :=
  .next (let x := s.chW w.val r.val
    match x.reqAt with
    | some t => if x.win.isNone && decide (2000 ≤ s.now - t) then s.sendWinReq w.val r.val else s
    | none => s)

/-- A writer gives its window back (R199): after 64 ns with nothing to send to the reader, or once the reader has
flagged a waiting writer. -/
def execWindowIdleRelease (w r : Stop) (s : State) : Host.Outcome State Fault Refusal :=
  .next (let x := s.chW w.val r.val
    let idle := x.retry.isEmpty && decide (64 ≤ s.now - x.last)
    if x.win.isSome && (idle || x.flagged.isSome) then
      (s.setChW w.val r.val { x with win := none, credits := 0, flagged := none }).emit (.ctl w.val (ctlWord 4 (r.val * 2 ^ 55)))
    else s)

/-! The seam (R13, R15, R16, R209). -/

/-- Is a stop on the east half (R13)? -/
def eastStop (n : Nat) : Bool :=
  (decide (4 ≤ n) && decide (n < 8)) || (decide (14 ≤ n) && decide (n < 20)) || decide (n = 22) || decide (n = 23) || decide (n = 25) ||
    decide (n = 27)

/-- Does the path of a burst from a writer to a reader cross the bridge? -/
def crossesSeam (w r : Nat) : Bool := eastStop w != eastStop r

/-- Does a burst announced now cross on the seam link (R209)? -/
def State.bySeamLink (s : State) (w r : Nat) : Bool := crossesSeam w r && !bit (s.reg R.baseSeamStatus) 0

/-- Bytes that a direction of the seam link moves in one REFCLK cycle (R15, R210). -/
def State.seamBytes (s : State) (dir : Nat) : Nat :=
  nth 0 [2560, 1280, 0] (s.rfld R.baseSeamStatus (if dir = 0 then 8 else 10) 2)

/-- Sends what waits for a direction within a number of bytes, the front first: what leaves, and what stays. -/
def seamServe : Nat → List SeamItem → List Out × List SeamItem
  | _, [] => ([], [])
  | n, x :: t =>
    if x.bytes ≤ n then
      let (o, l) := seamServe (n - x.bytes) t
      (.burst x.writer x.reader x.seq x.wg true x.pkt :: o, l)
    else ([], { x with bytes := x.bytes - n } :: t)

/-- One REFCLK cycle of a direction: what the classes of R15 above it leave free goes to management traffic, then to data
bursts (R16). How much they take is free (log entry 84). -/
def State.seamDir (s : State) (dir : Nat) : State :=
  let mine := s.base.seam.filter fun x => decide (x.dir = dir)
  let others := s.base.seam.filter fun x => decide (x.dir ≠ dir)
  let order := (mine.filter (·.mgmt)) ++ mine.filter fun x => !x.mgmt
  let (o, rest) := seamServe (s.seamBytes dir - Config.seamLoad dir s.time.coreClk) order
  ({ s with base := { s.base with seam := others ++ rest } } : State).emits o

def State.seamRun (s : State) : State :=
  if s.base.seam.isEmpty then s else (s.seamDir 0).seamDir 1

/-! Bursts and packets (R200 to R203). -/

/-- The ANNOUNCE of a burst. -/
def State.announce (s : State) (w : Nat) (readers : List Nat) (count : Nat) : State :=
  let n := SMap.get (fun _ => 0) s.base.bursts w
  let rmask := readers.foldl (fun m r => m ||| 2 ^ r) 0
  let wg := (s.wgsUp w).foldl (fun m g => m + 2 ^ g) 0
  let f := rmask * 2 ^ 32 + wg * 2 ^ 24 + s.rfld (R.baseStopStatus w) 2 2 * 2 ^ 22 + (count - 1) * 2 ^ 16 + n % 256 * 2 ^ 8
  let s := { s with base := { s.base with bursts := SMap.set (fun _ => 0) s.base.bursts w ((n + 1) % 256) } }
  s.emit (.ctl w (ctlWord 1 f))

/-- A packet of an announced burst leaves for one reader: by light, or it waits for the seam link. -/
def State.launch (s : State) (w r seq wg : Nat) (p : Pkt) : State :=
  if s.bySeamLink w r then
    let x : SeamItem := { dir := (eastStop w).toNat, mgmt := decide (p.meshVn = 3), bytes := 32 + (p.data.length + 31) / 32 * 32,
                          writer := w, reader := r, seq := seq, wg := wg, pkt := p }
    { s with base := { s.base with seam := s.base.seam ++ [x] } }
  else s.emit (.burst w r seq wg false p)

/-- Sends one packet to one reader: its seq, its place in the retry buffer, the waveguide in turn. -/
def State.sendOne (s : State) (w r i : Nat) (p : Pkt) : State :=
  let x := s.chW w r
  let gs := s.wgsUp w
  let wg := nth 0 gs (i % gs.length)
  (s.setChW w r { x with seq := (x.seq + 1) % 2 ^ 16, credits := x.credits - 1, last := s.now,
                         retry := x.retry ++ [(x.seq, wg, s.now, 0, p)] }).launch w r x.seq wg p

/-- Does a writer hold a window and `n` credits at a reader? -/
def State.hasCredits (s : State) (w n r : Nat) : Bool := (s.chW w r).win.isSome && decide (n ≤ (s.chW w r).credits)

/-- Announces and sends a burst; a burst that names several readers is a multicast under way (R203). -/
def State.sendBurst (s : State) (b : WaitBurst) : State :=
  let n := b.pkts.length
  let left := b.readers.flatMap fun r => (rangeFrom 0 n).map fun i => (r, ((s.chW b.writer r).seq + i) % 2 ^ 16)
  let s : State := if b.readers.length < 2 then s
    else { s with base := { s.base with casts := s.base.casts ++ [{ writer := b.writer, left := left }] } }
  let s := s.announce b.writer b.readers n
  b.readers.foldl (fun s r => ((rangeFrom 0 n).zip b.pkts).foldl (fun s (i, p) => s.sendOne b.writer r i p) s) s

/-- Goes through the bursts that wait, in order: one whose readers all give a window with enough credits starts, unless
an earlier one waits for one of the same writer's readers; the others wait on and ask for the windows they lack (R203). -/
def State.startBursts (s : State) : List WaitBurst → List (Nat × Nat) → State
  | [], _ => s
  | b :: t, busy =>
    let mine := b.readers.map fun r => (b.writer, r)
    if b.readers.all (s.hasCredits b.writer b.pkts.length) && !(mine.any busy.contains) && !(s.wgsUp b.writer).isEmpty then
      (s.sendBurst b).startBursts t busy
    else
      let s := b.readers.foldl (fun s r => s.needWindow b.writer r) s
      ({ s with base := { s.base with wait := s.base.wait ++ [b] } } : State).startBursts t (busy ++ mine)

/-- The bursts that wait look again. -/
def State.pumpBursts (s : State) : State :=
  ({ s with base := { s.base with wait := [] } } : State).startBursts s.base.wait []

/-- May a compute stop send a packet of its die to a reader (R204)? The fabric chooses among the port stops, and the
entry of a context directs its COL packets. -/
def State.readerOk (s : State) (p : Pkt) (r : Nat) : Bool :=
  if p.dstDev ≠ s.devIndex then decide (20 ≤ r) && decide (r < 24)
  else if p.meshVn = 2 then true
  else if p.type ≤ PT.memAtom then (if p.host then decide (r = 24) else decide (r = 8 + (s.home p.addr).1))
  else if p.meshVn = 3 then s.held && decide (r = 26 + s.holder)
  else decide (r = p.dstDie)

/-- A compute stop takes a packet from an egress group of its die (R168, R205): a reply that it sends on frees its reply
slot, and a request that waited for one goes into the die. None: the packet has not arrived. -/
def State.leaveDie (s : State) (d : Nat) (p : Pkt) : Option State :=
  (s.meshTake p (atEdge d)).map fun s =>
    if p.meshVn ≠ 1 then s
    else
      let l := SMap.get (fun _ => []) s.base.slotWait d
      match l with
      | [] => { s with base := { s.base with slots := SMap.set (fun _ => 0) s.base.slots d (SMap.get (fun _ => 0) s.base.slots d - 1) } }
      | q :: t => ({ s with base := { s.base with slotWait := SMap.set (fun _ => []) s.base.slotWait d t } } : State).enterDie d q

/-- A writer has packets for readers: the burst starts once it holds a window and credits at every reader named; else
it asks for the windows it lacks, and the burst waits (R199, R200, R203). -/
def execBurstStart (w : Stop) (readers : List Stop) (pkts : List Pkt) (s : State) : Host.Outcome State Fault Refusal :=
  .next (
    let rs := (readers.map (·.val)).eraseDups.filter fun r => decide (r ≠ w.val)
    let n := pkts.length
    if rs.isEmpty || decide (n = 0) || decide (64 < n) || (s.wgsUp w.val).isEmpty || !s.stopUp w.val then s
    else
      let taken := if 8 ≤ w.val then some s
        else if pkts.all fun p => rs.all (s.readerOk p) then pkts.foldl (fun o p => o.bind fun s => s.leaveDie w.val p) (some s)
        else none
      match taken with
      | none => s
      | some s =>
        ({ s with base := { s.base with wait := s.base.wait ++ [{ writer := w.val, readers := rs, pkts := pkts }] } } : State).pumpBursts)

/-- A writer takes a window with its credits (R199): the bursts that wait look again. -/
def execWinGrant (at_ from_ : Stop) (word : Word) (s : State) : Host.Outcome State Fault Refusal :=
  .next (s.ctlRecv at_.val 3 word fun s =>
    if fld word 55 5 ≠ at_.val then s
    else
      let x := s.chW at_.val from_.val
      (s.setChW at_.val from_.val { x with win := some (fld word 52 3), credits := fld word 43 9, reqAt := none, last := s.now }).pumpBursts)

/-- A MAP word moves a data channel onto a spare, or back from the spare that carries it (log entry 38). -/
def flipMove (m : Nat × Nat × Nat) (l : List (Nat × Nat × Nat)) : List (Nat × Nat × Nat) :=
  if l.contains m then l.erase m else l ++ [m]

/-- The map that a reader uses once an announcement names a generation: every move that a MAP word named up to it
(R197). -/
def ChReader.adopt (x : ChReader) (gen : Nat) : ChReader :=
  match x.maps.findIdx? fun m => decide (m.1 = gen) with
  | none => x
  | some i =>
    { x with mapGen := gen, moved := (x.maps.take (i + 1)).foldl (fun l m => flipMove m.2 l) x.moved, maps := x.maps.drop (i + 1) }

/-- A reader takes an announcement (R197, R200): the burst's bank is unparked, and its packets take credits; the burst
keeps the map that it was announced with. -/
def execAnnounce (at_ from_ : Stop) (word : Word) (s : State) : Host.Outcome State Fault Refusal :=
  .next (s.ctlRecv at_.val 1 word fun s =>
    if !bit word (32 + at_.val) then s
    else
      let x := (s.chR at_.val from_.val).adopt (fld word 22 2)
      let n := fld word 16 6 + 1
      s.setChR at_.val from_.val { x with
        credits := x.credits - n,
        bursts := x.bursts ++ [{ wg := fld word 24 8, cast := decide (fld word 32 28 ≠ 2 ^ at_.val), left := n, moved := x.moved, at_ := s.now }] })

/-- A MAP word: the new map waits for the first burst that names its generation (R197). -/
def execMap (at_ from_ : Stop) (word : Word) (s : State) : Host.Outcome State Fault Refusal :=
  .next (s.ctlRecv at_.val 7 word fun s =>
    let x := s.chR at_.val from_.val
    s.setChR at_.val from_.val { x with maps := x.maps ++ [(fld word 49 2, fld word 57 3, fld word 52 5, fld word 51 1)] })

/-- The reader's ACK: everything before the expected seq, the credits it owes, a waiting writer. -/
def State.ack (s : State) (r w : Nat) : State :=
  let x := s.chR r w
  let upto := (x.expect + 2 ^ 16 - 1) % 2 ^ 16
  let s := s.setChR r w { x with credits := x.credits + x.owed, owed := 0 }
  s.emit (.ctl r (ctlWord 5 (w * 2 ^ 55 + upto * 2 ^ 39 + x.owed * 2 ^ 30 + (!(s.waiting r).isEmpty).toNat * 2 ^ 29)))

/-- Delivers what is in order from the held packets (R202). -/
def deliverHeld : Nat → Nat → List (Nat × Pkt) → Nat × List (Nat × Pkt) × List Pkt
  | 0, e, h => (e, h, [])
  | fuel + 1, e, h =>
    match h.find? fun x => decide (x.1 = e) with
    | none => (e, h, [])
    | some (_, p) =>
      let (e', h', ps) := deliverHeld fuel ((e + 1) % 2 ^ 16) (h.filter fun x => decide (x.1 ≠ e))
      (e', h', p :: ps)

/-- Does a packet that reaches a compute stop go into its die: a request, or a reply to the die's own core from this
device? A reply from another device is the transport's, and COL packets are the context's. -/
def State.goesIn (s : State) (p : Pkt) : Bool :=
  decide (p.dstDev = s.devIndex) && (decide (p.meshVn = 0) || (decide (p.meshVn = 1) && decide (p.srcDev = s.devIndex)))

/-- Reply slots of a compute stop (R205). -/
def replySlots : Nat := 4096

/-- A compute stop passes a packet into its die (R205, R208): a request only with a reply slot for its reply. A die that
is down answers DIE_DOWN. -/
def State.intoDie (s : State) (d : Nat) (p : Pkt) : State :=
  if p.meshVn ≠ 0 then (if s.dieUp d then s.enterDie d p else s)
  else if !s.dieUp d then s.emit (.pkt (p.fail 1))
  else
    let n := SMap.get (fun _ => 0) s.base.slots d
    if n < replySlots then
      ({ s with base := { s.base with slots := SMap.set (fun _ => 0) s.base.slots d (n + 1) } } : State).enterDie d p
    else { s with base := { s.base with slotWait := SMap.set (fun _ => []) s.base.slotWait d (SMap.get (fun _ => []) s.base.slotWait d ++ [p]) } }

/-- What a stop does with a packet that a burst brought it. -/
def State.delivered (s : State) (r : Nat) (p : Pkt) : State :=
  if r < 8 ∧ s.goesIn p then s.intoDie r p else s.emit (.pkt p)

/-- One packet of the front burst is over; after the last the bank parks again (R200). -/
def endOne : List ChBurst → List ChBurst
  | [] => []
  | b :: t => if b.left ≤ 1 then t else { b with left := b.left - 1 } :: t

/-- A packet arrives at a reader whose bank is unparked (R200, R202): rejected on a CRC error, delivered in seq order,
held behind a gap, or a duplicate acknowledged again. A bank that is parked receives nothing. -/
def execChometPacket (r w : Stop) (seq : Nat) (crcOk : Bool) (p : Pkt) (s : State) : Host.Outcome State Fault Refusal :=
  .next (
    let x := s.chR r.val w.val
    match x.bursts with
    | [] => s
    | b :: _ =>
      let x := { x with bursts := endOne x.bursts }
      if !crcOk then
        ((s.setChR r.val w.val { x with owed := x.owed + 1 }).count (R.baseStopErr r.val) 40 24).emit
          (.ctl r.val (ctlWord 6 (w.val * 2 ^ 55 + seq % 2 ^ 16 * 2 ^ 39)))
      else
        let s := s.traceRecv w.val r.val seq (s.now - b.at_) b.cast p
        let ahead := (seq + 2 ^ 16 - x.expect) % 2 ^ 16
        if 2 ^ 15 ≤ ahead ∨ x.held.any fun y => decide (y.1 = seq % 2 ^ 16) then
          (s.setChR r.val w.val { x with owed := x.owed + 1 }).ack r.val w.val
        else
          let (e, h, ps) := deliverHeld (x.held.length + 1) x.expect (x.held ++ [(seq % 2 ^ 16, p)])
          let s := s.setChR r.val w.val { x with expect := e, held := h, owed := x.owed + ps.length }
          if ps.isEmpty then s else (ps.foldl (fun s p => s.delivered r.val p) s).ack r.val w.val)

/-- Every (reader, seq) that a reader has acknowledged leaves the writer's multicasts; one with nothing left counts as
delivered (R203). -/
def State.castAck (s : State) (w r : Nat) (done : Nat → Bool) : State :=
  let l := s.base.casts.map fun c => if c.writer = w then { c with left := c.left.filter fun x => !(decide (x.1 = r) && done x.2) } else c
  let n := (l.filter fun c => decide (c.writer = w) && c.left.isEmpty).length
  { s with base := { s.base with
      casts := l.filter fun c => !c.left.isEmpty
      delivered := SMap.set (fun _ => 0) s.base.delivered w (SMap.get (fun _ => 0) s.base.delivered w + n) } }

/-- A writer takes an ACK (R199, R202, R203): the bursts that wait look again. -/
def execChometAck (at_ from_ : Stop) (word : Word) (s : State) : Host.Outcome State Fault Refusal :=
  .next (s.ctlRecv at_.val 5 word fun s =>
    if fld word 55 5 ≠ at_.val then s
    else
      let x := s.chW at_.val from_.val
      let upto := fld word 39 16
      let done := fun q => decide ((upto + 2 ^ 16 - q) % 2 ^ 16 < 2 ^ 15)
      let keep := x.retry.filter fun (q, _) => !done q
      let flagged := if bit word 29 then (match x.flagged with | some t => some t | none => some s.now) else none
      ((s.setChW at_.val from_.val { x with retry := keep, credits := x.credits + fld word 30 9, flagged := flagged }).castAck
        at_.val from_.val done).pumpBursts)

/-- A stop has lost its whole bundle, or cannot hold its filter banks: it is out of service (R207). Its consequences: a
compute die is down, a stack's pseudo-channels fail, three ports go down. Of the host, Bolmin and stag stops the spec
says no more than that no burst leaves them (log entry 84). -/
def State.stopOut (s : State) (n : Nat) : State :=
  let s := if 20 ≤ n ∧ n < 24 then s.replayStopOut n else s
  let s := (s.setRfld (R.baseStopStatus n) 0 1 0).event 0x0605 (b1 n)
  if n < 8 then (s.dieQuiet n).setDie n 4
  else if n < 20 then
    let s := s.setRfld (R.memStackStatus (n - 8)) 1 1 1
    (rangeFrom 0 32).foldl (fun s pc => if s.mem.map.contains (32 * (n - 8) + pc) then s.pcFailing (n - 8) pc else s) s
  else if n < 24 then
    (rangeFrom (3 * (n - 20)) 3).foldl (fun s p => s.linkDown p 1) s
  else s

/-- Takes a waveguide out of its bundle (R207): packets awaiting it move onto the others. -/
def State.retireWg (s : State) (stop wg : Nat) : State :=
  if bit (s.reg (R.baseStopStatus stop)) (16 + wg) then s
  else
    let s := s.setReg (R.baseStopStatus stop) (setBit (s.reg (R.baseStopStatus stop)) (16 + wg) true)
    let s := (s.event 0x0604 (b1 stop ++ b1 wg)).ledger 28
    let up := s.wgsUp stop
    if up.isEmpty then s.stopOut stop
    else
      let other := nth 0 up 0
      { s with base := { s.base with wr := s.base.wr.map fun (k, x) =>
          if k / 28 = stop then (k, { x with retry := x.retry.map fun (q, g, r) => (q, (if g = wg then other else g), r) })
          else (k, x) } }

/-- Resends one packet to one reader alone, in a burst of its own, once the writer holds a window and a credit there;
after 8 resends its waveguide is retired first (R200, R202). A stop that has lost its last waveguide sends nothing. -/
def State.resend (s : State) (w r seq : Nat) : State :=
  match (s.chW w r).retry.find? fun x => decide (x.1 = seq) with
  | none => s
  | some (_, wg, _, n, _) =>
    if !s.hasCredits w 1 r then s.needWindow w r
    else
      let s := if 8 ≤ n then s.retireWg w wg else s
      match (s.chW w r).retry.find? fun x => decide (x.1 = seq) with
      | none => s
      | some (_, wg, _, _, p) =>
        if (s.wgsUp w).isEmpty then s
        else
          let x := s.chW w r
          let n' := if 8 ≤ n then 0 else n + 1
          let s := s.setChW w r { x with
            credits := x.credits - 1, retry := x.retry.map fun e => if e.1 = seq then (seq, wg, s.now, n', p) else e }
          let s := (s.count (R.baseStopErr w) 0 32).ledger 27
          let s := if crossesSeam w r then s.count R.baseSeamErr 0 32 else s
          (s.announce w [r] 1).launch w r seq wg p

def execChometNak (at_ from_ : Stop) (word : Word) (s : State) : Host.Outcome State Fault Refusal :=
  .next (s.ctlRecv at_.val 6 word fun s =>
    if fld word 55 5 ≠ at_.val then s else s.resend at_.val from_.val (fld word 39 16))

def execChometResendTimeout (w r : Stop) (seq : Nat) (s : State) : Host.Outcome State Fault Refusal :=
  .next (match (s.chW w.val r.val).retry.find? fun x => decide (x.1 = seq) with
    | some (_, _, t, _) => if 1000 ≤ s.now - t then s.resend w.val r.val seq else s
    | none => s)

end Sys2Proof.Machine
end

