-- ==== Sys2Proof/Machine/Boot.lean ====
section
/-!
DEFINITION. Boot control, the slots and what runs: the registers that show them, measurements, and the choice
of the boot ROM (R480, R484, R485, R495, R497, R498, R504).
-/

namespace Sys2Proof.Machine

/-- The slot that is not confirmed: the inactive slot, or the trial slot. -/
def FwState.other (f : FwState) : Bool := !f.boot.confirmed

/-- Contents and state of a slot: B (true) or A. -/
def FwState.slotData (f : FwState) (b : Bool) : List Byte := if b then f.slotB else f.slotA
def FwState.slotState (f : FwState) (b : Bool) : Nat := if b then f.boot.stateB else f.boot.stateA

/-- Boot control with another state of a slot. -/
def BootCtl.setState (c : BootCtl) (b : Bool) (v : Nat) : BootCtl := if b then { c with stateB := v } else { c with stateA := v }

/-- The minimum of the policy in force (R483). -/
def State.minVersion (s : State) : Nat := if s.fw.policy.isEmpty then 0 else policyMin s.fw.policy

/-- FW_STATUS.phase (R510). -/
def State.phase (s : State) : Nat := s.rfld R.fwStatus 8 3
def State.setPhase (s : State) (v : Nat) : State := s.setRfld R.fwStatus 8 3 v

/-- The registers that show slots, owner and policy follow package flash (R510, R511). -/
def State.fwShow (s : State) : State :=
  let f := s.fw
  let slot := fun b => BitVec.ofNat 64 (f.slotState b * 2 ^ 62 + imgVersion (f.slotData b))
  let s := s.setRfld R.fwStatus 3 1 f.boot.confirmed.toNat
  let s := (s.setReg R.fwSlotA (slot false)).setReg R.fwSlotB (slot true)
  let s := s.setReg R.fwSecver (BitVec.ofNat 64 (imgSecver f.slotB * 2 ^ 32 + imgSecver f.slotA))
  let w := s.reg R.secStatus
  let w := setFld (setFld w 1 3 ((!f.ownerKey.isEmpty).toNat + 2 * (!f.policy.isEmpty).toNat + 4 * (!f.ext.isEmpty).toNat)) 32 32 s.minVersion
  ((s.setReg R.secStatus w).setReg R.secOwnerId (BitVec.ofNat 64 (ownerId f.ownerKey))).setReg R.secPolicySeq
    (BitVec.ofNat 64 (if f.policy.isEmpty then 0 else policySeq f.policy))

/-- Changes boot control: the record takes the next sequence number, and goes to package flash (R480). -/
def State.setBoot (s : State) (c : BootCtl) : State :=
  let c := { c with seq := s.fw.boot.seq + 1 }
  (({ s with fw := { s.fw with boot := c } } : State).shortWrite (.boot c)).fwShow

/-- Marks a slot (R480). -/
def State.markSlot (s : State) (b : Bool) (v : Nat) : State := s.setBoot (s.fw.boot.setState b v)

/-- Shows or clears the schedule of an activation (R492). -/
def State.setSchedule (s : State) (t : Option Nat) : State :=
  let s := s.setBoot { s.fw.boot with atTime := t.getD 0 }
  s.setReg R.fwActTime (match t with | some t => BitVec.ofNat 64 (2 ^ 63 + t % 2 ^ 62) | none => 0)

/-- A measured item is loaded again or comes into force (R504). -/
def State.measure (s : State) (l : List (Nat × List Byte)) : State :=
  let m := l.foldl (fun (m : List (List Byte)) x => m.set x.1 x.2) s.fw.meas
  let s : State := { s with fw := { s.fw with meas := m } }
  s.setRfld R.secMeasSeq 0 32 (s.rfld R.secMeasSeq 0 32 + 1)

/-- The slot in which the running image lies comes into force. -/
def State.runSlot (s : State) (b : Bool) : State :=
  (s.setRfld R.fwStatus 4 1 b.toNat).measure (((imgMeas (s.fw.slotData b)).zip (rangeFrom 0 4)).map fun x => (x.2, x.1))

/-- A stored default record with its header (R498). -/
def defaultBytes (r : Nat × List Byte) : List Byte :=
  natToBytes 8 (crc32 r.2 * 2 ^ 32 + r.2.length % 2 ^ 24 * 2 ^ 8 + r.1 % 256) ++ r.2

/-- The map-out list, as a record of kind 4 (R231, R233). -/
def mapOutBytes (l : List Nat) : List Byte :=
  (rangeFrom 0 12).flatMap fun st => natToBytes 4 (l.foldl (fun n p => if p / 32 = st then n + 2 ^ (p % 32) else n) 0)

/-- Every default record that is stored: those that the host wrote, and the map-out list. -/
def State.defaultRecords (s : State) : List (Nat × List Byte) :=
  s.fw.defaults ++ (if s.mem.mapOut.isEmpty then [] else [(4, mapOutBytes s.mem.mapOut)])

/-- The trial ends in a fallback (R497): its slot is marked failed, and the host hears of it. -/
def State.failTrial (s : State) (cause : Nat) : State :=
  let t := s.fw.other
  let s := s.setBoot { s.fw.boot.setState t 3 with trial := false, arm := false }
  (((s.event 0x1006 (b1 t.toNat ++ b1 cause)).count R.fwStats 48 16).alert 5).ledger 50

/-- Does the image in a slot verify (R483)? -/
def State.slotVerifies (s : State) (b : Bool) : Bool := (imageFault s.minVersion (s.fw.slotData b)).isNone

/-- Each boot ROM boots a slot at a cold reset with a cause (R484, R485, R495, R497): the confirmed slot, or the
trial slot after an armed reset; the other one when it is valid or confirmed; else recovery. -/
def State.bootVerify (s : State) (cause : Nat) : State :=
  let c := s.fw.boot
  let armed := c.arm && decide (cause = 7)
  let first := if armed then s.fw.other else c.confirmed
  let slot := if s.slotVerifies first then some first
    else if (decide (s.fw.slotState (!first) = 1) || decide (s.fw.slotState (!first) = 2)) && s.slotVerifies (!first) then some (!first)
    else none
  match slot with
  | none =>
    let s := (s.setPhase 7).fwShow
    (s.count R.fwStats 16 16).alert 1
  | some b =>
    let s := if b = first then s else (s.markSlot first 3).count R.fwStats 16 16
    let s := s.setBoot { s.fw.boot with arm := false }
    let s : State := { s with fw := { s.fw with
      meas := imgMeas (s.fw.slotData b) ++ [s.fw.policy, s.fw.ext, s.defaultRecords.flatMap defaultBytes] } }
    let s := s.setRfld R.fwStatus 4 1 b.toNat
    if c.trial then
      if armed ∧ b = first then
        let s : State := { s with fw := { s.fw with onTrial := [0, 1] } }
        let s := s.setReg R.fwHealthDeadline (BitVec.ofNat 64 (s.now + 120000000000))
        (((s.event 0x1004 (b1 b.toNat ++ natToBytes 4 0)).count R.fwStats 32 16).ledger 49).setPhase 5
      else s.failTrial (if armed then 3 else 4)
    else if c.atTime ≠ 0 ∧ s.fw.slotState s.fw.other = 1 then (s.setSchedule (some c.atTime)).setPhase 3
    else s

end Sys2Proof.Machine
end

