-- ==== Sys2Proof/Machine/CoreSys.lean ====
section
/-!
DEFINITION. System instructions, interrupts and the die controller's writes of core CSRs
(R37, R59 to R72).
-/

namespace Sys2Proof.Machine

/-- `csr.rd`: rs1 must be 0, and the number must name a CSR. -/
def execCsrRd (i : Issue) (rd rs1 : Reg) (csr : BitVec 12) (s : State) : Host.Outcome State Fault Refusal :=
  .next (s.issue i (wordI i 0x29 rd rs1 csr) (decide (rs1 = 0) && csrExists csr.toNat)
    fun env c => (c.setG rd ((c.csrRead env csr.toNat).getD 0)).next)

/-- A CSR write by the core: rd must be 0, and the number must name a CSR. The pc moves on before
the write, so that what the write makes eligible is taken at the boundary after it (R65). -/
def csrWriteIns (i : Issue) (op : Nat) (how : CsrHow) (rd rs1 : Reg) (csr : BitVec 12) (s : State) : State :=
  s.issue i (wordI i op rd rs1 csr) (decide (rd = 0) && csrExists csr.toNat)
    fun env c => (c.next).csrWrite env csr.toNat how (c.rg rs1) false

def execCsrWr (i : Issue) (rd rs1 : Reg) (csr : BitVec 12) (s : State) : Host.Outcome State Fault Refusal :=
  .next (csrWriteIns i 0x2A .wr rd rs1 csr s)

def execCsrSet (i : Issue) (rd rs1 : Reg) (csr : BitVec 12) (s : State) : Host.Outcome State Fault Refusal :=
  .next (csrWriteIns i 0x2B .set rd rs1 csr s)

def execCsrClr (i : Issue) (rd rs1 : Reg) (csr : BitVec 12) (s : State) : Host.Outcome State Fault Refusal :=
  .next (csrWriteIns i 0x2C .clr rd rs1 csr s)

/-- Are the three register fields of an op 0x2D instruction 0 (R570)? -/
def noFields (rd rs1 rs2 : Reg) : Bool := decide (rd = 0) && decide (rs1 = 0) && decide (rs2 = 0)

/-- `sync.i`: commands are already the words a fetch sees, so only the pc moves (R57, log entry 11). -/
def execSyncI (i : Issue) (rd rs1 rs2 : Reg) (s : State) : Host.Outcome State Fault Refusal :=
  .next (s.issue i (wordR i 0x2D rd rs1 rs2 0) (noFields rd rs1 rs2) fun _ c => c.next)

/-- Entering sleep (R63): no effect when a source is eligible; the clock stops when every engine is
idle. Execution goes on after the `sleep`. -/
def Core.sleep (env : CoreEnv) (c : Core) : Core :=
  let c := c.next
  if (c.ctl.eligible c.cond).isSome then c
  else
    let c := { c with rs := .sleeping, ctl := { c.ctl with asleep := true } }
    if c.enginesIdle then c.stopClock env else c

/-- `sleep`: issued with a source already eligible, it has no effect and execution goes on (R63). -/
def execSleep (i : Issue) (rd rs1 rs2 : Reg) (s : State) : Host.Outcome State Fault Refusal :=
  .next (s.onCore i.core fun env c =>
    if decide (c.rs = .running) && (c.ctl.eligible c.cond).isSome && noFields rd rs1 rs2 && !i.parity
    then c.next
    else c.issue i (wordR i 0x2D rd rs1 rs2 1) (noFields rd rs1 rs2) fun c => c.sleep env)

/-- `trap`: the frame holds the next instruction (R67). -/
def execTrap (i : Issue) (rd rs1 rs2 : Reg) (s : State) : Host.Outcome State Fault Refusal :=
  .next (s.issue i (wordR i 0x2D rd rs1 rs2 2) (decide (rd = 0) && decide (rs2 = 0))
    fun _ c => c.exception 0x07 (c.rg rs1) (c.ctl.pc + 4) false)

/-- `eret`: illegal with an empty frame stack. What arrives before the next instruction or tick falls in E0 to E2
and abandons the exit (R37, R71, R72). -/
def execEret (i : Issue) (rd rs1 rs2 : Reg) (s : State) : Host.Outcome State Fault Refusal :=
  .next (s.onCore i.core fun _ c =>
    c.issue i (wordR i 0x2D rd rs1 rs2 3) (noFields rd rs1 rs2 && !c.ctl.frames.isEmpty)
      fun c => { c with ctl := c.ctl.exit fun _ => c.cond })

/-- `halt`: the state becomes halted by self; the pc stays past the instruction (R37). -/
def execHalt (i : Issue) (rd rs1 rs2 : Reg) (s : State) : Host.Outcome State Fault Refusal :=
  .next (s.issue i (wordR i 0x2D rd rs1 rs2 4) (noFields rd rs1 rs2)
    fun env c => (c.next).halt env .haltedSelf)

def execEbrk (i : Issue) (rd rs1 rs2 : Reg) (s : State) : Host.Outcome State Fault Refusal :=
  .next (s.issue i (wordR i 0x2D rd rs1 rs2 5) (noFields rd rs1 rs2)
    fun _ c => c.exception 0x08 0 (c.ctl.pc + 4) false)

/-! Interrupts. -/

/-- A core takes its eligible source (R69): a stalled instruction is abandoned, a sleeping core
wakes. A core whose clock is stopped restarts it first (CLOCK_RESTART). -/
def Core.takeInterrupt (c : Core) : Core :=
  if c.ctl.clkStopped then c
  else match c.rs with
    | .running | .stalled | .sleeping =>
      match c.ctl.eligible c.cond with
      | none => c
      | some n => { c with rs := .running, stall := none, ctl := c.ctl.takeSource n }
    | _ => c

/-- A core's stopped clock restarts for an eligible source (R422). -/
def Core.restartClock (env : CoreEnv) (c : Core) : Core :=
  if c.ctl.clkStopped && c.ctl.wakes c.cond then c.runClock env else c

/-- Source 26 fires once CORE_CYCLE reaches CORE_TIMER_CMP (R573). A stopped clock does not count. -/
def Core.timerFire (env : CoreEnv) (c : Core) : Core :=
  if c.timerArmed && !c.ctl.clkStopped && decide (c.timerCmp.toNat ≤ c.cycle env) && decide (c.rs ≠ .fenced)
  then { c with timerArmed := false }.edge 26 else c

def execCoreTimerFire (c : CoreId) (s : State) : Host.Outcome State Fault Refusal :=
  .next (s.onCore c fun env c => c.timerFire env)

/-- Source 27 fires once SYSTIME reaches CORE_SYSTIME_CMP (R573); the comparison runs outside the
island clock (R63). -/
def Core.systimeFire (env : CoreEnv) (c : Core) : Core :=
  if c.sysArmed && decide (c.sysCmp.toNat ≤ env.systime) && decide (c.rs ≠ .fenced)
  then { c with sysArmed := false }.edge 27 else c

def execCoreSystimeFire (c : CoreId) (s : State) : Host.Outcome State Fault Refusal :=
  .next (s.onCore c fun env c => c.systimeFire env)

/-- A write of a core's CSR by its die controller (R59, R60); a core that is down ignores it. -/
def State.dieCsrWrite (s : State) (c : CoreId) (k : Nat) (v : Word) : State :=
  s.onCore c fun env c => if c.rs = .fenced then c else c.csrWrite env k .wr v true

def execCoreCtlWrite (c : CoreId) (val : Word) (s : State) : Host.Outcome State Fault Refusal :=
  .next (s.dieCsrWrite c 0x006 val)

def execCoreFrameDepthWrite (c : CoreId) (val : Word) (s : State) : Host.Outcome State Fault Refusal :=
  .next (s.dieCsrWrite c 0x015 val)

def execCoreFrameTopWrite (c : CoreId) (val : Word) (s : State) : Host.Outcome State Fault Refusal :=
  .next (s.dieCsrWrite c 0x014 val)

def execCoreIntSwsetWrite (c : CoreId) (val : Word) (s : State) : Host.Outcome State Fault Refusal :=
  .next (s.dieCsrWrite c 0x021 val)

def execCoreIntPendClear (c : CoreId) (val : Word) (s : State) : Host.Outcome State Fault Refusal :=
  .next (s.dieCsrWrite c 0x020 val)

def execCoreTimerCmpWrite (c : CoreId) (val : Word) (s : State) : Host.Outcome State Fault Refusal :=
  .next (s.dieCsrWrite c 0x004 val)

def execCoreSystimeCmpWrite (c : CoreId) (val : Word) (s : State) : Host.Outcome State Fault Refusal :=
  .next (s.dieCsrWrite c 0x005 val)

def execCoreCntIrqWrite (c : CoreId) (n : Fin 16) (val : Word) (s : State) :
    Host.Outcome State Fault Refusal :=
  .next (s.dieCsrWrite c (0x030 + n.val) val)

end Sys2Proof.Machine
end

