-- ==== Sys2Proof/Machine/OptOps.lean ====
section
/-!
DEFINITION. Rings, channels and spares of the optics, and the move of a channel onto a spare and back (R197,
R388, R391, R396, R399).
-/

namespace Sys2Proof.Machine

/-! Addresses (R391). -/

def ringSite (a : Nat) : Nat := a / 2 ^ 30 % 4
def ringWriter (a : Nat) : Nat := a / 2 ^ 25 % 32
def ringReader (a : Nat) : Nat := a / 2 ^ 20 % 32
def ringWg (a : Nat) : Nat := a / 2 ^ 17 % 8
def ringLine (a : Nat) : Nat := a / 2 ^ 11 % 64
def ringPort (a : Nat) : Nat := a / 2 ^ 26 % 16

/-- Is it an address of a port's ring? -/
def ringOnPort (a : Nat) : Bool := decide (2 ≤ ringSite a)

/-- Does an address name a ring? Line 34 is on waveguide 0 only. -/
def ringOk (a : Nat) : Bool :=
  if 2 ^ 32 ≤ a ∨ a % 2 ^ 11 ≠ 0 then false
  else if ringOnPort a then decide (ringPort a < 12) && decide (a / 2 ^ 17 % 2 ^ 9 = 0) && decide (ringLine a ≤ 17)
  else decide (ringWriter a < 28) && decide (ringReader a < 28) && decide (ringWg a < wgCount (ringWriter a))
    && (decide (ringLine a ≤ 33) || (decide (ringLine a = 34) && decide (ringWg a = 0)))
    && (if ringSite a = 0 then decide (ringReader a ≠ ringWriter a) else decide (ringReader a = ringWriter a))

/-- Does an address name a receive channel: a filter's? -/
def chanOk (a : Nat) : Bool := ringOk a && decide (ringSite a % 2 = 0)

/-- The same place on another line. -/
def atLine (a l : Nat) : Nat := a - ringLine a * 2 ^ 11 + l * 2 ^ 11

/-! Values (R392, R407). -/

/-- What the search left in a ring, and in a channel: values that no rule states. -/
def ringFound (session a : Nat) : RingVal :=
  { set := fld ((Config.ringFound session a).setWidth 64) 0 16, target := fld ((Config.ringFound session a).setWidth 64) 16 16,
    err := 0, locked := true, failed := false }
def chanFound (session a : Nat) : ChanVal := { taps := Config.tapsFound session a, qual := Config.qualFound session a, rejects := 0 }

/-- A ring and a channel. -/
def State.ring (s : State) (a : Nat) : RingVal := SMap.get (ringFound s.opt.session) s.opt.rings a
def State.setRing (s : State) (a : Nat) (v : RingVal) : State :=
  { s with opt := { s.opt with rings := SMap.set (ringFound s.opt.session) s.opt.rings a v } }
def State.chan (s : State) (a : Nat) : ChanVal := SMap.get (chanFound s.opt.session) s.opt.chans a
def State.setChan (s : State) (a : Nat) (v : ChanVal) : State :=
  { s with opt := { s.opt with chans := SMap.set (chanFound s.opt.session) s.opt.chans a v } }

/-- Does the ring hold its line? -/
def State.ringGood (s : State) (a : Nat) : Bool := (s.ring a).locked && !(s.ring a).failed

/-! Channels of the base on spares (R197). -/

/-- Channels that a writer has on spares: waveguide, channel, spare 0 or 1. -/
def State.movedOf (s : State) (w : Nat) : List (Nat × Nat × Nat) := SMap.get (fun _ => []) s.base.moved w

/-- The writer moves a channel onto a spare or back with a MAP word of the next generation, and shows the
spares in use. -/
def State.mapMove (s : State) (w : Nat) (m : Nat × Nat × Nat) : State :=
  let l := flipMove m (s.movedOf w)
  let gen := (s.rfld (R.baseStopStatus w) 2 2 + 1) % 4
  let s : State := { s with base := { s.base with moved := SMap.set (fun _ => []) s.base.moved w l } }
  let s := (s.setRfld (R.baseStopStatus w) 2 2 gen).setRfld (R.baseStopStatus w) 8 6 l.length
  s.emit (.ctl w (ctlWord 7 (m.1 * 2 ^ 57 + m.2.1 * 2 ^ 52 + m.2.2 * 2 ^ 51 + gen * 2 ^ 49)))

/-- The spare of a waveguide that no channel uses and whose own ring is good, seen from a ring's reader. -/
def State.freeSpareWg (s : State) (a : Nat) : Option Nat :=
  (rangeFrom 0 2).find? fun i =>
    !((s.movedOf (ringWriter a)).any fun m => decide (m.1 = ringWg a) && decide (m.2.2 = i)) && s.ringGood (atLine a (32 + i))

/-! Lanes of a port on spare wavelengths (R399). -/

/-- The wavelength of a logical lane. -/
def State.laneWave (s : State) (p l : Nat) : Nat := SMap.get (fun k => k % 32) s.opt.lanes (32 * p + l)
def State.setLane (s : State) (p l w : Nat) : State :=
  { s with opt := { s.opt with lanes := SMap.set (fun k => k % 32) s.opt.lanes (32 * p + l) w } }

/-- The generation of a port's lane map. -/
def State.laneGen (s : State) (p : Nat) : Nat := SMap.get (fun _ => 0) s.opt.gens p
def State.setLaneGen (s : State) (p g : Nat) : State := { s with opt := { s.opt with gens := SMap.set (fun _ => 0) s.opt.gens p (g % 4) } }

/-- The received power margin of a wavelength of a port, in 0.25 dB over the minimum of -10.00 dBm (R399, R402). -/
def State.waveMargin (s : State) (p w : Nat) : Nat :=
  let power := signed (fld (s.chan (2 * 2 ^ 30 + p * 2 ^ 26 + w * 2 ^ 11)).qual 28 16) 16
  min 255 ((power + 1000) / 25).toNat

/-- The fields of an alignment block that tell the far end the lowest margin of this direction, and its wavelength (R399). -/
def State.marginWord (s : State) (p : Nat) : Nat :=
  let ws := (rangeFrom 0 18).filter fun w => (rangeFrom 0 16).any fun l => decide (s.laneWave p l = w)
  let m := ws.foldl (fun m w => min m (s.waveMargin p w)) 255
  m * 2 ^ 40 + (ws.find? fun w => decide (s.waveMargin p w = m)).getD 0 * 2 ^ 35

/-- Asks the far end to move a lane: the request leaves in an alignment block. -/
def State.askMove (s : State) (p l w : Nat) : State :=
  let g := (s.laneGen p + 1) % 4
  let s : State := { s with opt := { s.opt with moves := s.opt.moves.filter (fun m => decide (m.1 ≠ p ∨ m.2.1 ≠ l)) ++ [(p, l, w)] } }
  s.emit (.align p (g * 2 ^ 62 + l * 2 ^ 57 + w * 2 ^ 52 + 2 ^ 51 + s.marginWord p))

/-- A spare wavelength of a port that carries no lane and is asked for none. -/
def State.freeWave (s : State) (a : Nat) : Option Nat :=
  let p := ringPort a
  [16, 17].find? fun w => !((rangeFrom 0 16).any fun l => decide (s.laneWave p l = w))
    && !(s.opt.moves.any fun m => decide (m.1 = p) && decide (m.2.2 = w)) && s.ringGood (atLine a w)

/-! Either kind. -/

/-- Is a spare free for the channel of a ring? -/
def State.hasSpare (s : State) (a : Nat) : Bool := if ringOnPort a then (s.freeWave a).isSome else (s.freeSpareWg a).isSome

/-- Lane that a wavelength of a port carries. -/
def State.laneOf (s : State) (p w : Nat) : Option Nat := (rangeFrom 0 16).find? fun l => decide (s.laneWave p l = w)

/-- Has the channel of a ring been moved off its own line? -/
def State.isMoved (s : State) (a : Nat) : Bool :=
  if ringOnPort a then decide (ringLine a < 16) && decide (s.laneWave (ringPort a) (ringLine a) ≠ ringLine a)
  else (s.movedOf (ringWriter a)).any fun m => decide (m.1 = ringWg a) && decide (m.2.1 = ringLine a)

/-- A channel moves onto a free spare. -/
def State.moveOut (s : State) (a : Nat) : State :=
  if ringOnPort a then
    match s.laneOf (ringPort a) (ringLine a), s.freeWave a with
    | some l, some w => s.askMove (ringPort a) l w
    | _, _ => s
  else match s.freeSpareWg a with
    | some i => if ringLine a < 32 ∧ !s.isMoved a then s.mapMove (ringWriter a) (ringWg a, ringLine a, i) else s
    | none => s

/-- A channel returns to its own line. -/
def State.moveBack (s : State) (a : Nat) : State :=
  if !s.isMoved a then s
  else if ringOnPort a then s.askMove (ringPort a) (ringLine a) (ringLine a)
  else match (s.movedOf (ringWriter a)).find? fun m => decide (m.1 = ringWg a) && decide (m.2.1 = ringLine a) with
    | some m => s.mapMove (ringWriter a) m
    | none => s

/-- A channel's recalibration is abandoned: its traffic returns to its line. -/
def State.dropRecal (s : State) (a : Nat) : State :=
  if s.opt.recal.contains a then ({ s with opt := { s.opt with recal := s.opt.recal.erase a } } : State).moveBack a else s

/-- Can a stop's filter banks be held on no bundle that it reads (R207): have the waveguides of every other writer each
lost more filter rings of its bank than they have spares? The rule's "any bundle" is read as "any at all" (DEDUCED, log
entry 84). -/
def State.banksLost (s : State) (r : Nat) : Bool :=
  let bad := (s.opt.rings.filter fun x => ringOk x.1 && decide (ringSite x.1 = 0) && decide (ringReader x.1 = r) && !s.ringGood x.1).map (·.1)
  (rangeFrom 0 28).all fun w => decide (w = r) || (rangeFrom 0 (wgCount w)).all fun g =>
    decide (2 < (bad.filter fun a => decide (ringWriter a = w) && decide (ringWg a = g)).length)

/-- The channel of a ring that cannot hold its line goes to a spare; a base waveguide without one leaves its
bundle (R207, R393, R396). -/
def State.loseLine (s : State) (a : Nat) : State :=
  if ringOnPort a then s.moveOut a
  else
    let onSpare := if 32 ≤ ringLine a then (s.movedOf (ringWriter a)).find? fun m => decide (m.1 = ringWg a) && decide (m.2.2 = ringLine a - 32) else none
    if ringLine a = 34 ∨ (32 ≤ ringLine a ∧ onSpare.isNone) then s
    else
      let (s, chan) := match onSpare with
        | some m => (s.mapMove (ringWriter a) m, atLine a m.2.1)
        | none => (s, a)
      if s.isMoved chan then s
      else if s.hasSpare chan then s.moveOut chan
      else if ringSite a = 0 ∧ s.stopUp (ringReader a) ∧ s.banksLost (ringReader a) then s.stopOut (ringReader a)
      else
        let s := s.retireWg (ringWriter a) (ringWg a)
        { s with opt := { s.opt with lost := (s.opt.lost.erase (ringWriter a, ringWg a)) ++ [(ringWriter a, ringWg a)] } }

end Sys2Proof.Machine
end

