-- ==== Sys2Proof/Machine/Ints.lean ====
section
/-!
DEFINITION. Interrupts of every processor: taking one, the clock's restart, the firmware timers, and the
report of losses (R69, R415, R420, R422 to R424).
-/

namespace Sys2Proof.Machine

/-- Has the optics controller of a half, 0 west, 1 east, something to tell: a ring without lock, a channel whose results
were rejected, a source failed or being switched (R424)? -/
def State.opticsCond (s : State) (h : Nat) : Bool :=
  let half := fun (a : Nat) => decide ((eastStop (if ringOnPort a then 20 + ringPort a / 3 else ringWriter a)).toNat = h)
  let srcHalf := fun (n : Nat) => if n < 20 then decide (n / 10 = h) else decide ((eastStop (20 + (n - 20) % 12 / 3)).toNat = h)
  s.opt.rings.any (fun x => half x.1 && (!x.2.locked || x.2.failed)) || s.opt.chans.any (fun x => half x.1 && decide (0 < x.2.rejects)) ||
    (rangeFrom 0 44).any fun n => srcHalf n &&
      (decide (s.rfld (R.optSrcStatus n) 0 3 = 5) || s.opt.switches.any fun x => decide (x.old = n))

/-- Conditions of the level sources of a stag core (R424): stops with a retired waveguide or out of
service, stacks with a report, a queued MGMT entry, a mirrored output held, data of CHAIN_IN received, the optics of a
half. -/
def State.stagCond (s : State) : BitVec 256 :=
  let m := (rangeFrom 0 28).foldl (fun m n =>
    let st := s.reg (R.baseStopStatus n)
    if !bit st 0 || decide (0 < fld st 16 32) then m ||| srcBit n else m) (0 : BitVec 256)
  let m := (rangeFrom 0 12).foldl (fun m n =>
    if bit (s.reg (R.memStackStatus n)) 1 || decide (0 < fld (s.reg (R.memStackStatus n)) 32 32) then m ||| srcBit (40 + n) else m) m
  m ||| (if s.host.mgmt.isEmpty then 0 else srcBit 62) ||| (if s.stag.held.isEmpty then 0 else srcBit 64) |||
    (if s.fw.rx.isNone then 0 else srcBit 68) ||| (if s.opticsCond 0 then srcBit 72 else 0) ||| (if s.opticsCond 1 then srcBit 73 else 0)

/-- A die controller or stag core takes its eligible source (R69, R415). -/
def IntCtl.take (c : IntCtl) (cond : BitVec 256) : IntCtl :=
  if c.clkStopped then c
  else match c.eligible cond with
    | some n => c.takeSource n
    | none => c

/-- A stopped clock restarts for an event above the threshold and the running level (R421, R422). -/
def IntCtl.wake (c : IntCtl) (cond : BitVec 256) : IntCtl := if c.clkStopped && c.wakes cond then c.restart else c

/-- The edge sources whose event no row of the table names and nothing else in the device raises: of a core the
doorbell of its die controller and the debug request; of a die controller and of a stag core the corrected error of
its memory, the debug request and software (R64, R423, R424). Whether one arrives is an operand (log entry 79). -/
def bareSources : Proc → List Nat
  | .core _ => [25, 29]
  | .die _ => [27, 28, 29, 30]
  | .stag _ => [76, 77, 78, 79]

/-- An interrupt is taken at a boundary (R69, R415), after the events of `arrive` that the processor's table has. -/
def execInterruptTake (b : Boundary) (s : State) : Host.Outcome State Fault Refusal :=
  let l := (b.arrive.map Fin.val).filter (bareSources b.proc).contains
  .next (match b.proc with
    | .core c => s.onCore c fun _ c => if c.rs = .fenced then c else (l.foldl Core.edge c).takeInterrupt
    | .die d => s.setDieIntc d.val ((l.foldl IntCtl.edge (s.dieIntc d.val)).take (s.dieCond d.val))
    | .stag u => s.setStagIntc u.val ((l.foldl IntCtl.edge (s.stagIntc u.val)).take s.stagCond))

def execClockRestart (p : Proc) (s : State) : Host.Outcome State Fault Refusal :=
  .next (match p with
    | .core c => s.onCore c fun env c => c.restartClock env
    | .die d => s.setDieIntc d.val ((s.dieIntc d.val).wake (s.dieCond d.val))
    | .stag u => s.setStagIntc u.val ((s.stagIntc u.val).wake s.stagCond))

/-- The firmware timer or SYSTIME compare of a die controller or stag core raises its edge source; both cores
of a stag see it (R423, R424). A core's compares have rows of their own. -/
def execFirmwareTimerCompare (p : Proc) (systime : Bool) (s : State) : Host.Outcome State Fault Refusal :=
  .next (match p with
    | .core _ => s
    | .die d => s.dieEdge d.val (25 + systime.toNat)
    | .stag u => s.stagEdgeOf (u.val / 2) (74 + systime.toNat))

/-- Losses of a die: those of its cores, and its controller's own. -/
def State.coreLosses (s : State) (d : Nat) : Nat :=
  (s.cores.filter fun x => decide (x.1 / 288 = d)).foldl (fun n x => n + x.2.ctl.lost) 0

/-- A die controller reports losses to the holder, once every 1 ms at most (R420): the ledger counts those
since its last report. -/
def execLostEventReport (d : Die) (s : State) : Host.Outcome State Fault Refusal :=
  .next (
    let get := fun (m : SMap Nat) k => SMap.get (fun _ => 0) m k
    let last := get s.stag.lostSent d.val
    let cores := s.coreLosses d.val
    let own := (s.dieIntc d.val).lost
    let seenC := get s.stag.lostSeen (2 * d.val)
    let seenO := get s.stag.lostSeen (2 * d.val + 1)
    if (last ≠ 0 ∧ s.now < last + 1000000) ∨ (cores = seenC ∧ own = seenO) then s
    else
      let s := (s.ledgerBy 43 (cores - seenC)).ledgerBy 44 (own - seenO)
      { s with stag := { s.stag with
          lostSent := SMap.set (fun _ => 0) s.stag.lostSent d.val s.now,
          lostSeen := SMap.set (fun _ => 0) (SMap.set (fun _ => 0) s.stag.lostSeen (2 * d.val) cores) (2 * d.val + 1) own } })

end Sys2Proof.Machine
end

