-- ==== Sys2Proof/Machine/Reset.lean ====
section
/-!
DEFINITION. Resets: of a die, warm and cold (R164, R212 to R217, R439, R448 to R459, R498, R519, R520).
-/

namespace Sys2Proof.Machine

/-! Lane groups (R212, R216, R217). -/

/-- VLI_DIE_STATUS counts the groups in service and the spares left. -/
def State.countGroups (s : State) (d : Nat) : State :=
  let n := fun role => (s.groupsIn d role).length
  let f := bit (s.reg (R.vliDieStatus d)) 32
  s.setReg (R.vliDieStatus d) (BitVec.ofNat 64 (f.toNat * 2 ^ 32 + n 3 * 2 ^ 24 + n 2 * 2 ^ 16 + n 1 * 2 ^ 8 + n 0))

/-- The role whose groups are below the minimum, if one is (R217). -/
def State.roleBelow (s : State) (d : Nat) : Option Nat :=
  if (s.groupsIn d 0).length < 4 then some 0
  else if (s.groupsIn d 1).length < 4 then some 1
  else if (s.groupsIn d 2).isEmpty then some 2
  else none

/-- The lowest spare group of a die takes the role of a retired one (R27, R216). The 2-bit role field has no code for a
group that lost its role: it keeps the old one (DESIGN CHOICE, log entry 84). -/
def State.replaceGroup (s : State) (d g : Nat) : State :=
  let k := 40 * d + g
  let role := s.rfld (R.vliGroupStatus k) 0 2
  let spare := if role = 3 then none else (s.groupsIn d 3).head?
  let s := match spare with
    | some x => (s.setRfld (R.vliGroupStatus (40 * d + x)) 16 6 g).setRfld (R.vliGroupStatus (40 * d + x)) 0 2 role
    | none => s
  (s.ledger 30).event 0x0607 (b1 d ++ b1 g ++ b1 (spare.getD 0x3F))

/-- Writes DIE_MESH_EGRESS_MAP from the egress groups in service (R168, R216). -/
def State.writeEgress (s : State) (d : Nat) : State :=
  let l := s.groupsIn d 0
  (rangeFrom 0 36).foldl (fun s k => s.setReg (R.dieMeshEgressMap d k) (egressReg l k)) s

/-! Start-up of a die (R164 to R166, R217). -/

/-- The two spare columns of a row: failing ones first, then passing ones from the highest down. -/
def spareCols (fails : List Nat) : List Nat :=
  let two := (fails ++ ((rangeFrom 0 18).reverse.filter fun c => !fails.contains c)).take 2
  (rangeFrom 0 18).filter two.contains

/-- Columns of a row of a die that fail. -/
def failsOf (cores : List CoreId) (d r : Nat) : List Nat :=
  (rangeFrom 0 18).filter fun c => cores.any fun k => decide (k.die.val = d) && decide (k.row.val = r) && decide (k.col.val = c)

/-- Writes the spare map of a die and leaves every core as core reset does (R60, R164). -/
def State.writeSpares (s : State) (d : Nat) (cores : List CoreId) : State :=
  let s := (rangeFrom 0 16).foldl (fun s r =>
    let l := spareCols (failsOf cores d r)
    s.setRfld (R.dieMeshSpareMap d (r / 4)) (16 * (r % 4)) 10 (nth 0 l 0 + 32 * nth 0 l 1)) s
  (rangeFrom 0 288).foldl (fun s i =>
    s.freshCore (288 * d + i) ((spareCols (failsOf cores d (i / 18))).contains (i % 18))) s

/-- Do the checks of a die's start-up pass? -/
def State.dieChecks (s : State) (d : Nat) (cores : List CoreId) : Bool :=
  ((rangeFrom 0 16).all fun r => decide ((failsOf cores d r).length ≤ 2)) && (s.roleBelow d).isNone

/-! A die reset (R256, R456 steps 1 and 2). -/

/-- Enters a die reset with a cause of R449. -/
def State.resetDie (s : State) (d cause : Nat) : State :=
  let s := ((s.dieQuiet d).setDie d 1).setDieCause d cause
  (s.count (R.rstDieStatus d) 32 16).ledger (8 + cause)

/-- Is the device running, neither in start-up nor in a warm or cold reset? -/
def State.running (s : State) : Bool := decide (s.rfld R.rstStatus 0 2 = 1)

/-- Automatic resets of a die in the ledger hour window in force (R457). -/
def State.autoCount (s : State) (d : Nat) : Nat :=
  let h := s.hourWin + 1
  if SMap.get (fun _ => 0) s.therm.autoHour d = h then s.rfld (R.rstDieStatus d) 8 4 else 0

def State.autoReset (s : State) (d cause : Nat) : State :=
  let h := s.hourWin + 1
  let n := s.autoCount d
  if 3 ≤ n then (s.dieQuiet d).dieStays d cause
  else
    let s : State := { s with therm := { s.therm with autoHour := SMap.set (fun _ => 0) s.therm.autoHour d h } }
    (s.resetDie d cause).setRfld (R.rstDieStatus d) 8 4 (n + 1)

/-- A die reset by command (cause 1), by the device itself (2, 3), or a die fenced for want of lane groups
(4). One under way absorbs it, and so does a wider reset (R450, R456, R457, R474). -/
def State.dieReset (s : State) (d cause : Nat) : State :=
  let st := s.dieState d
  if !s.running then s
  else if cause = 1 then (if st = 0 ∨ st = 4 then s.resetDie d 1 else s)
  else if st ≠ 0 then s
  else if cause = 4 then (s.resetDie d 4).dieStays d 4
  else if cause = 2 ∨ cause = 3 then s.autoReset d cause
  else s

def execDieReset (d : Die) (cause : Fin 5) (s : State) : Host.Outcome State Fault Refusal := .next (s.dieReset d.val cause.val)

/-- RST_DIE_CMD cmd 2: the die is held after step 2 (R458). -/
def State.holdDie (s : State) (d : Nat) : State :=
  if s.running ∧ (s.dieState d = 0 ∨ s.dieState d = 4) then (s.dieQuiet d).setDie d 3 else s

/-- RST_DIE_CMD cmd 3: a held die goes on with step 3. -/
def State.releaseDie (s : State) (d : Nat) : State := if s.dieState d = 3 then s.setDie d 2 else s

def execRstDieCmdHold (d : Die) (s : State) : Host.Outcome State Fault Refusal := .next (s.holdDie d.val)

def execRstDieCmdRelease (d : Die) (s : State) : Host.Outcome State Fault Refusal := .next (s.releaseDie d.val)

/-- A die controller that has loaded its image runs the owner extension if one is stored and verifies; else the
die runs without it and the host hears of it (R501). -/
def State.dieExt (s : State) (d : Nat) : State :=
  if s.fw.ext.isEmpty || extOk s.fw.ownerKey s.minVersion s.fw.ext then s else s.event 0x1008 (b1 d)

/-- The supply of a die at step 3 (R544): its voltage, in steps of 2 mV above 0.60 V, or none where the regulator did not
answer three attempts. MGT_AVS counts from 0.50 V (R560). -/
def State.dieSupply (s : State) (d : Nat) (avs : Option (Fin 101)) : State :=
  match avs with
  | some v => (s.setRfld R.mgtAvs (8 * d) 8 (50 + v.val)).setRfld R.mgtRailStatus (24 + d) 1 0
  | none => ((s.setRfld R.mgtRailStatus (24 + d) 1 1).event 0x1302 (b1 d)).alert 4

/-- Shows the segments of a die that are mesochronous (R171, R194). -/
def State.showSegments (s : State) (d : Nat) (h : List (Fin 272)) (v : List (Fin 270)) : State :=
  let put := fun (s : State) (r : Nat) (i : Nat) => s.setReg (r + 8 * (i / 64)) (setBit (s.reg (r + 8 * (i / 64))) (i % 64) true)
  let s := h.foldl (fun s i => put s (R.dieMeshSegH d 0) i.val) s
  let s := v.foldl (fun s i => put s (R.dieMeshSegV d 0) i.val) s
  let n := (rangeFrom 0 272).foldl (fun n i => n + (bit (s.reg (R.dieMeshSegH d 0 + 8 * (i / 64))) (i % 64)).toNat
    + (bit (s.reg (R.dieMeshSegV d 0 + 8 * (i / 64))) (i % 64)).toNat) 0
  s.setRfld (R.dieMeshStatus d) 32 10 n

/-- The deskew and the supply of a die, and do they let it start? -/
def State.dieTest (s : State) (d : Nat) (t : DieTest) : State × Bool :=
  let s := s.dieSupply d t.avs
  match t.deskew with
  | some (h, v) => ((s.showSegments d h v).setRfld (R.dieMeshStatus d) 0 1 1, t.avs.isSome && t.routers.isEmpty)
  | none => (s.setRfld (R.dieMeshStatus d) 0 1 0, false)

/-- The checks of a die's start-up end: `cores` failed the test (R164, R165, R171, R217, R456 steps 3 and 4). -/
def execDieStartUpDone (d : Die) (cores : List CoreId) (t : DieTest) (s : State) :
    Host.Outcome State Fault Refusal :=
  .next (
    let n := d.val
    let st := s.dieState n
    if st ≠ 1 ∧ st ≠ 2 then s
    else
      let (s, ok) := s.dieTest n t
      let cause := s.rfld (R.rstDieStatus n) 4 3
      if ok && s.dieChecks n cores then
        let s := ((((s.writeSpares n cores).writeEgress n).setDie n 0).setRfld (R.vliDieStatus n) 32 1 0).dieExt n
        s.event 0x0F03 (b1 n ++ b1 cause ++ b1 0)
      else (s.event 0x0F03 (b1 n ++ b1 cause ++ b1 1)).dieStays n 4)

/-! Fences (R459). -/

/-- The router of a core that is fenced answers each CPUT and MSG that it delivered and the core did not acknowledge with
OUTCOME_UNKNOWN (R191). -/
def State.answerUnknown (s : State) (k : Nat) : State :=
  (s.meshSync.mesh.unacked k).foldl (fun s e =>
    ({ s with mesh := s.mesh.remove e.id } : State).emit (.mesh k 5 (e.pkt.fail 2))) s.meshSync

/-- A core island or a router island is fenced: cause 0 clock, 1 handshake, 2 request of the die controller,
which is for a core only. A router fault takes the die down (R192). -/
def execIslandFence (c : CoreId) (router : Bool) (cause : Fin 3) (s : State) : Host.Outcome State Fault Refusal :=
  .next (
    let d := c.die.val
    let k := c.key
    if s.dieState d ≠ 0 ∨ (!router ∧ (s.coreAt k).rs = .fenced) ∨ (router ∧ cause = 2) then s
    else
      let r := R.clkIslandLoss
      let w := if router then satInc (s.reg r) 16 16 else satInc (s.reg r) 0 16
      let w := setFld w 48 15 (cause.val + router.toNat * 4 + c.col.val * 8 + c.row.val * 256 + d * 4096)
      let s := ((s.setReg r w).ledger 13).event 0x0F05 (b1 d ++ b1 c.row.val ++ b1 c.col.val ++ b1 router.toNat ++ b1 cause.val)
      if router then
        let s := (s.dieEdge d 19).dieReset d 2
        s.setRfld (R.dieMeshStatus d) 1 16 (1 + 2 ^ 7 * c.row.val + 2 ^ 11 * c.col.val)
      else
        let s := s.withdrawFaults fun f => decide (f.core = k)
        let s := s.onKey k fun env c => { (c.halt env .fenced) with pause := none, cycHeld := c.cycle env, ctl := { c.ctl with clkStopped := true, asleep := false } }
        let s := s.answerUnknown k
        s.setRfld (R.rstDieStatus d) 48 9 (s.rfld (R.rstDieStatus d) 48 9 + 1))

/-! Warm reset (R454, R455). -/

/-- Registers that a warm reset returns to their reset values: HIF, HIRQ, BOL, MMU and the die windows. -/
def warmClears (off : Nat) : Bool :=
  (decide (0x50000 ≤ off) && decide (off < 0x70000)) || (decide (0x340000 ≤ off) && decide (off < 0x380000))
    || (decide (0xA0000 ≤ off) && decide (off < 0x100000))
    || (decide (0x500000 ≤ off) && decide (off < 0xD00000))

/-- A port link restarts from training with its lanes locked; the host hears of the loss. -/
def State.warmPort (s : State) (p : Nat) : State :=
  let st := s.portState p
  if st < 2 then s
  else
    let l := s.link p
    let s := if 3 ≤ st ∧ st ≤ 5 then ((s.count (R.portLinkStats p) 32 16).ledger 22).event 0x0803 (b1 p ++ b1 2) else s
    ((s.setPortState p 2).setLink p l.fresh).sendTrain p

/-- Steps 1 to 3 of a warm reset. -/
def State.startWarm (s : State) : State :=
  let s := ((s.endSwap).setRfld R.rstStatus 0 2 2).ledger 8
  let s := ({ s with time := { s.time with good := 0 } } : State).setAligned false
  let s := (rangeFrom 0 8).foldl (fun s d =>
    if 3 ≤ s.dieState d then s else ((s.dieQuiet d).setDie d 1).count (R.rstDieStatus d) 32 16) s
  let s := (rangeFrom 0 64).foldl (fun s n => (s.freeCtx n).setCtxState n 0 0) s
  let s : State := { s with
    base := { BaseState.reset with moved := s.base.moved, vliFailed := s.base.vliFailed },
    xport := XportState.reset,
    fab := { s.fab with queue := [], relayBuf := [] } }
  let s := (rangeFrom 0 12).foldl (fun s p => s.warmPort p) s
  let s := s.bolDown 0 3
  let h := s.host
  let s : State := { s with
    regs := s.regs.filter fun x => !warmClears x.1,
    bol := { s.bol.fresh with streams := [] },
    mmu := { MmuState.reset with gen := s.mmu.gen, saveSeq := s.mmu.saveSeq, saved := s.mmu.saved },
    host := { HostState.reset with
      events := h.events, evSeq := h.evSeq, swapLow := h.swapLow, swapAt := h.swapAt, copyStart := h.copyStart,
      retrainAt := some s.now, seen := s.out.length, scr := h.scr, cws := h.cws } }
  let s := (rangeFrom 0 28).foldl (fun s n => s.setRfld (R.baseStopStatus n) 4 4 0) s
  (rangeFrom 0 8).foldl (fun s d => s.setRfld (R.dieMeshStatus d) 0 1 0) (s.setHif 4 0)

/-- RST_CMD cmd 1: refused while a warm reset runs (R454, R474). -/
def State.cmdWarm (s : State) : State :=
  if s.warm then s.count R.rstStatus 48 16 else if s.running then s.startWarm else s

def execRstCmdWarm (s : State) : Host.Outcome State Fault Refusal := .next s.cmdWarm

/-- The end of step 4, once no die is resetting or starting: contexts are created again, and a swap that
waited starts late (R454, R455). -/
def execWarmResetEnd (s : State) : Host.Outcome State Fault Refusal :=
  .next (
    if !s.warm || (rangeFrom 0 8).any fun d => decide (s.dieState d = 1) || decide (s.dieState d = 2) then s
    else
      let s := ((s.setRfld R.rstStatus 0 2 1).count R.rstStatus 32 16).alignMaster
      let s := (rangeFrom 0 64).foldl (fun s n => if bit (s.reg (R.colCtx n)) 0 then s.createCtx n else s) s
      if s.therm.swapWaits then s.startSwap true else s)

/-! Cold reset (R448 to R453). -/

/-- The ledger over a cold reset: the logs, and the lifetime counts of the record with the highest sequence
(R519, R520). -/
def LifeState.cold (l : LifeState) : LifeState :=
  let best := (l.hourLog ++ l.dayLog).foldl (fun (b : Option LifeRec) r =>
    match b with | some x => if x.seq < r.seq then some r else b | none => some r) none
  { LifeState.reset with
    hour := [], hourLog := l.hourLog, dayLog := l.dayLog, hourBad := l.hourBad, dayBad := l.dayBad,
    life := match best with | some r => itemsOf r.total | none => [],
    hourSeq := match l.hourLog.getLast? with | some r => r.seq + 1 | none => 0,
    daySeq := match l.dayLog.getLast? with | some r => r.seq + 1 | none => 0,
    hourSector := l.hourSector, daySector := l.daySector }

/-- The device held in cold reset: what survives is package flash, the trip record and THM_AON_MASK (R448); a short write
that waits is lost (R529).
Stops, links and lasers are off and no stag holds. -/
def State.holdCold (s : State) (cause : Nat) : State :=
  let r := State.reset
  let aon := s.regs.filter fun x => decide (x.1 = R.thmAonMask 0) || decide (x.1 = R.thmAonMask 1)
  let regs := [R.lifeStatus, R.lifeLastSeq, R.mgtAlertPend, R.mgtBoard].foldl (fun m o => SMap.set Regs.initial m o (s.reg o)) aon
  let t := s.therm
  let cores := s.cores.foldl (fun m x => SMap.set Core.initial m x.1 { Core.initial x.1 with free := x.2.free }) []
  let s' : State := { r with
    pending := s.pending, free := s.free, out := s.out, regs := regs, cores := cores,
    mesh := { MeshState.reset with seen := s.out.length }, fab := { FabState.reset with seen := s.out.length },
    bol := { BolState.reset with seen := s.out.length },
    mem := { r.mem with retired := s.mem.recorded, recorded := s.mem.recorded, trained := s.mem.trained, mapOut := s.mem.mapOut },
    host := { HostState.reset with seen := s.out.length },
    life := s.life.cold,
    fw := { FwState.reset with
      slotA := s.fw.slotA, slotB := s.fw.slotB, boot := bootInForce s.fw.copies, copies := s.fw.copies, defaults := s.fw.defaults, ownerKey := s.fw.ownerKey,
      policy := s.fw.policy, ext := s.fw.ext, meas := [] },
    therm := { ThermState.reset with tripped := t.tripped, tripState := t.tripState, trip := t.trip, coolAt := t.coolAt,
                                     cold := some (match t.cold with | some c => min c cause | none => cause) },
    pkg := { PkgState.reset with vio := s.pkg.vio, pwrgood := s.pkg.pwrgood, resetN := s.pkg.resetN, rose := s.pkg.rose,
                                 straps := s.pkg.straps, eid := s.pkg.eid, alert := s.pkg.alert,
                                 jtag := s.pkg.jtag, boundary := s.pkg.boundary } }
  let s' := ((s'.setRfld R.rstStatus 0 2 0).setRfld R.hifLinkStatus 0 3 0).setRfld R.hifLinkStatus 4 2 2
  let s' := s'.setRfld R.rstStatus 8 2 (s.rfld R.rstStatus 8 2)
  let s' := (rangeFrom 0 8).foldl (fun s d => s.setDie d 1) s'
  let s' := (rangeFrom 0 28).foldl (fun s n => s.setRfld (R.baseStopStatus n) 0 1 0) s'
  let s' := (rangeFrom 0 44).foldl (fun s n => s.setRfld (R.optSrcStatus n) 0 3 0) s'
  (s'.setReg R.mgtStagStatus (BitVec.ofNat 64 (3 + s.rfld R.mgtStagStatus 16 1 * 2 ^ 16))).setRfld R.optStatus 1 1 0

/-- Before a cold reset with code 3 or 7 the hour window's record is written, closed early (R519); the short writes asked
for before it come first (R529). -/
def State.closeForCold (s : State) : State :=
  let s := s.settleLedger
  let s := s.closeHour s.now s.now true
  s.fw.queue.foldl (fun s o => match o with
    | .ledger day seq r => s.storeRecord day seq r true
    | o => s.flashKeep o) s

/-- Enters cold reset with a cause; a trip keeps the device down for every cause but power-on, RESET_N and
the restart (R469 to R471). -/
def State.cold (s : State) (cause : Nat) : State :=
  if s.therm.tripped ∧ 3 ≤ cause ∧ cause ≠ 6 then s
  else (if cause = 3 ∨ cause = 7 then s.closeForCold else s).holdCold cause

/-- A map of 384 entries and its identifier, from a record of start-up defaults of kind 3, if valid (R225). -/
def mapOf (d : List Byte) : Option (List Nat × Nat) :=
  let e := (rangeFrom 0 384).map fun i => bytesToNat ((d.drop (2 * i)).take 2)
  if d.length = 770 ∧ (rangeFrom 0 384).all e.contains then some (e, bytesToNat ((d.drop 768).take 2)) else none

/-- Role of a group in a record of kind 1, and is a die's map valid (R212)? -/
def roleOf (d : List Byte) (die g : Nat) : Nat :=
  bytesToNat ((d.drop (8 * (2 * die + g / 32))).take 8) / 4 ^ (g % 32) % 4
def roleMapOk (d : List Byte) (die : Nat) : Bool :=
  let n := fun r => ((rangeFrom 0 40).filter fun g => decide (roleOf d die g = r)).length
  decide (d.length = 128) && decide (8 ≤ n 0) && decide (n 0 ≤ 30) && decide (8 ≤ n 1) && decide (n 1 ≤ 30)
    && decide (1 ≤ n 2) && decide (n 2 ≤ 2)

/-- The test of a lane group: its failing wires, its marginal data wires in order of least margin, and the data wire
that each spare wire replaces: failing ones first, and no failing spare wire is used (R214). -/
def groupTest (l : List (Nat × Nat)) : List Nat × List Nat × List (Option Nat) :=
  let margin := fun w => match l.find? fun x => decide (x.1 = w) with | some x => x.2 | none => 100
  let fails := (rangeFrom 0 132).filter fun w => decide (margin w < 15)
  let marginal := (rangeFrom 15 15).flatMap fun m => (rangeFrom 0 128).filter fun w => decide (margin w = m)
  let want := (fails.filter fun w => decide (w < 128)) ++ marginal
  (fails, marginal, (rangeFrom 0 4).map fun k =>
    if fails.contains (128 + k) then none
    else want[((rangeFrom 0 k).filter fun j => !fails.contains (128 + j)).length]?)

/-- VLI_GROUP_TEST after a test (R220): the least margin measured, counts, and the wire that each spare replaces. -/
def groupTestWord (l : List (Nat × Nat)) : Word :=
  let (fails, marginal, spares) := groupTest l
  BitVec.ofNat 64 (l.foldl (fun m x => min m x.2) 100 * 2 ^ 48 + marginal.length * 2 ^ 40 + fails.length * 2 ^ 32
    + spares.foldr (fun x v => x.getD 0xFF + 256 * v) 0)

/-- Applies the role maps and the test of the lane groups of a die (R212, R214). A group with more than 4
failing wires is retired, and a spare group takes its role (R27). -/
def State.startGroups (s : State) (su : StartUp) (d : Nat) : State :=
  let rec_ := s.defaultOf 1
  let own := match rec_ with | some b => roleMapOk b d | none => false
  let s := if rec_.isSome && !own then s.event 0x0609 (b1 d) else s
  let role := fun g => match rec_ with | some b => if own then roleOf b d g else defaultRole g | none => defaultRole g
  let s := (rangeFrom 0 40).foldl (fun s g =>
    let wires := match su.groups.find? fun x => decide (x.1 = 40 * d + g) with | some x => x.2 | none => []
    let (fails, _, spares) := groupTest wires
    let w := 0x3F * 2 ^ 16 + (spares.filter (·.isSome)).length * 2 ^ 12 + (if 4 < fails.length then 16 else 0) + role g
    (s.setReg (R.vliGroupStatus (40 * d + g)) (BitVec.ofNat 64 w)).setReg (R.vliGroupTest (40 * d + g)) (groupTestWord wires)) s
  let s := (rangeFrom 0 40).foldl (fun s g =>
    if bit (s.reg (R.vliGroupStatus (40 * d + g))) 4 then s.replaceGroup d g else s) s
  let m := fun k n => BitVec.ofNat 64 ((rangeFrom (32 * k) n).foldr (fun g v => role g + 4 * v) 0)
  ((s.setReg (R.vliRoleMap (2 * d)) (m 0 32)).setReg (R.vliRoleMap (2 * d + 1)) (m 1 8)).countGroups d

/-- Training repairs the lanes that fail, the recorded ones first, while their channel has a repair lane; the repairs
are recorded (R231). -/
def MemState.train (m : MemState) (lanes : List (Nat × Nat × Nat)) : MemState :=
  let all := m.trained ++ lanes.filter fun l => !m.trained.contains l
  all.foldl (fun m (st, pc, lane) =>
    let k := 16 * st + pc / 2
    let n := SMap.get (fun _ => 0) m.repairs k
    if Config.repairLanes ≤ n then m
    else { m with repairs := SMap.set (fun _ => 0) m.repairs k (n + 1), trained := m.trained ++ [(st, pc, lane)] })
    { m with repairs := [], trained := [] }

/-- Capacity and the effective map (R224, R225, R230, R231). -/
def State.startMemory (s : State) (su : StartUp) : State :=
  let own := match s.defaultOf 3 with | some b => mapOf b | none => none
  let (m, id, dflt) := match own with | some (m, id) => (m, id, 0) | none => (defaultMap, 0, 1)
  let s := if own.isNone then s.event 0x0707 [] else s
  let s : State := { s with mem := s.mem.train su.lanes }
  let bad := (su.lanes.filter fun l => !s.mem.trained.contains l).map fun l => 32 * l.1 + l.2.1
  let gone := (s.mem.mapOut ++ bad ++ su.untrained.flatMap fun st => rangeFrom (32 * st.val) 32).eraseDups
  let e := m.filter fun n => !gone.contains n
  let s : State := { s with mem := { s.mem with map := e, retired := s.mem.retired.filter fun r => !gone.contains (32 * r.stack + r.pc) } }
  let s := s.setReg R.memCapacity (BitVec.ofNat 64 (e.length * 2 ^ 48 + e.length * 1207959552))
  let s := s.setReg R.memInterleave (BitVec.ofNat 64 (dflt * 2 ^ 16 + id))
  let s := (rangeFrom 0 12).foldl (fun s st =>
    let out := (rangeFrom 0 32).filter fun p => gone.contains (32 * st + p)
    let used := (rangeFrom (16 * st) 16).foldl (fun n k => n + SMap.get (fun _ => 0) s.mem.repairs k) 0
    ((s.setReg (R.memStackMapout st) (BitVec.ofNat 64 (out.foldl (fun m p => m + 2 ^ p) 0))).setRfld (R.memStackStatus st) 0 1
      (if out.length < 32 then 1 else 0)).setRfld (R.memStackStatus st) 8 8 used) s
  let s : State := (rangeFrom 0 s.mem.retired.length).foldl (fun (s : State) i =>
    match s.mem.retired[i]? with
    | some r => match s.addrOf r.stack r.pc r.offset with
      | some a => s.setReg (R.memRetired i) (BitVec.ofNat 64 (r.stack * 2 ^ 60 + r.pc * 2 ^ 55 + a / 65536 * 2 ^ 16 + r.cause * 2 + 1))
      | none => s
    | none => s) s
  s.setRfld R.memRetireStatus 0 13 s.mem.retired.length

/-- Are estimator coefficients within their limits (R464)? -/
def coefOk (w : Word) : Bool :=
  let g := fld w 0 16
  let k := fld w 32 8
  let c := signed (fld w 40 8) 8
  let tau := fld w 48 8
  decide (2048 ≤ g) && decide (g ≤ 12288) && decide (k ≤ 160) && decide (-40 ≤ c) && decide (c ≤ 120) && decide (1 ≤ tau) && decide (tau ≤ 100)

/-- Sensor masks and estimator coefficients from package flash, with the sensors of THM_AON_MASK; both copies of the
masks take what is loaded (R462, R464, R472, R568). -/
def State.startThermal (s : State) : State :=
  let s := match s.defaultOf 2 with
    | some b => (rangeFrom 0 40).foldl (fun (s : State) n =>
        s.setReg (R.thmMask n) (bytesWord ((b.drop (8 * n)).take 8) &&& (if n = 39 then 0xFFFF else 0xFFFFFFFFFFFFFFFF))) s
    | none => s
  let s := (rangeFrom 0 8).foldl (fun s i =>
    let e := s.rfld (R.thmAonMask (i / 4)) (16 * (i % 4)) 16
    let n := e % 4096
    if 32768 ≤ e ∧ n < 2512 then s.setReg (R.thmMask (n / 64)) (setBit (s.reg (R.thmMask (n / 64))) (n % 64) true) else s) s
  let s : State := { s with shadow := (rangeFrom 0 40).foldl (fun m n => SMap.set Regs.initial m (R.thmMask n) (s.reg (R.thmMask n))) s.shadow }
  match s.defaultOf 9 with
  | some b => (rangeFrom 0 12).foldl (fun s n =>
      let w := bytesWord ((b.drop (8 * n)).take 8)
      if coefOk w then s.setReg (R.thmEstCoef n) w else s) s
  | none => s

/-- MGT_BOARD for the straps' levels: BOARD_POS in bits [5:0], RESTART_INHIBIT in bit 8 (R550, R560). -/
def boardWord (straps : Nat) : Word := BitVec.ofNat 64 ((0x58 + straps % 8) * 2 ^ 16 + straps / 256 % 2 * 2 ^ 8 + straps % 64)

/-- The straps show in MGT_BOARD and RST_STATUS (R476, R560). -/
def State.showStraps (s : State) : State :=
  (s.setReg R.mgtBoard (boardWord s.pkg.straps)).setRfld R.rstStatus 9 1 (s.pkg.straps / 256 % 2)

/-- The source that a byte of the source map names for slot or port `i`: comb slots of the west half 0 to 7 and
of the east half 8 to 15, then ports; the slot's own source, or a standby that may serve it (R388, R498). -/
def mapSource (i n : Nat) : Option Nat :=
  let own := if i < 8 then i else if i < 16 then i + 2 else i + 4
  let standby := if i < 8 then [8, 9] else if i < 16 then [18, 19] else [i + 16]
  if n ≠ own ∧ standby.contains n then some own else none

/-- Sources that the source map names in place of a slot's own light the slot; the own one stays out (R388,
R406). -/
def State.startSources (s : State) : State :=
  match s.defaultOf 6 with
  | none => s
  | some b => (rangeFrom 0 28).foldl (fun s i =>
      let n := leAt b i 1
      match mapSource i n with
      | none => s
      | some own =>
        let slot := s.rfld (R.optSrcStatus own) 8 6
        let s := (s.setRfld (R.optSrcStatus own) 0 3 4).setRfld (R.optSrcStatus own) 8 6 0x3F
        (s.setRfld (R.optSrcStatus n) 0 3 2).setRfld (R.optSrcStatus n) 8 6 slot) s

/-- The search fails some rings (R393): each is reported, and the end of the search tells their number. -/
def State.startRings (s : State) (rings : List Nat) (used : Bool) : State :=
  let s : State := { s with opt := { s.opt with session := s.session } }
  let s := rings.foldl (fun s a =>
    if ringOk a then
      ((s.setRing a { set := 0, target := 0, err := 0, locked := false, failed := true }).loseLine a).event 0x0C04 (natToBytes 4 a)
    else s) s
  let n := (rings.filter ringOk).length
  ((s.ledgerBy 33 n).setRfld R.optStatus 32 16 n).event 0x0C01 (natToBytes 4 n ++ b1 used.toNat)

/-- How long the start-up waits for CAL_RESTORE, in ms: 0 unless package flash holds a time up to 2,000 (R392, R498). -/
def State.restoreWait (s : State) : Nat :=
  match s.defaultOf 7 with | some b => let n := leAt b 0 2; if n ≤ 2000 then n else 0 | none => 0

/-- Step 4 of R392 begins: until the search the stops stay out of service and the device does not run. -/
def State.awaitRestore (s : State) (rings : List Nat) : State :=
  let s : State := { s with opt := { s.opt with session := s.session, search := some (s.now + s.restoreWait * 1000000, rings) } }
  let s := (rangeFrom 0 28).foldl (fun s n => s.setRfld (R.baseStopStatus n) 0 1 0) s
  (s.setRfld R.optStatus 1 1 0).setRfld R.rstStatus 0 2 0

/-- The search ends, after a restore or without one: the stops enter service and the device runs (R392 step 6, R451). -/
def State.endSearch (s : State) (rings : List Nat) (used : Bool) : State :=
  let s : State := { s with opt := { s.opt with search := none } }
  let s := (rangeFrom 0 28).foldl (fun s n => s.setRfld (R.baseStopStatus n) 0 1 1) s
  let s := s.startRings rings used
  (s.setRfld R.optStatus 1 2 (1 + 2 * used.toNat)).setRfld R.rstStatus 0 2 1

/-- Steps 1 to 8 of R451 on a device held in cold reset, with what the start-up finds. The stags stay in
SELFTEST: the ends of their tests are steps of their own (R439). Where no slot verifies, only recovery runs
(R485). -/
def State.startUp (s : State) (su : StartUp) (cause : Nat) : State :=
  let trip := if cause = 6 ∨ s.therm.tripState = 1 then s.therm.trip else none
  let s : State := { s with
    therm := { s.therm with cold := none, tripped := false, tripState := if s.therm.tripState = 0 then 0 else 2 },
    pkg := { s.pkg with rose := false, resetN := false },
    regs := s.regs.filter fun x => decide (x.1 = R.thmAonMask 0) || decide (x.1 = R.thmAonMask 1) || decide (x.1 = R.lifeStatus)
      || decide (x.1 = R.lifeLastSeq) || decide (x.1 = R.rstStatus) || decide (x.1 = R.mgtAlertPend),
    host := { HostState.reset with seen := s.out.length }, stag := { StagState.reset with started := false, startWait := true } }
  let s := (s.showStraps.drive Pin.thermtrip true).bootVerify cause
  if s.phase = 7 then
    let s := (rangeFrom 0 8).foldl (fun s d => (s.setDie d 1).setRfld (R.dieMeshStatus d) 0 1 0) s
    ((s.setRfld R.hifLinkStatus 0 3 0).setReg R.mgtStagStatus 3).setReg R.rstCause (BitVec.ofNat 64 cause)
  else
  let s := if su.identity then s else (s.setRfld R.secStatus 0 1 0).event 0x1009 []
  let s := s.setRfld R.rstStatus 0 2 1
  let w := match trip with
    | some (n, t, at_) => at_ / 1000 % 2 ^ 32 * 2 ^ 32 + (t % 4096).toNat * 2 ^ 16 + n % 4096 * 2 ^ 4 + cause
    | none => cause
  let s := s.setReg R.rstCause (BitVec.ofNat 64 w)
  let s := (rangeFrom 0 8).foldl (fun s d => s.startGroups su d) s
  let s := s.startMemory su
  let s := s.startThermal
  let s := s.setReg R.mgtStagStatus (BitVec.ofNat 64 (0x113 + (match s.defaultOf 8 with | some b => leAt b 0 1 % 2 | none => 0) * 2 ^ 16))
  let s := (rangeFrom 0 8).foldl (fun s d =>
    let (s, ok) := match su.dies.find? fun x => decide (x.1.val = d) with | some x => s.dieTest d x.2 | none => (s, true)
    if ok && s.dieChecks d su.cores then (if su.cores.isEmpty && su.groups.isEmpty && (s.defaultOf 1).isNone then s else (s.writeSpares d su.cores).writeEgress d)
    else s.dieStays d 4) s
  let closed := decide (cause = 3) || decide (cause = 7)
  let ses := (s.session + 1) % 2 ^ 32
  let s := ((s.setRfld R.lifeStatus 32 32 ses).setRfld R.lifeStatus 28 1 (!closed).toNat).setRfld R.lifeStatus 31 1 0
  let s := (s.ledger cause).startSources
  let s := if s.restoreWait = 0 then s.startRings su.rings false else s.awaitRestore su.rings
  let s := if cause = 6 then s.ledger 14 else s
  if closed then s else (s.ledger 52).event 0x1102 (natToBytes 4 ses)

/-- The cold-reset sequence of a device that is held in reset, once RESET_N is released with PWRGOOD high and
REFCLK good (R451, R543). -/
def execColdReset (su : StartUp) (s : State) : Host.Outcome State Fault Refusal :=
  .next (match s.therm.cold with
    | some c => if s.pkg.pwrgood && s.pkg.vio && bit (s.reg R.clkRefStatus) 0 then s.startUp su c else s
    | none => s)

/-- RST_CMD cmd 2 (R449, R519). -/
def execRstCmdCold (s : State) : Host.Outcome State Fault Refusal := .next (s.cold 3)

/-- REFCLK is lost: cold reset with code 5, held until it is good again (R453). -/
def execRefclkLoss (s : State) : Host.Outcome State Fault Refusal :=
  .next (
    let n := s.rfld R.clkRefStatus 32 16
    if !bit (s.reg R.clkRefStatus) 0 then s
    else (((s.cold 5).setRfld R.clkRefStatus 0 1 0).setRfld R.clkRefStatus 32 16 (min 65535 (n + 1))))

/-- REFCLK has been within tolerance since a SYSTIME or for a time of the reference monitor: 1 ms (R453). -/
def execRefclkRestored (goodFor : Nat) (s : State) : Host.Outcome State Fault Refusal :=
  .next (if goodFor < 1000000 then s else s.setRfld R.clkRefStatus 0 1 1)

end Sys2Proof.Machine
end

