-- ==== Sys2Proof/Machine/BaseLinks.lean ====
section
/-!
DEFINITION. The seam bridge and seam link, and the vertical lane groups (R209 to R217).
-/

namespace Sys2Proof.Machine

/-- Waveguides of every bundle that are taken out (R207). -/
def State.retiredWgs (s : State) : Nat :=
  (rangeFrom 0 28).foldl (fun n i => n + (wgCount i - (s.wgsUp i).length)) 0

/-- `monitors` are the monitor waveguides that lost more than 3 dB. A quarter of the 141 bundle waveguides
also takes the bridge down (R209). -/
def execSeamBridgeDown (monitors : BitVec 4) (s : State) : Host.Outcome State Fault Refusal :=
  .next (
    let n := ((rangeFrom 0 4).filter fun i => monitors.getLsbD i).length
    if !s.held ∨ !bit (s.reg R.baseSeamStatus) 0 ∨ (n < 2 ∧ 4 * s.retiredWgs < 141) then s
    else ((s.setRfld R.baseSeamStatus 0 1 0).setRfld R.baseSeamStatus 4 4 monitors.toNat).event 0x0601 (b1 monitors.toNat))

/-- All four monitors have been within 1 dB since a SYSTIME; `cleared` are the retired waveguides that lie on
the bridge, by stop and number (R209). -/
def execSeamBridgeUp (goodSince : Nat) (cleared : List (Stop × Nat)) (s : State) : Host.Outcome State Fault Refusal :=
  .next (
    if !s.held ∨ bit (s.reg R.baseSeamStatus) 0 ∨ s.now < goodSince + 1000000000 then s
    else
      let s := (s.setRfld R.baseSeamStatus 0 1 1).setRfld R.baseSeamStatus 4 4 0
      let s := cleared.foldl (fun s (st, wg) =>
        if wg < wgCount st.val then s.setReg (R.baseStopStatus st.val) (setBit (s.reg (R.baseStopStatus st.val)) (16 + wg) false) else s) s
      s.event 0x0602 [])

/-- Spares used and width of a direction of the seam link: 0 west to east, 1 east to west. -/
def seamSpares (dir : Nat) : Nat := if dir = 0 then 16 else 24
def seamWidth (dir : Nat) : Nat := if dir = 0 then 8 else 10

/-- A wire with 16 or more corrections in a window of 1 ms is replaced while a spare is left (R210). -/
def execSeamWireSpared (dir : Fin 2) (corrections : Nat) (s : State) : Host.Outcome State Fault Refusal :=
  .next (
    let lo := seamSpares dir.val
    let s := s.countBy R.baseSeamErr 32 32 corrections
    if corrections < 16 ∨ 16 ≤ s.rfld R.baseSeamStatus lo 5 then s
    else (s.setRfld R.baseSeamStatus lo 5 (s.rfld R.baseSeamStatus lo 5 + 1)).ledger 31)

/-- A wire fails with no spare left: half width on 128 wires and 16 spares of the good ones, or the link is
down and the device resets (R210). -/
def execSeamWireFailed (dir : Fin 2) (goodWires : Nat) (s : State) : Host.Outcome State Fault Refusal :=
  .next (
    let lo := seamSpares dir.val
    if s.rfld R.baseSeamStatus lo 5 < 16 ∨ s.rfld R.baseSeamStatus (seamWidth dir.val) 2 = 2 then s
    else if goodWires < 144 then (s.setRfld R.baseSeamStatus (seamWidth dir.val) 2 2).cold 4
    else if s.rfld R.baseSeamStatus (seamWidth dir.val) 2 = 1 then s.setRfld R.baseSeamStatus lo 5 0
    else
      ((s.setRfld R.baseSeamStatus (seamWidth dir.val) 2 1).setRfld R.baseSeamStatus lo 5 0).event 0x0603 (b1 dir.val))

/-! Lane groups (R215 to R217). -/

/-- Fails a group: it waits for the next quiesce point, which the die controller is asked for. -/
def State.failGroup (s : State) (d g : Nat) : State :=
  let k := 40 * d + g
  if bit (s.reg (R.vliGroupStatus k)) 4 || s.base.vliFailed.contains k then s
  else ({ s with base := { s.base with vliFailed := s.base.vliFailed ++ [k] } } : State).dieEdge d 20

/-- At a quiesce point a wire over its threshold is replaced by one of the four spare wires. -/
def execVliWireSpared (d : Die) (g : Fin 40) (wire corrections : Nat) (s : State) : Host.Outcome State Fault Refusal :=
  .next (
    let k := 40 * d.val + g.val
    let s := s.countBy (R.vliGroupErr k) 0 32 corrections
    if bit (s.reg (R.vliGroupStatus k)) 4 ∨ corrections < s.rfld R.vliThresh 0 16 then s
    else if 4 ≤ s.rfld (R.vliGroupStatus k) 12 3 then s.failGroup d.val g.val
    else
      let s := s.setRfld (R.vliGroupStatus k) 12 3 (s.rfld (R.vliGroupStatus k) 12 3 + 1)
      ((s.ledger 29).event 0x0606 (b1 d.val ++ b1 g.val ++ b1 wire)).dieEdge d.val 20)

/-- A group fails: CRC errors reach the threshold in a window of 1 ms, or it needs a spare wire once four are in use. -/
def execVliGroupFailed (d : Die) (g : Fin 40) (crcErrors : Nat) (fifth : Bool) (s : State) : Host.Outcome State Fault Refusal :=
  .next (
    let s := s.countBy (R.vliGroupErr (40 * d.val + g.val)) 32 32 crcErrors
    if (fifth && decide (4 ≤ s.rfld (R.vliGroupStatus (40 * d.val + g.val)) 12 3)) || decide (s.rfld R.vliThresh 32 16 ≤ crcErrors) then s.failGroup d.val g.val else s)

/-- A failed group is retired; the lowest spare group takes its role; below the minimums the die is fenced. -/
def execVliGroupRetired (d : Die) (g : Fin 40) (s : State) : Host.Outcome State Fault Refusal :=
  .next (
    let k := 40 * d.val + g.val
    if !s.base.vliFailed.contains k then s
    else
      let s : State := { s with base := { s.base with vliFailed := s.base.vliFailed.filter fun x => decide (x ≠ k) } }
      let s := (s.setRfld (R.vliGroupStatus k) 4 1 1).replaceGroup d.val g.val
      let s := (s.countGroups d.val).writeEgress d.val
      match s.roleBelow d.val with
      | some r =>
        if s.dieState d.val ≠ 0 then s
        else ((s.setRfld (R.vliDieStatus d.val) 32 1 1).event 0x0608 (b1 d.val ++ b1 r)).dieReset d.val 4
      | none => s)

end Sys2Proof.Machine
end

