-- ==== Sys2Proof/Machine/CoreAlu.lean ====
section
/-!
DEFINITION. Integer and predicate instructions (R37).
-/

namespace Sys2Proof.Machine

/-- Writes a result and moves on. -/
def Core.result (c : Core) (rd : Reg) (v : Word) : Core := (c.setG rd v).next

/-- An instruction of op 0x00 with two source registers. -/
def aluR (i : Issue) (fn : Nat) (rd rs1 rs2 : Reg) (op : Word → Word → Word) (s : State) : State :=
  s.issue i (wordR i 0x00 rd rs1 rs2 fn) true fun _ c => c.result rd (op (c.rg rs1) (c.rg rs2))

/-- An instruction of op 0x00 with one source register; rs2 must be 0 (R570). -/
def aluU (i : Issue) (fn : Nat) (rd rs1 rs2 : Reg) (op : Word → Word) (s : State) : State :=
  s.issue i (wordR i 0x00 rd rs1 rs2 fn) (decide (rs2 = 0)) fun _ c => c.result rd (op (c.rg rs1))

/-- An instruction with a sign-extended immediate. -/
def aluI (i : Issue) (op : Nat) (rd rs1 : Reg) (imm : BitVec 12) (f : Word → Word → Word) (s : State) : State :=
  s.issue i (wordI i op rd rs1 imm) true fun _ c => c.result rd (f (c.rg rs1) (sx imm))

/-- A shift by an immediate; imm12[11:6] must be 0 (R37). -/
def shiftI (i : Issue) (op : Nat) (rd rs1 : Reg) (imm : BitVec 12) (f : Word → Nat → Word) (s : State) : State :=
  s.issue i (wordI i op rd rs1 imm) (decide (imm.toNat < 64)) fun _ c =>
    c.result rd (f (c.rg rs1) (imm.toNat % 64))

def execAdd (i : Issue) (rd rs1 rs2 : Reg) (s : State) : Host.Outcome State Fault Refusal :=
  .next (aluR i 0x00 rd rs1 rs2 (· + ·) s)

def execSub (i : Issue) (rd rs1 rs2 : Reg) (s : State) : Host.Outcome State Fault Refusal :=
  .next (aluR i 0x01 rd rs1 rs2 (· - ·) s)

def execAnd (i : Issue) (rd rs1 rs2 : Reg) (s : State) : Host.Outcome State Fault Refusal :=
  .next (aluR i 0x02 rd rs1 rs2 (· &&& ·) s)

def execOr (i : Issue) (rd rs1 rs2 : Reg) (s : State) : Host.Outcome State Fault Refusal :=
  .next (aluR i 0x03 rd rs1 rs2 (· ||| ·) s)

def execXor (i : Issue) (rd rs1 rs2 : Reg) (s : State) : Host.Outcome State Fault Refusal :=
  .next (aluR i 0x04 rd rs1 rs2 (· ^^^ ·) s)

def execShl (i : Issue) (rd rs1 rs2 : Reg) (s : State) : Host.Outcome State Fault Refusal :=
  .next (aluR i 0x05 rd rs1 rs2 (fun a b => a <<< shamt b) s)

def execShr (i : Issue) (rd rs1 rs2 : Reg) (s : State) : Host.Outcome State Fault Refusal :=
  .next (aluR i 0x06 rd rs1 rs2 (fun a b => a >>> shamt b) s)

def execSra (i : Issue) (rd rs1 rs2 : Reg) (s : State) : Host.Outcome State Fault Refusal :=
  .next (aluR i 0x07 rd rs1 rs2 (fun a b => a.sshiftRight (shamt b)) s)

def execMul (i : Issue) (rd rs1 rs2 : Reg) (s : State) : Host.Outcome State Fault Refusal :=
  .next (aluR i 0x08 rd rs1 rs2 (· * ·) s)

def execMulhu (i : Issue) (rd rs1 rs2 : Reg) (s : State) : Host.Outcome State Fault Refusal :=
  .next (aluR i 0x09 rd rs1 rs2 mulhu64 s)

def execMulh (i : Issue) (rd rs1 rs2 : Reg) (s : State) : Host.Outcome State Fault Refusal :=
  .next (aluR i 0x0A rd rs1 rs2 mulh64 s)

def execMin (i : Issue) (rd rs1 rs2 : Reg) (s : State) : Host.Outcome State Fault Refusal :=
  .next (aluR i 0x0B rd rs1 rs2 (fun a b => if a.slt b then a else b) s)

def execMax (i : Issue) (rd rs1 rs2 : Reg) (s : State) : Host.Outcome State Fault Refusal :=
  .next (aluR i 0x0C rd rs1 rs2 (fun a b => if a.slt b then b else a) s)

def execMinu (i : Issue) (rd rs1 rs2 : Reg) (s : State) : Host.Outcome State Fault Refusal :=
  .next (aluR i 0x0D rd rs1 rs2 (fun a b => if a.ult b then a else b) s)

def execMaxu (i : Issue) (rd rs1 rs2 : Reg) (s : State) : Host.Outcome State Fault Refusal :=
  .next (aluR i 0x0E rd rs1 rs2 (fun a b => if a.ult b then b else a) s)

def execClz (i : Issue) (rd rs1 rs2 : Reg) (s : State) : Host.Outcome State Fault Refusal :=
  .next (aluU i 0x0F rd rs1 rs2 clz64 s)

def execPopc (i : Issue) (rd rs1 rs2 : Reg) (s : State) : Host.Outcome State Fault Refusal :=
  .next (aluU i 0x10 rd rs1 rs2 popc64 s)

def execDivu (i : Issue) (rd rs1 rs2 : Reg) (s : State) : Host.Outcome State Fault Refusal :=
  .next (aluR i 0x11 rd rs1 rs2 divu64 s)

def execRemu (i : Issue) (rd rs1 rs2 : Reg) (s : State) : Host.Outcome State Fault Refusal :=
  .next (aluR i 0x12 rd rs1 rs2 remu64 s)

def execAddi (i : Issue) (rd rs1 : Reg) (imm : BitVec 12) (s : State) : Host.Outcome State Fault Refusal :=
  .next (aluI i 0x01 rd rs1 imm (· + ·) s)

def execAndi (i : Issue) (rd rs1 : Reg) (imm : BitVec 12) (s : State) : Host.Outcome State Fault Refusal :=
  .next (aluI i 0x02 rd rs1 imm (· &&& ·) s)

def execOri (i : Issue) (rd rs1 : Reg) (imm : BitVec 12) (s : State) : Host.Outcome State Fault Refusal :=
  .next (aluI i 0x03 rd rs1 imm (· ||| ·) s)

def execXori (i : Issue) (rd rs1 : Reg) (imm : BitVec 12) (s : State) : Host.Outcome State Fault Refusal :=
  .next (aluI i 0x04 rd rs1 imm (· ^^^ ·) s)

def execShli (i : Issue) (rd rs1 : Reg) (imm : BitVec 12) (s : State) : Host.Outcome State Fault Refusal :=
  .next (shiftI i 0x05 rd rs1 imm (fun a n => a <<< n) s)

def execShri (i : Issue) (rd rs1 : Reg) (imm : BitVec 12) (s : State) : Host.Outcome State Fault Refusal :=
  .next (shiftI i 0x06 rd rs1 imm (fun a n => a >>> n) s)

def execSrai (i : Issue) (rd rs1 : Reg) (imm : BitVec 12) (s : State) : Host.Outcome State Fault Refusal :=
  .next (shiftI i 0x07 rd rs1 imm (fun a n => a.sshiftRight n) s)

/-- `ldh.k`: with z = 1 the register is cleared first; then its halfword k is the immediate. -/
def execLdh (i : Issue) (k : BitVec 2) (rd : Reg) (z : Bool) (imm : BitVec 16) (s : State) :
    Host.Outcome State Fault Refusal :=
  .next (s.issue i (wordH i k rd z imm) true
    fun _ c => c.result rd (setFld (if z then 0 else c.rg rd) (16 * k.toNat) 16 imm.toNat))

/-- `cmp`: reserved fields not 0 and condition codes 8 to 15 are illegal (R36). -/
def execCmp (i : Issue) (pd : PReg) (rs1 rs2 : Reg) (cond : BitVec 4) (resHi : BitVec 2)
    (resLo : BitVec 3) (s : State) : Host.Outcome State Fault Refusal :=
  .next (s.issue i (wordC i pd rs1 rs2 cond resHi resLo)
    (decide (cond.toNat < 8) && decide (resHi = 0) && decide (resLo = 0))
    fun _ c => (c.setP pd ((evalCond cond (c.rg rs1) (c.rg rs2)).getD false)).next)

def execCmpi (i : Issue) (pd : PReg) (cond : BitVec 4) (rs1 : Reg) (imm : BitVec 10) (s : State) :
    Host.Outcome State Fault Refusal :=
  .next (s.issue i (wordCI i pd cond rs1 imm) (decide (cond.toNat < 8))
    fun _ c => (c.setP pd ((evalCond cond (c.rg rs1) (sx imm)).getD false)).next)

def execPlog (i : Issue) (pd pa pb : PReg) (fn : BitVec 3) (res : BitVec 10) (s : State) :
    Host.Outcome State Fault Refusal :=
  .next (s.issue i (wordP i pd pa pb fn res) (decide (res = 0))
    fun _ c => (c.setP pd (evalPlog fn (c.pr pa) (c.pr pb))).next)

/-- `pmov` fn 0x00: rd takes p7 to p0, p0 reading 1. -/
def execPmovRead (i : Issue) (rd rs1 rs2 : Reg) (s : State) : Host.Outcome State Fault Refusal :=
  .next (s.issue i (wordR i 0x0F rd rs1 rs2 0) (decide (rs1 = 0) && decide (rs2 = 0))
    fun _ c => c.result rd (BitVec.ofNat 64 (2 * c.ctl.preds.toNat + 1)))

/-- `pmov` fn 0x01: p1 to p7 take rs1[7:1]. -/
def execPmovWrite (i : Issue) (rd rs1 rs2 : Reg) (s : State) : Host.Outcome State Fault Refusal :=
  .next (s.issue i (wordR i 0x0F rd rs1 rs2 1) (decide (rd = 0) && decide (rs2 = 0))
    fun _ c => { c with ctl := { c.ctl with preds := BitVec.ofNat 7 (fld (c.rg rs1) 1 7) } }.next)

end Sys2Proof.Machine
end

