-- ==== Sys2Proof/Machine/CoreMem.lean ====
section
/-!
DEFINITION. Scratch access by the controller, and control transfers (R37 to R39).
-/

namespace Sys2Proof.Machine

/-- The address of a scratch access. -/
def Core.ea (c : Core) (rs1 : Reg) (imm : BitVec 12) : Word := c.rg rs1 + sx imm

/-- A scratch access of `n` bytes (R38): out of range before misaligned; else its effect. -/
def Core.access (c : Core) (a : Word) (n : Nat) (f : Core → Core) : Core :=
  if scratchSize ≤ a.toNat then c.exception 0x04 a c.ctl.pc false
  else if a.toNat % n ≠ 0 then c.exception 0x03 a c.ctl.pc false
  else f c

/-- Extends a loaded number of `n` bytes, with or without its sign. -/
def extend (n : Nat) (isSigned : Bool) (v : Nat) : Word :=
  if isSigned then BitVec.ofInt 64 (signed v (8 * n)) else BitVec.ofNat 64 v

/-- A load (R37, R58): a corrected error is counted and raises source 28, an uncorrectable one the scratch-ECC
exception. -/
def load (i : Issue) (op n : Nat) (isSigned : Bool) (rd rs1 : Reg) (imm : BitVec 12) (ecc : Ecc)
    (s : State) : State :=
  s.issue i (wordI i op rd rs1 imm) true fun _ c =>
    let a := c.ea rs1 imm
    c.access a n fun c =>
      let v := extend n isSigned (Mem.nat c.scratch a.toNat n)
      match ecc with
      | .ok => (c.setG rd v).next
      | .corrected => { (c.setG rd v).next with corrected := c.corrected + 1 }.edge 28
      | .uncorrectable => c.exception 0x06 a c.ctl.pc false

/-- A store of the low bytes of the register in field rd (R37). -/
def store (i : Issue) (op n : Nat) (rd rs1 : Reg) (imm : BitVec 12) (s : State) : State :=
  s.issue i (wordI i op rd rs1 imm) true fun env c =>
    let a := c.ea rs1 imm
    c.access a n fun c => (c.store env a.toNat (natToBytes n (c.rg rd).toNat)).next

def execLdB (i : Issue) (rd rs1 : Reg) (imm : BitVec 12) (ecc : Ecc) (s : State) : Host.Outcome State Fault Refusal :=
  .next (load i 0x10 1 true rd rs1 imm ecc s)

def execLdH (i : Issue) (rd rs1 : Reg) (imm : BitVec 12) (ecc : Ecc) (s : State) : Host.Outcome State Fault Refusal :=
  .next (load i 0x11 2 true rd rs1 imm ecc s)

def execLdW (i : Issue) (rd rs1 : Reg) (imm : BitVec 12) (ecc : Ecc) (s : State) : Host.Outcome State Fault Refusal :=
  .next (load i 0x12 4 true rd rs1 imm ecc s)

def execLdD (i : Issue) (rd rs1 : Reg) (imm : BitVec 12) (ecc : Ecc) (s : State) : Host.Outcome State Fault Refusal :=
  .next (load i 0x13 8 true rd rs1 imm ecc s)

def execLdBu (i : Issue) (rd rs1 : Reg) (imm : BitVec 12) (ecc : Ecc) (s : State) : Host.Outcome State Fault Refusal :=
  .next (load i 0x14 1 false rd rs1 imm ecc s)

def execLdHu (i : Issue) (rd rs1 : Reg) (imm : BitVec 12) (ecc : Ecc) (s : State) : Host.Outcome State Fault Refusal :=
  .next (load i 0x15 2 false rd rs1 imm ecc s)

def execLdWu (i : Issue) (rd rs1 : Reg) (imm : BitVec 12) (ecc : Ecc) (s : State) : Host.Outcome State Fault Refusal :=
  .next (load i 0x16 4 false rd rs1 imm ecc s)

def execStB (i : Issue) (rd rs1 : Reg) (imm : BitVec 12) (s : State) : Host.Outcome State Fault Refusal :=
  .next (store i 0x18 1 rd rs1 imm s)

def execStH (i : Issue) (rd rs1 : Reg) (imm : BitVec 12) (s : State) : Host.Outcome State Fault Refusal :=
  .next (store i 0x19 2 rd rs1 imm s)

def execStW (i : Issue) (rd rs1 : Reg) (imm : BitVec 12) (s : State) : Host.Outcome State Fault Refusal :=
  .next (store i 0x1A 4 rd rs1 imm s)

def execStD (i : Issue) (rd rs1 : Reg) (imm : BitVec 12) (s : State) : Host.Outcome State Fault Refusal :=
  .next (store i 0x1B 8 rd rs1 imm s)

/-- A control transfer (R39): a target that is not an aligned address of the program store raises
the fetch fault before `f`, which writes what the transfer writes. -/
def Core.jump (c : Core) (target : Word) (f : Core → Core) : Core :=
  if 0x20000 ≤ target.toNat ∨ target.toNat % 4 ≠ 0 then c.exception 0x02 target c.ctl.pc false
  else
    let c := f c
    { c with ctl := { c.ctl with pc := target.setWidth 17 } }

/-- The target of a branch by a word offset. -/
def Core.branchTarget {w : Nat} (c : Core) (off : BitVec w) : Word :=
  c.ctl.pc.setWidth 64 + 4 * sx off

/-- Writes the return address of a call (R30). -/
def Core.link (c : Core) : Core := c.setG 31 (c.ctl.pc.setWidth 64 + 4)

def execBr (i : Issue) (off : BitVec 22) (s : State) : Host.Outcome State Fault Refusal :=
  .next (s.issue i (wordB i 0x1C off) true fun _ c => c.jump (c.branchTarget off) id)

def execCall (i : Issue) (off : BitVec 22) (s : State) : Host.Outcome State Fault Refusal :=
  .next (s.issue i (wordB i 0x1D off) true fun _ c => c.jump (c.branchTarget off) Core.link)

/-- `jr`: rd must be 0 (R570). -/
def execJr (i : Issue) (rd rs1 : Reg) (imm : BitVec 12) (s : State) : Host.Outcome State Fault Refusal :=
  .next (s.issue i (wordI i 0x1E rd rs1 imm) (decide (rd = 0)) fun _ c => c.jump (c.ea rs1 imm) id)

/-- `callr`: rd must be 0; the target is formed before g31 is written (R570). -/
def execCallr (i : Issue) (rd rs1 : Reg) (imm : BitVec 12) (s : State) : Host.Outcome State Fault Refusal :=
  .next (s.issue i (wordI i 0x1F rd rs1 imm) (decide (rd = 0)) fun _ c => c.jump (c.ea rs1 imm) Core.link)

/-- `dbnz`: a transfer that faults leaves the register as it was (log entry 10). -/
def execDbnz (i : Issue) (rs1 : Reg) (off : BitVec 17) (s : State) : Host.Outcome State Fault Refusal :=
  .next (s.issue i (wordD i rs1 off) true fun _ c =>
    let v := c.rg rs1 - 1
    if v = 0 then (c.setG rs1 v).next
    else c.jump (c.branchTarget off) fun c => c.setG rs1 v)

end Sys2Proof.Machine
end

