-- ==== Sys2Proof/Machine/Eland.lean ====
section
/-!
DEFINITION. eland (R108 to R110) and the conversions of 04_number_formats.md.
-/

namespace Sys2Proof.Machine

/-- The fields of an eland command (R108). -/
structure ElCmd where
  fi : Option Fmt
  fo : Option Fmt
  rnd : Nat
  sat : Bool
  esz : Nat
  d : Nat
  so : Nat
  si : Nat
  a : Nat
  aPitch : Nat
  rows : Nat
  n : Nat
  value : Nat
  dPitch : Nat

/-- Reads the fields. -/
def ElCmd.of (q : Quad) : ElCmd :=
  { fi := Fmt.ofCode (fld q.w0 50 4), fo := Fmt.ofCode (fld q.w0 46 4), rnd := fld q.w0 43 3,
    sat := bit q.w0 42, esz := 2 ^ fld q.w0 40 2, d := fld q.w0 0 21, so := fld q.w1 42 21,
    si := fld q.w1 21 21, a := fld q.w1 0 21, aPitch := fld q.w2 36 15, rows := fld q.w2 20 16,
    n := fld q.w2 0 20, value := fld q.w3 32 32, dPitch := fld q.w3 0 15 }

/-- The five operations of R109. -/
inductive ElOp where
  | cvt | xpose | copy | fill | mxscale
  deriving DecidableEq, Repr

/-- The input format; INT8 stands in where the field names none. -/
def ElCmd.fin (c : ElCmd) : Fmt := c.fi.getD .int8

/-- The output format. -/
def ElCmd.fout (c : ElCmd) : Fmt := c.fo.getD .int8

/-- Bytes of a pitched region: the whole span from its first byte to its last, the gaps between its rows included
(DESIGN CHOICE, log entry 81). -/
def elSpan (pitch rows row : Nat) : Nat := 64 * pitch * (rows - 1) + row

/-- The destinations and the sources of an operation: d, a, si, so. -/
def ElCmd.regions (c : ElCmd) (op : ElOp) : List (Nat × Nat) × List (Nat × Nat) × List (Nat × Nat) × List (Nat × Nat) :=
  let scales := c.rows * (c.n / 32)
  let a (row : Nat) := [(c.a, elSpan c.aPitch c.rows row)]
  match op with
  | .cvt => ([(c.d, elSpan c.dPitch c.rows (rowBytes c.fout c.n))], a (rowBytes c.fin c.n),
      if c.fin.mx then [(c.si, scales)] else [], if c.fout.mx then [(c.so, scales)] else [])
  | .mxscale => ([], a (rowBytes c.fin c.n), if c.fin.mx then [(c.si, scales)] else [], [(c.so, scales)])
  | .xpose => ([(c.d, elSpan c.dPitch c.n (c.rows * c.esz))], a (c.n * c.esz), [], [])
  | .copy => ([(c.d, elSpan c.dPitch c.rows c.n)], a c.n, [], [])
  | .fill => ([(c.d, elSpan c.dPitch c.rows (c.n * c.esz))], [], [], [])

/-- The checks of an eland command (R79, R87, R109, R574). -/
def elCheck (op : ElOp) (q : Quad) : Checks :=
  let c := ElCmd.of q
  let conv := decide (op = .cvt) || decide (op = .mxscale)
  let bad :=
    decide (fld q.w0 21 19 ≠ 0) || bit q.w1 63 || decide (fld q.w2 51 13 ≠ 0) || decide (fld q.w3 15 17 ≠ 0) ||
    decide (4 < c.rnd) || decide (c.rows = 0) || decide (c.n = 0) ||
    (conv && (c.fi.isNone || c.fo.isNone || ((c.fin.mx || c.fout.mx) && decide (c.n % 32 ≠ 0)))) ||
    (decide (op = .mxscale) && !c.fout.mx)
  let (rd, ra, rsi, rso) := c.regions op
  { invalid := bad, regions := rd ++ ra ++ rsi ++ rso, pstoreBad := none,
    aligns := (rd ++ ra).map fun r => (r.1, 64), slots := [] }

/-- The input values of row `r`, under the input's scales (R132, R147). -/
def ElCmd.input (c : ElCmd) (m : SMap Byte) (r : Nat) : List Num :=
  let codes := elemsAt m (c.a + 64 * c.aPitch * r) c.fin.bits 0 c.n
  let vals := codes.map (decodeElem c.fin)
  if c.fin.mx then
    (vals.zip (rangeFrom 0 c.n)).map fun (v, j) => scaled (Mem.byte m (c.si + r * (c.n / 32) + j / 32)) v
  else vals

/-- The output codes and scales of a run of input values; MX output is encoded by blocks (R133). An L8 byte is exact
in L8 and stays as it is, though it draws under code 4 (R139, R142): rounding its linear value to nearest gives it
back (R138). -/
def elConvert (c : ElCmd) : Nat → BitVec 32 → List Num → List Nat × List Byte × BitVec 32
  | 0, l, _ => ([], [], l)
  | _, l, [] => ([], [], l)
  | k + 1, l, xs =>
    let b := xs.take 32
    if c.fout.mx then
      let sc := blockScale c.fout b
      let (cs, l1) := emits c.fout c.rnd true l (b.map (unscaled sc))
      let (cs', ss, l2) := elConvert c k l1 (xs.drop 32)
      (cs ++ cs', sc :: ss, l2)
    else
      let (cs, l1) := emits c.fout c.rnd c.sat l b
      let cs := if c.fin = .l8 ∧ c.fout = .l8 then b.map (encodeElem .l8 0 0 c.sat) else cs
      let (cs', ss, l2) := elConvert c k l1 (xs.drop 32)
      (cs ++ cs', ss, l2)

/-- The units of one row of `eland.cvt`, 64 elements each (R110). -/
def cvtRow (c : ElCmd) (r : Nat) : Nat → BitVec 32 → Nat → Nat → List Num → List PlanUnit × BitVec 32 × Nat
  | 0, l, _, p, _ => ([], l, p)
  | _, l, _, p, [] => ([], l, p)
  | k + 1, l, j, p, xs =>
    let h := xs.take 64
    let (cs, ss, l1) := elConvert c 2 l h
    let p1 := p + h.length
    let ws := (c.d + 64 * c.dPitch * r + c.fout.bits * j / 8, packCodes c.fout.bits cs) ::
      (if c.fout.mx then [(c.so + r * (c.n / 32) + j / 32, ss)] else [])
    let (us, l2, p2) := cvtRow c r k l1 (j + h.length) p1 (xs.drop 64)
    ({ writes := ws, lfsr := l1, progress := p1, restart := true } :: us, l2, p2)

/-- The rows of `eland.cvt`. -/
def cvtRows (c : ElCmd) (m : SMap Byte) : BitVec 32 → Nat → List Nat → List PlanUnit
  | _, _, [] => []
  | l, p, r :: t =>
    let (us, l1, p1) := cvtRow c r c.n l 0 p (c.input m r)
    us ++ cvtRows c m l1 p1 t

/-- The blocks of `eland.mxscale`, two to a unit of 64 elements; it rounds and draws nothing. -/
def scaleUnits (c : ElCmd) (m : SMap Byte) (l : BitVec 32) (r : Nat) : List PlanUnit :=
  let xs := c.input m r
  (rangeFrom 0 ((c.n + 63) / 64)).map fun u =>
    let h := (xs.drop (64 * u)).take 64
    { writes := [(c.so + r * (c.n / 32) + 2 * u,
        if 32 < h.length then [blockScale c.fout (h.take 32), blockScale c.fout (h.drop 32)] else [blockScale c.fout h])],
      lfsr := l, progress := r * c.n + 64 * u + h.length, restart := true }

/-- A run of bytes in units of at most `k` bytes, `e` bytes an element. -/
def byteUnits (l : BitVec 32) (a k e p : Nat) : Nat → List Byte → List PlanUnit
  | 0, _ => []
  | _, [] => []
  | f + 1, b =>
    let h := b.take k
    { writes := [(a, h)], lfsr := l, progress := p + h.length / e, restart := true } ::
      byteUnits l (a + h.length) k e (p + h.length / e) f (b.drop k)

/-- Row `j` of a transpose: column `j` of a. -/
def ElCmd.column (c : ElCmd) (m : SMap Byte) (j : Nat) : List Byte :=
  (rangeFrom 0 c.rows).flatMap fun r => Mem.bytes m (c.a + 64 * c.aPitch * r + j * c.esz) c.esz

/-- The bytes of one element of a fill: with 8 B, value twice (R108). -/
def ElCmd.fillElem (c : ElCmd) : List Byte :=
  natToBytes c.esz (c.value + c.value * 2 ^ 32)

/-- The units of an operation (R110). -/
def elUnits (c : ElCmd) (op : ElOp) (m : SMap Byte) (l : BitVec 32) : List PlanUnit :=
  match op with
  | .cvt => cvtRows c m l 0 (rangeFrom 0 c.rows)
  | .mxscale => (rangeFrom 0 c.rows).flatMap (scaleUnits c m l)
  | .xpose => (rangeFrom 0 c.n).flatMap fun j =>
      byteUnits l (c.d + 64 * c.dPitch * j) (64 * c.esz) c.esz (j * c.rows) c.rows (c.column m j)
  | .copy => (rangeFrom 0 c.rows).flatMap fun r =>
      byteUnits l (c.d + 64 * c.dPitch * r) 256 1 (r * c.n) c.n (Mem.bytes m (c.a + 64 * c.aPitch * r) c.n)
  | .fill => (rangeFrom 0 c.rows).flatMap fun r =>
      byteUnits l (c.d + 64 * c.dPitch * r) 256 c.esz (r * c.n) (c.n * c.esz)
        ((List.replicate c.n c.fillElem).flatten)

/-- The plan of an eland command; d may coincide with a in `eland.cvt` only (R109). -/
def elPlan (op : ElOp) (core : Core) (q : Quad) : Running :=
  let c := ElCmd.of q
  let (rd, ra, rsi, rso) := c.regions op
  let same := decide (op = .cvt) && decide (c.a = c.d) && (decide (c.aPitch = c.dPitch) || decide (c.rows = 1)) &&
    decide (c.fout.bits ≤ c.fin.bits)
  { cmd := q, cnt := q.cnt, units := elUnits c op core.scratch (core.engine 4).lfsr, done := 0,
    reads := ra ++ rsi, dests := rd ++ rso, fault := none,
    tainted := overlapping ((if same then [] else ra) ++ rsi) (rd ++ rso) || overlapping rso rd ||
      (same && overlapping ra rso) }

/-- Starts an eland operation. -/
def elStart (code : Nat) (op : ElOp) (c : CoreId) (s : State) : State :=
  s.onCore c fun env c => c.start1 env 4 code (elCheck op) (elPlan op)

def execElandCvt (c : CoreId) (s : State) : Host.Outcome State Fault Refusal :=
  .next (elStart 0x01 .cvt c s)

def execElandXpose (c : CoreId) (s : State) : Host.Outcome State Fault Refusal :=
  .next (elStart 0x02 .xpose c s)

def execElandCopy (c : CoreId) (s : State) : Host.Outcome State Fault Refusal :=
  .next (elStart 0x03 .copy c s)

def execElandFill (c : CoreId) (s : State) : Host.Outcome State Fault Refusal :=
  .next (elStart 0x04 .fill c s)

def execElandMxscale (c : CoreId) (s : State) : Host.Outcome State Fault Refusal :=
  .next (elStart 0x05 .mxscale c s)

end Sys2Proof.Machine
end

