-- ==== Sys2Proof/Machine/StagOps.lean ====
section
/-!
DEFINITION. What a stag does when it takes, hands over or loses the interlock, its outputs, and the transfer
of an image to the next device (R430 to R434, R441, R445, R488 to R490).
-/

namespace Sys2Proof.Machine

/-! Outputs (R434). -/

/-- A receiver takes an output unless it has its number already. -/
def State.deliver (s : State) (seq : Nat) (o : StagOut) : State :=
  if seq ≤ s.stag.acked then s
  else
    let s : State := { s with stag := { s.stag with acked := seq } }
    match o with
    | .event => s
    | .throttle c p => { s with therm := { s.therm with pstag := SMap.set (fun _ => 0) s.therm.pstag c.key p.val } }
    | .message dst code a b => s.emit (.mgmt dst code a b)

/-- With no standby in STANDBY, the holder sends what it held. -/
def State.sendHeld (s : State) : State :=
  let l := s.stag.held
  l.foldl (fun (s : State) x => s.deliver x.1 x.2) { s with stag := { s.stag with held := [] } }

/-! Transfers to the next device (R488 to R490). -/

/-- Block `n` of an image. -/
def imgBlock (d : List Byte) (n : Nat) : List Byte :=
  let b := slice d (4096 * n) 4096
  b ++ List.replicate (4096 - b.length) 0#8

/-- Sends a block of the transfer over the fabric, which delivers only once FAB_TOPO is valid. -/
def State.sendBlock (s : State) (x : ChainTx) : State :=
  let s : State := { s with fw := { s.fw with tx := some { x with time := s.now } } }
  if bit (s.reg R.fabStatus) 0 then s.emit (.chain (nth x.head.pos x.head.list 0 % 512) x.head x.sent 0 (imgBlock x.image x.sent)) else s

/-- Starts the transfer of an image to the entry of the list at a position, if there is one. Over the CHAIN_OUT
pair the whole transfer goes twice and nothing comes back. -/
def State.startChain (s : State) (image : List Byte) (list : List Nat) (pos atTime : Nat) : State :=
  let total := (image.length + 4095) / 4096
  let status := fun sent => BitVec.ofNat 64 (pos * 2 ^ 32 + list.length * 2 ^ 16 + sent)
  match list[pos]? with
  | none => ({ s with fw := { s.fw with tx := none } } : State).setReg R.fwChainStatus (BitVec.ofNat 64 (list.length * 2 ^ 16))
  | some e =>
    let h : ChainHead := { id := (s.freeWord 0).toNat, total := total, wire := decide (32768 ≤ e), list := list, pos := pos, atTime := atTime }
    let s := s.drew 1
    if h.wire then
      let s := s.emits ((rangeFrom 0 (2 * total)).map fun i => .chain e h (i % total) (i / total) (imgBlock image (i % total)))
      ({ s with fw := { s.fw with tx := none } } : State).setReg R.fwChainStatus (status total)
    else (s.setReg R.fwChainStatus (status 0)).sendBlock { image := image, head := h, sent := 0, time := s.now }

/-- A new holder restarts a transfer from its beginning (R445). -/
def State.restartChain (s : State) : State :=
  match s.fw.tx with
  | some x => (s.setRfld R.fwChainStatus 0 13 0).sendBlock { x with sent := 0 }
  | none => s

/-! The interlock (R430 to R432, R439, R441, R442). -/

/-- The holder changes: the interlock changed hands (R424, source 63). -/
def State.setHolder (s : State) (h : Nat) : State :=
  ((if s.holder = h then s else s.stagEdge 63).setRfld R.mgtStagStatus 0 2 h).setReg R.mgtStagLast (BitVec.ofNat 64 s.now)

/-- A takeover is reported, and counted unless it is the take of the start-up (cause 3). Recalibrations under way are
abandoned (R410). -/
def State.takeover (s : State) (u cause : Nat) : State :=
  let s := s.opt.recal.foldl State.dropRecal s
  let s := s.event 0x0E01 (b1 u ++ b1 cause)
  if cause = 3 then s else (s.count R.mgtStagStats 48 16).ledger 46

/-- A stag takes the interlock: from STANDBY as HOLDER, else in RECOVERY (R432). -/
def State.grab (s : State) (u cause : Nat) : State :=
  let v := if s.stagState u = 3 then 4 else 5
  let s := ((s.setStagState u v).setHolder u).takeover u cause
  let s : State := { s with stag := { s.stag with startWait := false, holdoff := none } }
  s.restartChain

/-- The holder hands the interlock to the partner in STANDBY (R441, R442). -/
def State.handOver (s : State) (cause : Nat) : State :=
  let h := s.holder
  let p := 1 - h
  let s := ((s.setStagState h 3).setStagState p 4).setHolder p
  let s := s.takeover p cause
  let s : State := { s with stag := { s.stag with holdoff := if p = 1 then some s.now else none } }
  s.restartChain

/-- A stag core reports the events that it lost to the holder (R420): the ledger counts those not yet reported. -/
def State.stagLosses (s : State) (u : Nat) : State :=
  let n := (s.stagIntc u).lost
  let seen := SMap.get (fun _ => 0) s.stag.lostSeen (16 + u)
  if n ≤ seen ∨ !s.held then s
  else (({ s with stag := { s.stag with lostSeen := SMap.set (fun _ => 0) s.stag.lostSeen (16 + u) n } } : State).ledgerBy 45 (n - seen))

/-- A stag restarts in SELFTEST: its cores are reset, and what was held for its acknowledgement goes. -/
def State.restartStag (s : State) (u v : Nat) : State :=
  let s := (s.stagLosses (2 * u)).stagLosses (2 * u + 1)
  let s : State := { s with
    stagCtl := s.stagCtl.filter fun x => decide (x.1 / 2 ≠ u),
    stag := { s.stag with
      holdoff := if u = 0 then none else s.stag.holdoff
      lostSeen := s.stag.lostSeen.filter fun x => decide (x.1 / 2 ≠ 8 + u) } }
  (s.setStagState u v).sendHeld

/-- Is a stag FAILED or in RESET (R495)? -/
def State.stagOut (s : State) (u : Nat) : Bool := decide (s.stagState u = 0) || decide (s.stagState u = 6)

end Sys2Proof.Machine
end

