-- ==== Sys2Proof/Machine/Firmware.lean ====
section
/-!
DEFINITION. Firmware: staging, the chain, activation, confirmation and fallback, start-up defaults, the
owner's records, quotes, and package-flash operations (R485 to R508, R529).
-/

namespace Sys2Proof.Machine

/-! The move of both stags and the die controllers to a slot (R493, R495, R497). -/

/-- Is a stag running the trial slot? -/
def State.onTrial (s : State) (u : Nat) : Bool := s.fw.onTrial.contains u

/-- A stag restarts on the trial slot or on the confirmed one. -/
def State.bootStag (s : State) (u : Nat) (trial : Bool) : State :=
  let l := s.fw.onTrial.filter fun x => decide (x ≠ u)
  ({ s with fw := { s.fw with onTrial := if trial then u :: l else l } } : State).restartStag u 1

/-- Dies that answer. -/
def State.upDies (s : State) : List Nat := (rangeFrom 0 8).filter s.dieUp

/-- The move ends: the trial is under way, or the fallback is over. -/
def State.endMove (s : State) : State :=
  if s.phase = 4 then
    let t := s.fw.other
    ((((s.runSlot t).event 0x1004 (b1 t.toNat ++ natToBytes 4 s.fw.pulses)).count R.fwStats 32 16).ledger 49).setPhase 5
  else if s.phase = 6 then
    ((s.runSlot s.fw.boot.confirmed).setReg R.fwHealthConfirm 0).setPhase 0
  else s

/-- Goes on with a move under way as far as the stags' states allow: the partner restarts, the holder hands
over to it in STANDBY and restarts in turn, then the die controllers reload. -/
def State.moveStep (s : State) : State :=
  let want := decide (s.phase = 4)
  if (s.phase ≠ 4 ∧ s.phase ≠ 6) ∨ !s.held then s
  else
    let h := s.holder
    let p := 1 - h
    if s.onTrial p ≠ want then s.bootStag p want
    else if s.stagState p ≠ 3 then s
    else if s.onTrial h ≠ want then (s.handOver 1).bootStag h want
    else
      let l := s.upDies
      let s : State := { s with fw := { s.fw with reload := l } }
      if l.isEmpty then s.endMove else s

/-- A fallback begins: both stags move back, or the device starts anew where only one of them can act. -/
def State.fallBack (s : State) (cause : Nat) : State :=
  let s := s.failTrial cause
  if s.stagOut 0 || s.stagOut 1 then s.cold 7 else (s.setPhase 6).moveStep

/-- The activating pulse (R493, R495). -/
def State.activate (s : State) : State :=
  let s := s.setSchedule none
  let one := s.stagOut 0 || s.stagOut 1
  let s := s.setBoot { s.fw.boot with trial := true, arm := one }
  let s := (s.setReg R.fwHealthDeadline (BitVec.ofNat 64 (s.now + 120000000000))).setReg R.fwHealthConfirm 0
  if one then s.cold 7 else (s.setPhase 4).moveStep

/-- An accepted pulse that serves no time alignment activates what is due; one that does lets a due activation
wait (R492). -/
def State.pulseFor (s : State) (used : Bool) : State :=
  let w := s.reg R.fwActTime
  if !bit w 63 ∨ s.now % 2 ^ 62 < fld w 0 62 ∨ !s.held then s
  else
    let s := if s.fw.pulses = 0 then s.stagEdge 70 else s
    if used || !s.aligned then { s with fw := { s.fw with pulses := s.fw.pulses + 1 } } else s.activate

/-- A die controller starts to reload: each core of its die stops at an instruction boundary (R494). -/
def State.startReload (s : State) (d : Nat) : State :=
  ({ s with fw := { s.fw with pausing := some { die := d, since := s.now, late := [] } } } : State).onDieCores d fun _ c => c.pauseFor

/-- A die controller is done, or its die is down and it is skipped (R508): the next ones follow, and after the last the move
ends. -/
def State.reloaded (s : State) (d : Nat) : State :=
  let l := s.fw.reload.filter fun x => decide (x ≠ d) && s.dieUp x
  let s : State := { s with fw := { s.fw with reload := l } }
  let want := decide (s.phase = 4)
  if l.isEmpty && s.held && s.onTrial 0 == want && s.onTrial 1 == want && s.stagState (1 - s.holder) == 3 then s.endMove else s

/-- The new image runs: the cores go on from the same state, and the fault replies that waited act (R494, R501). -/
def State.endReload (s : State) (x : Reload) : State :=
  let s : State := { s with fw := { s.fw with pausing := none } }
  let s := (s.onDieCores x.die fun _ c => c.unpause).dieExt x.die
  let s := x.late.foldl (fun s r => s.replyFault r.1 r.2) s
  s.reloaded x.die

/-- A die controller reloads (R494): the first command for its die begins the pause of its cores and the second ends it; a
tick ends it at 5 ms (DESIGN CHOICE, log entry 55). -/
def execDieControllerReload (d : Die) (s : State) : Host.Outcome State Fault Refusal :=
  .next (match s.fw.pausing with
    | some x => if x.die = d.val then s.endReload x else s
    | none =>
      if !s.fw.reload.contains d.val then s
      else if s.dieUp d.val then s.startReload d.val
      else s.reloaded d.val)

/-- The pause of a reload ends within 5 ms of its start (R494). -/
def State.reloadTick (s : State) : State :=
  match s.fw.pausing with
  | some x => if x.since + 5000000 ≤ s.now then s.endReload x else s
  | none => s

/-! Staging (R488, R491). -/

/-- Staging fails: the slot is marked empty (R491). -/
def State.stageFail (s : State) (cause : Nat) : State :=
  let e := s.fw.staging.bind (·.entry)
  let q := s.fw.queue.filter fun o => match o with | .slot _ _ => false | _ => true
  let s : State := { s with fw := { s.fw with staging := none, queue := q } }
  let s := ((s.markSlot s.fw.other 0).setPhase 0).event 0x1002 (b1 cause)
  match e with
  | some (r, i) => s.endBy r i 0x0B 0
  | none => s

/-- A checked image goes into the inactive slot: it is erased, and a schedule is cleared (R491, R492). -/
def State.beginStage (s : State) (image : List Byte) (atTime : Nat) (entry : Option (Nat × Nat)) : State :=
  let b := s.fw.other
  let s := ((s.markSlot b 0).setSchedule none).setPhase 1
  ({ s with fw := { s.fw with staging := some { image := image, atTime := atTime, entry := entry, written := false } } } : State).flashAsk (.slot b image)

/-- Why an image or transfer is refused, if it is: busy, or it does not verify (R491). -/
def State.stageFault (s : State) (image : List Byte) : Option Nat :=
  if (4 ≤ s.phase ∧ s.phase ≤ 6) ∨ s.fw.staging.isSome then some 2 else imageFault s.minVersion image

/-- Reports why an image is refused, and counts one that did not verify. -/
def State.refuseImage (s : State) (cause : Nat) : State :=
  let s := s.event 0x1002 (b1 cause)
  if cause < 2 then s.count R.fwStats 16 16 else s

/-- Bytes read for a command, filled with zeros. -/
def fillData (n : Nat) (d : List Byte) : List Byte := d.take n ++ List.replicate (n - d.length) 0#8

/-- FW_STAGE: the image and the list were read with an outcome `st`: 0 good, 1 error, 2 poisoned (R579). -/
def execFwStage (st : Fin 3) (image list : List Byte) (s : State) : Host.Outcome State Fault Refusal :=
  .next (s.mgmtRun 0x1001 [mask 0 64, mask 0 64, mask 0 64, mask 0 10, mask 0 64] fun s e =>
    let n := (e.w 4).toNat
    let k := fld (e.w 6) 0 10
    if (e.w 3).toNat % 64 ≠ 0 ∨ 2 ^ 24 < n ∨ 512 < k then s.endMgmt e 0x0B 0
    else if st ≠ 0 then s.endMgmt e (hostCode st.val) 0
    else
      let d := fillData n image
      let l := (rangeFrom 0 k).map fun i => leAt list (2 * i) 2
      match s.stageFault d with
      | some c => (s.refuseImage c).endMgmt e 0x0B 0
      | none =>
        let s : State := { s with host := { s.host with mgmt := s.host.mgmt.erase e } }
        (s.beginStage d (e.w 7).toNat (some (e.ring, e.index))).startChain d l 0 (e.w 7).toNat)

/-- The slot is read back: `ok` says that every section's hash matches. -/
def execStagingDone (ok : Bool) (s : State) : Host.Outcome State Fault Refusal :=
  .next (match s.fw.staging with
    | none => s
    | some x =>
      if !x.written then s
      else if !ok then s.stageFail 3
      else
        let b := s.fw.other
        let s : State := { s with fw := { s.fw with staging := none } }
        let s := ((s.markSlot b 1).setPhase 2).count R.fwStats 0 16
        let s := s.event 0x1001 (b1 b.toNat ++ natToBytes 4 (imgSecver x.image))
        let s := if x.atTime ≠ 0 then ({ s with fw := { s.fw with pulses := 0 } } : State).setSchedule (some x.atTime) else s
        let s := if x.atTime ≠ 0 then s.setPhase 3 else s
        match x.entry with
        | some (r, i) => s.endBy r i 0 0
        | none => s)

/-! The chain, as a receiver and as a sender (R488 to R490). -/

/-- Recovery's image is written into slot A, which is confirmed, and the device starts anew (R485). -/
def State.recover (s : State) (image : List Byte) : State :=
  let c := s.fw.boot
  let c := { c with stateA := 2, stateB := if c.stateB = 2 then 1 else c.stateB, confirmed := false, trial := false, arm := false, seq := c.seq + 1 }
  (({ s with fw := { s.fw with slotA := image, boot := c } } : State).flashKeep (.boot c)).fwShow.holdCold 7

/-- A block of a transfer arrived good. The transfer is complete once every block has. -/
def State.chainBlock (s : State) (h : ChainHead) (n : Nat) (data : List Byte) : State :=
  let old := match s.fw.rx with | some x => if x.head = h then x.blocks else [] | none => []
  let l := old.filter (fun x => decide (x.1 ≠ n)) ++ [(n, fillData 4096 data)]
  if l.length < h.total then { s with fw := { s.fw with rx := some { head := h, blocks := l } } }
  else
    let s : State := { s with fw := { s.fw with rx := none } }
    let all := (rangeFrom 0 h.total).flatMap fun i => match l.find? fun x => decide (x.1 = i) with | some x => x.2 | none => []
    let image := all.take (min (leAt all 0x18 8) all.length)
    if s.phase = 7 then
      match imageFault s.minVersion image with
      | none => s.recover image
      | some _ => s.count R.fwStats 16 16
    else match s.stageFault image with
      | some c => s.refuseImage c
      | none => (s.beginStage image h.atTime none).startChain image h.list (h.pos + 1) h.atTime

/-- Is a transfer refused at once (R491)? -/
def State.chainBusy (s : State) : Bool := (decide (4 ≤ s.phase) && decide (s.phase ≤ 6)) || s.fw.staging.isSome

/-- The chain breaks at the next device (R489). -/
def State.breakChain (s : State) : State :=
  match s.fw.tx with
  | some x => ({ s with fw := { s.fw with tx := none } } : State).event 0x1003
      (natToBytes 2 x.head.pos ++ natToBytes 2 (nth x.head.pos x.head.list 0 % 512))
  | none => s

def execChainTransferBlock (x : ChainStep) (s : State) : Host.Outcome State Fault Refusal :=
  .next (match x with
    | .received h n data =>
      if h.total ≤ n ∨ !s.held then s
      else if s.chainBusy then (if n = 0 then s.refuseImage 2 else s).emit (.chainAck h.id n false)
      else (s.emit (.chainAck h.id n true)).chainBlock h n data
    | .acked ok =>
      match s.fw.tx with
      | none => s
      | some x =>
        if !ok then s.breakChain
        else
          let k := x.sent + 1
          let s := s.setRfld R.fwChainStatus 0 13 k
          if x.head.total ≤ k then { s with fw := { s.fw with tx := none } } else s.sendBlock { x with sent := k })

def execChainAckTimeout (s : State) : Host.Outcome State Fault Refusal :=
  .next (match s.fw.tx with
    | some x => if x.time + 1000000000 ≤ s.now then s.breakChain else s
    | none => s)

/-- A frame of the CHAIN_IN pair; one with a bad CRC counts for nothing. -/
def execChainInFrame (h : ChainHead) (block : Nat) (data : List Byte) (crcOk : Bool) (s : State) : Host.Outcome State Fault Refusal :=
  .next (
    let h := { h with wire := true }
    if !crcOk ∨ h.total ≤ block ∨ (!s.held ∧ s.phase ≠ 7) then s
    else if s.chainBusy then (if block = 0 then s.refuseImage 2 else s)
    else s.chainBlock h block data)

/-- A pass of a CHAIN_IN transfer ends; after the second, missing blocks end the staging. -/
def execChainInPassEnd (second : Bool) (s : State) : Host.Outcome State Fault Refusal :=
  .next (match s.fw.rx with
    | some x => if second && x.head.wire then ({ s with fw := { s.fw with rx := none } } : State).refuseImage 4 else s
    | none => s)

/-! Activation, confirmation and fallback as commands (R487, R492, R496, R497). -/

/-- FW_ACTIVATE: a valid staged slot exists and no activation or trial runs. -/
def execFwActivate (s : State) : Host.Outcome State Fault Refusal :=
  .next (s.mgmtRun 0x1002 [mask 0 62, 0, 0, 0, 0] fun s e =>
    if s.fw.slotState s.fw.other = 1 ∧ (s.phase = 0 ∨ s.phase = 2 ∨ s.phase = 3) then
      let s : State := { s with fw := { s.fw with pulses := 0 } }
      ((s.setSchedule (some (fld (e.w 3) 0 62))).setPhase 3).endMgmt e 0 0
    else s.endMgmt e 0x0B 0)

def execFwCancel (s : State) : Host.Outcome State Fault Refusal :=
  .next (s.mgmtRun 0x1003 [0, 0, 0, 0, 0] fun s e =>
    if bit (s.reg R.fwActTime) 63 then ((s.setSchedule none).setPhase 2).endMgmt e 0 0 else s.endMgmt e 0x0B 0)

/-- Is the health window open? -/
def State.inWindow (s : State) : Bool := decide (s.now < (s.reg R.fwHealthDeadline).toNat)

def execFwHostOk (s : State) : Host.Outcome State Fault Refusal :=
  .next (s.mgmtRun 0x1004 [0, 0, 0, 0, 0] fun s e =>
    let s := if s.fw.boot.trial && s.inWindow then s.setRfld R.fwHealthConfirm 1 1 1 else s
    s.endMgmt e 0 0)

def execFwFallback (s : State) : Host.Outcome State Fault Refusal :=
  .next (s.mgmtRun 0x1005 [0, 0, 0, 0, 0] fun s e =>
    if s.phase = 5 then (s.endMgmt e 0 0).fallBack 1 else s.endMgmt e 0x0B 0)

/-- The trial image confirms (R496). -/
def execHealthConfirm (s : State) : Host.Outcome State Fault Refusal :=
  .next (
    let host := !s.fw.policy.isEmpty && policyHost s.fw.policy
    if s.phase ≠ 5 ∨ !s.inWindow ∨ !s.held ∨ (host ∧ !bit (s.reg R.fwHealthConfirm) 1) then s
    else
      let c := s.fw.boot
      let t := s.fw.other
      let s := s.setRfld R.fwHealthConfirm 0 1 1
      let s := s.setBoot { (c.setState t 2).setState (!t) 1 with confirmed := t, trial := false }
      let s : State := { s with fw := { s.fw with onTrial := [] } }
      (s.event 0x1005 (b1 t.toNat)).setPhase 0)

/-- The health window ends without a confirmation (R497). -/
def execHealthWindowEnd (s : State) : Host.Outcome State Fault Refusal :=
  .next (if (s.phase = 4 ∨ s.phase = 5) ∧ !s.inWindow ∧ s.held then s.fallBack 0 else s)

/-! Start-up defaults and the owner's records (R498 to R501). -/

/-- The records of a write, if their headers and lengths are right: one step a record. -/
def parseDefaults : Nat → List Byte → Option (List (Nat × List Byte))
  | 0, _ => none
  | n + 1, d =>
    if d.isEmpty then some []
    else
      let k := leAt d 0 1
      let len := leAt d 1 3
      let body := slice d 8 len
      if d.length < 8 ∨ k = 0 ∨ 9 < k ∨ k = 5 ∨ body.length ≠ len ∨ crc32 body ≠ leAt d 4 4 then none
      else match parseDefaults n (d.drop (8 + len)) with
        | some l => some ((k, body) :: l)
        | none => none

/-- The pseudo-channels that a record of kind 4 maps out. -/
def mapOutOf (d : List Byte) : List Nat := (rangeFrom 0 384).filter fun p => (leAt d (4 * (p / 32)) 4).testBit (p % 32)

/-- Every stored record of the kinds written is replaced. -/
def State.storeDefaults (s : State) (l : List (Nat × List Byte)) : State :=
  let has := fun k => l.any fun x => decide (x.1 = k)
  let keep := s.fw.defaults.filter fun x => !has x.1
  let s : State := { s with
    fw := { s.fw with defaults := keep ++ l.filter fun x => decide (x.1 ≠ 4) },
    mem := { s.mem with mapOut := if has 4 then l.foldl (fun m x => if x.1 = 4 then mapOutOf x.2 else m) [] else s.mem.mapOut } }
  s.event 0x100A (natToBytes 2 ((rangeFrom 0 16).foldl (fun n k => if has k then n + 2 ^ k else n) 0))

/-- Stores a record of the owner (R499 to R501, R504): key record 0, policy 1, extension 2. -/
def State.storeOwner (s : State) (what : Nat) (d : List Byte) : State :=
  let f := s.fw
  if what = 0 then
    if zeroAt d 8 128 then
      let gone := !f.ownerKey.isEmpty
      let s : State := { s with fw := { f with ownerKey := [], policy := [], ext := [], reload := if f.ext.isEmpty then f.reload else s.upDies } }
      ((if gone then s.measure [(4, []), (5, [])] else s).fwShow).event 0x1007 (natToBytes 8 0)
    else (({ s with fw := { f with ownerKey := d } } : State).fwShow).event 0x1007 (natToBytes 8 (ownerId d))
  else if what = 1 then (({ s with fw := { f with policy := d } } : State).measure [(4, d)]).fwShow
  else (({ s with fw := { f with ext := d, reload := s.upDies } } : State).measure [(5, d)]).fwShow

/-- A flash operation other than a slot write or a ledger record takes effect. -/
def State.flashDo (s : State) (o : FlashOp) : State :=
  match o with
  | .defaults r i l apply =>
    let s := (s.storeDefaults l).endBy r i 0 (BitVec.ofNat 64 l.length)
    if apply then s.cold 7 else s
  | .owner r i what d => (s.storeOwner what d).endBy r i 0 0
  | _ => s

/-- Performs a flash operation that finds no other before it, else asks for it (R529, log entry 33); just after a
takeover in overlap mode it waits (R444). -/
def State.flashRun (s : State) (e : SqEntry) (o : FlashOp) : State :=
  let s : State := { s with host := { s.host with mgmt := s.host.mgmt.erase e } }
  if s.fw.queue.isEmpty && !s.justTaken then s.flashDo o else s.flashAsk o

def execDefaultsWrite (st : Fin 3) (data : List Byte) (s : State) : Host.Outcome State Fault Refusal :=
  .next (s.mgmtRun 0x1006 [mask 0 64, mask 0 64, mask 0 1, 0, 0] fun s e =>
    let n := (e.w 4).toNat
    if 0x100000 < n then s.endMgmt e 0x0B 0
    else if st ≠ 0 then s.endMgmt e (hostCode st.val) 0
    else match parseDefaults (n + 1) (fillData n data) with
      | some l => s.flashRun e (.defaults e.ring e.index l (bit (e.w 5) 0))
      | none => s.endMgmt e 0x0B 0)

def execDefaultsRead (s : State) : Host.Outcome State Fault Refusal :=
  .next (s.mgmtRun 0x1007 [mask 0 64, mask 0 64, 0, 0, 0] fun s e =>
    let d := s.defaultRecords.flatMap defaultBytes
    if (e.w 4).toNat < d.length then s.endMgmt e 0x0B 0 else s.mgmtReturn e (e.w 3).toNat d)

def execOwnerEnrol (st : Fin 3) (data : List Byte) (s : State) : Host.Outcome State Fault Refusal :=
  .next (s.mgmtRun 0x1008 [mask 0 64, 0, 0, 0, 0] fun s e =>
    let d := fillData 256 data
    if st ≠ 0 then s.endMgmt e (hostCode st.val) 0
    else if ownerOk s.fw.ownerKey d then s.flashRun e (.owner e.ring e.index 0 d)
    else s.endMgmt e 0x0B 0)

/-- Is an activation, trial or fallback under way (R508)? -/
def State.inTrial (s : State) : Bool := decide (4 ≤ s.phase) && decide (s.phase ≤ 6)

def execOwnerPolicy (st : Fin 3) (data : List Byte) (s : State) : Host.Outcome State Fault Refusal :=
  .next (s.mgmtRun 0x1009 [mask 0 64, 0, 0, 0, 0] fun s e =>
    let d := fillData 256 data
    if st ≠ 0 then s.endMgmt e (hostCode st.val) 0
    else if !s.inTrial && policyOk s.fw.ownerKey s.fw.policy d && decide (policyMin d ≤ imgSecver (s.fw.slotData s.fw.boot.confirmed)) then
      s.flashRun e (.owner e.ring e.index 1 d)
    else s.endMgmt e 0x0B 0)

def execOwnerExt (st : Fin 3) (data : List Byte) (s : State) : Host.Outcome State Fault Refusal :=
  .next (s.mgmtRun 0x100A [mask 0 64, mask 0 64, 0, 0, 0] fun s e =>
    let n := (e.w 4).toNat
    let d := fillData n data
    if 0xC0000 < n then s.endMgmt e 0x0B 0
    else if st ≠ 0 then s.endMgmt e (hostCode st.val) 0
    else if !s.inTrial && extOk s.fw.ownerKey s.minVersion d then s.flashRun e (.owner e.ring e.index 2 d)
    else s.endMgmt e 0x0B 0)

/-! Quotes and certificates (R503 to R505). -/

/-- Measurement `m`: SHA-384 of what it measures, or zeros where that is absent. -/
def State.measurement (s : State) (m : Nat) : List Byte :=
  match s.fw.meas[m]? with
  | some (b :: t) => sha384 (b :: t)
  | _ => List.replicate 48 0#8

/-- The response to a quote request, if the request is well formed and the identity key is there. -/
def State.quote (s : State) (req : List Byte) : Option (List Byte) :=
  let m := leAt req 32 1
  if req.length ≠ 64 ∨ 128 ≤ m ∨ !zeroAt req 33 31 ∨ !bit (s.reg R.secStatus) 0 then none
  else
    let body := natToBytes 8 (0x5154 * 2 ^ 48 + 2 ^ 40 + m) ++ natToBytes 8 s.now ++ wordBytes Config.serial
      ++ natToBytes 8 (s.rfld R.secMeasSeq 0 32) ++ slice req 0 32
      ++ (rangeFrom 0 7).flatMap fun i => if m.testBit i then s.measurement i else []
    some (body ++ (rangeFrom 0 96).map (Config.deviceSign body))

def execQuote (st : Fin 3) (data : List Byte) (s : State) : Host.Outcome State Fault Refusal :=
  .next (s.mgmtRun 0x100B [mask 0 64, mask 0 64, mask 0 64, 0, 0] fun s e =>
    if st ≠ 0 then s.endMgmt e (hostCode st.val) 0
    else match s.quote (fillData 64 data) with
      | some r => if (e.w 5).toNat < r.length then s.endMgmt e 0x0B 0 else s.mgmtReturn e (e.w 4).toNat r
      | none => s.endMgmt e 0x0B 0)

def execCertRead (s : State) : Host.Outcome State Fault Refusal :=
  .next (s.mgmtRun 0x100C [mask 0 64, mask 0 64, 0, 0, 0] fun s e =>
    if (e.w 4).toNat < Config.certChain.length then s.endMgmt e 0x0B 0 else s.mgmtReturn e (e.w 3).toNat Config.certChain)

/-! Package flash (R508, R517, R529). -/

/-- Is an operation a slot write, and is it a short write? -/
def FlashOp.isSlot (o : FlashOp) : Bool := match o with | .slot _ _ => true | _ => false
def FlashOp.short (o : FlashOp) : Bool := match o with
  | .slot _ _ => false
  | .defaults _ _ l _ => l.all fun x => decide (x.1 = 4) || decide (x.1 = 6)
  | _ => true

/-- The operation that completes: the oldest, or the oldest short one while a slot write is in progress. -/
def State.flashNext (s : State) (slot : Bool) : Option FlashOp :=
  match s.fw.queue with
  | [] => none
  | o :: rest => if o.isSlot = slot then some o else if o.isSlot then rest.find? (·.short) else none

/-- A package-flash operation completes: a slot write or another, good or failed. A failed write of boot control, of the
map-out or retired list, or of the source map is tried again (DESIGN CHOICE, log entry 33). -/
def execFlashOpComplete (slot ok : Bool) (s : State) : Host.Outcome State Fault Refusal :=
  .next (match if s.held then s.flashNext slot else none with
    | none => s
    | some o =>
      let s := s.stagEdge 71
      let done := fun (s : State) => ({ s with fw := { s.fw with queue := s.fw.queue.erase o } } : State)
      match o with
      | .boot _ | .mapOut _ | .retired _ | .sources _ => if ok then (done s).flashKeep o else s
      | .ledger day seq r =>
        let s := s.storeRecord day seq r ok
        if !ok then s
        else
          let s := done s
          if s.fw.queue.any fun x => match x with | .ledger _ _ _ => true | _ => false then s else s.setRfld R.lifeStatus 31 1 0
      | .defaults r i _ _ => if ok then (done s).flashDo o else (done s).endBy r i 0x0B 0
      | .owner r i _ _ => if ok then (done s).flashDo o else (done s).endBy r i 0x0B 0
      | .slot b d =>
        let s := done s
        if !ok then s.stageFail 3
        else
          let s : State := { s with fw := { s.fw with
            slotA := if b then s.fw.slotA else d, slotB := if b then d else s.fw.slotB,
            staging := s.fw.staging.map fun x => { x with written := true } } }
          s.fwShow)

end Sys2Proof.Machine
end

