-- ==== Sys2Proof/Machine/Gazelle.lean ====
section
/-!
DEFINITION. gazelle (R97 to R102, R149, R575 to R577).
-/

namespace Sys2Proof.Machine

/-- The fields of a gazelle command (R97). -/
structure GazCmd where
  fmt : Fmt
  ofmt : Fmt
  rnd : Nat
  t1 : Nat
  t2 : Nat
  d : Nat
  a : Nat
  gamma : Nat
  beta : Nat
  pitch : Nat
  rows : Nat
  n : Nat
  eps : Nat
  s : Nat

/-- Reads the fields; a reserved format code reads as INT32, which gazelle refuses. -/
def GazCmd.of (q : Quad) : GazCmd :=
  { fmt := (Fmt.ofCode (fld q.w0 50 4)).getD .int32, ofmt := (Fmt.ofCode (fld q.w0 46 4)).getD .int32,
    rnd := fld q.w0 43 3, t1 := fld q.w0 39 4, t2 := fld q.w0 35 4, d := fld q.w0 0 21, a := fld q.w1 0 21,
    gamma := fld q.w1 21 21, beta := fld q.w1 42 21, pitch := fld q.w2 36 15, rows := fld q.w2 20 16,
    n := fld q.w2 0 20, eps := fld q.w3 32 32, s := fld q.w3 0 32 }

/-- The four row operations of R98. -/
inductive GazOp where
  | eval | softmax | rmsnorm | lnorm
  deriving DecidableEq, Repr

/-- The regions in field order: d; a, gamma, beta (R576). A pitched region is the whole span from its first byte to
its last, the gaps between its rows included (DESIGN CHOICE, log entry 81). -/
def GazCmd.regions (c : GazCmd) (op : GazOp) : (Nat × Nat) × List (Nat × Nat) :=
  let row := c.n * c.fmt.bytes
  let g := if op = .rmsnorm ∨ op = .lnorm then [(c.gamma, row)] else []
  let b := if op = .lnorm then [(c.beta, row)] else []
  ((c.d, 64 * c.pitch * (c.rows - 1) + c.n * c.ofmt.bytes), (c.a, 64 * c.pitch * (c.rows - 1) + row) :: g ++ b)

/-- Is the format one gazelle takes (R97)? -/
def gazFmt (f : Fmt) : Bool := decide (f = .fp32) || decide (f = .bf16) || decide (f = .fp16)

/-- The checks of the row operations (R79, R87, R97, R98, R574, R576). -/
def gazCheck (op : GazOp) (q : Quad) : Checks :=
  let c := GazCmd.of q
  let bad :=
    decide (fld q.w0 21 14 ≠ 0) || bit q.w1 63 || decide (fld q.w2 51 13 ≠ 0) || decide (4 < c.rnd) ||
    !gazFmt c.fmt || !gazFmt c.ofmt || decide (c.rows = 0) || decide (c.n = 0)
  let (rd, rs) := c.regions op
  { invalid := bad, regions := rd :: rs, pstoreBad := none, aligns := (rd :: rs).map fun r => (r.1, 64),
    slots := match op with | .eval => [c.t1] | .softmax => [c.t1, c.t2] | _ => [c.t2] }

/-- A table as loaded (R99). -/
structure GazTable where
  sym : Nat
  mbits : Nat
  ebase : Nat
  nseg : Nat
  mode : Nat
  lo : Num
  hi : Num
  below : Num
  above : Num
  post : Num
  bytes : List Byte

/-- A 64-bit word of a byte list. -/
def wordAt (l : List Byte) (off : Nat) : Word := bytesWord ((l.drop off).take 8)

/-- An FP32 number of a byte list. -/
def fp32At (l : List Byte) (off : Nat) : Num := decodeFloat .fp32 (bytesToNat ((l.drop off).take 4))

/-- Reads a table's header. -/
def GazTable.of (l : List Byte) : GazTable :=
  let h0 := wordAt l 0
  { sym := fld h0 27 2, mbits := fld h0 24 3, ebase := fld h0 16 8, nseg := fld h0 2 6, mode := fld h0 0 2,
    lo := fp32At l 8, hi := fp32At l 12, below := fp32At l 16, above := fp32At l 20, post := fp32At l 24,
    bytes := l }

/-- Coefficient k of segment i (R99). -/
def GazTable.coef (t : GazTable) (i k : Nat) : Num := fp32At t.bytes (64 + 16 * i + 4 * k)

/-- Does `gazelle.tload` accept a table (R577)? -/
def gazAccepts (l : List Byte) : Bool :=
  let t := GazTable.of l
  let h0 := wordAt l 0
  decide (fld h0 29 35 = 0) && decide (fld h0 8 8 = 0) && decide (fld (wordAt l 24) 32 32 = 0) &&
  ((l.drop 32).take 32).all (· == 0#8) &&
  decide (t.sym ≠ 3) && decide (t.mode < 2) && (decide (t.mode = 0) || decide (t.mbits ≤ 6)) &&
  (decide (t.mode = 1) || (!t.lo.special && !t.hi.special && t.lo.lt t.hi && !(fadd t.hi t.lo.neg).special))

/-- floor of a non-negative number. -/
def Num.floor : Num → Nat
  | .fin _ m e => if 0 ≤ e then m * 2 ^ e.toNat else m / 2 ^ (-e).toNat
  | _ => 0

/-- The polynomial of a segment before its last multiplication, by FP32 fused steps (R100). -/
def GazTable.poly (t : GazTable) (i : Nat) (u : Num) : Num :=
  let p := toFp32 (((t.coef i 3).mul u).add (t.coef i 2))
  let p := toFp32 ((p.mul u).add (t.coef i 1))
  toFp32 ((p.mul u).add (t.coef i 0))

/-- Evaluates a table (R100): the exact value of the last multiplication, or a value returned
early, and whether the rounded result is negated. -/
def GazTable.eval (t : GazTable) (x : Num) : Num × Bool :=
  if x = .nan then (.nan, false)
  else
    let y := if t.sym ≠ 0 then x.abs else x
    let flip := decide (t.sym = 1) && x.isNeg && !x.isZero
    if t.mode = 0 then
      if y.lt t.lo then (t.below, false)
      else if !y.lt t.hi then (t.above, false)
      else
        let w := fadd t.hi t.lo.neg
        let v := fmul (toFp32 ((fadd y t.lo.neg).div w)) (Num.ofInt (t.nseg + 1))
        let i := min v.floor t.nseg
        (t.post.mul (t.poly i (v.add (Num.ofInt (-(i : Int))))), flip)
    else
      let code := encodeFloat .fp32 0 0 false y
      if y.isNeg || y.isZero || decide (code / 2 ^ 23 % 256 < t.ebase) then (t.below, false)
      else
        let m := code % 2 ^ 23
        let i := (code / 2 ^ 23 % 256 - t.ebase) * 2 ^ t.mbits + m / 2 ^ (23 - t.mbits)
        if t.nseg < i then (t.above, false)
        else
          let u : Num := .fin false (m % 2 ^ (23 - t.mbits)) (-(23 - t.mbits : Nat))
          (t.post.mul (t.poly i u), flip)

/-- An evaluation inside a row pass, rounded to FP32 (R149). -/
def GazTable.val (t : GazTable) (x : Num) : Num :=
  let (v, f) := t.eval x
  let r := toFp32 v
  if f then r.neg else r

/-- The last step of an output element (R149): under rnd when ofmt is FP32, else to FP32 to nearest
even and then into ofmt under rnd. -/
def gazEmit (c : GazCmd) (l : BitVec 32) (v : Num) (flip : Bool) : Nat × BitVec 32 :=
  let pos (x : Num) := if flip then x.neg else x
  if c.ofmt = .fp32 then
    let (x, l1) := emit .fp32 c.rnd false l v
    (encodeFloat .fp32 0 0 false (pos (decodeFloat .fp32 x)), l1)
  else emit c.ofmt c.rnd false l (pos (toFp32 v))

/-- The output codes of a row, in order. -/
def gazEmits (c : GazCmd) : BitVec 32 → List (Num × Bool) → List Nat × BitVec 32
  | l, [] => ([], l)
  | l, (v, f) :: t =>
    let (x, l1) := gazEmit c l v f
    let (xs, l2) := gazEmits c l1 t
    (x :: xs, l2)

/-- What a row operation hands to its last step, for one row of input values (R98). -/
def gazRow (c : GazCmd) (op : GazOp) (t1 t2 : GazTable) (gamma beta : List Num) (a : List Num) : List (Num × Bool) :=
  let s := decodeFloat .fp32 c.s
  let eps := decodeFloat .fp32 c.eps
  let n := Num.ofInt c.n
  match op with
  | .eval => a.map fun x => t1.eval (fmul x s)
  | .softmax =>
    let xs := a.map fun x => fmul x s
    let mu := listPick .nan Num.max xs
    let e := xs.map fun x => t1.val (fadd x mu.neg)
    let k := t2.val (pairSum fadd .nan e)
    -- the second pass leaves e in d, in ofmt; the third reads it back
    e.map fun v => ((decodeFloat c.ofmt (encodeFloat c.ofmt 0 0 false v)).mul k, false)
  | .rmsnorm =>
    let ms := toFp32 ((pairSum fadd .nan (a.map fun x => fmul x x)).div n)
    let rho := t2.val (fadd ms eps)
    (a.zip gamma).map fun (x, g) => ((fmul x rho).mul g, false)
  | .lnorm =>
    let mu := toFp32 ((pairSum fadd .nan a).div n)
    let dev := a.map fun x => fadd x mu.neg
    let v := toFp32 ((pairSum fadd .nan (dev.map fun x => fmul x x)).div n)
    let k := t2.val (fadd v eps)
    (dev.zip (gamma.zip beta)).map fun (x, g, b) =>
      ((fmul (fmul x k) g).add b (decide (c.ofmt = .fp32) && decide (c.rnd = 3)), false)

/-- The rows of a row operation, one unit each. -/
def gazRows (c : GazCmd) (op : GazOp) (m : SMap Byte) (t1 t2 : GazTable) (gamma beta : List Num) :
    BitVec 32 → List Nat → List PlanUnit
  | _, [] => []
  | l, r :: t =>
    let a := (elemsAt m (c.a + 64 * c.pitch * r) c.fmt.bits 0 c.n).map (decodeFloat c.fmt)
    let (xs, l1) := gazEmits c l (gazRow c op t1 t2 gamma beta a)
    { writes := [(c.d + 64 * c.pitch * r, packCodes c.ofmt.bits xs)], lfsr := l1, progress := (r + 1) * c.n,
      restart := true } :: gazRows c op m t1 t2 gamma beta l1 t

/-- The plan of a row operation; only softmax may write over its input (R98). -/
def gazPlan (op : GazOp) (core : Core) (q : Quad) : Running :=
  let c := GazCmd.of q
  let e := core.engine 2
  let slot (n : Nat) := GazTable.of (SMap.get (fun _ => []) e.tables n)
  let row (b : Nat) := (elemsAt core.scratch b c.fmt.bits 0 c.n).map (decodeFloat c.fmt)
  let (rd, rs) := c.regions op
  let same := decide (op = .softmax) && decide (c.a = c.d) && decide (c.ofmt.bits ≤ c.fmt.bits)
  { cmd := q, cnt := q.cnt,
    units := gazRows c op core.scratch (slot c.t1) (slot c.t2) (row c.gamma) (row c.beta) e.lfsr (rangeFrom 0 c.rows),
    done := 0, reads := rs, dests := [rd], fault := none, tainted := overlapping (if same then rs.tail else rs) [rd] }

/-- Starts a row operation. -/
def gazStart (code : Nat) (op : GazOp) (c : CoreId) (s : State) : State :=
  s.onCore c fun env c => c.start1 env 2 code (gazCheck op) (gazPlan op)

def execGazelleEval (c : CoreId) (s : State) : Host.Outcome State Fault Refusal :=
  .next (gazStart 0x01 .eval c s)

def execGazelleSoftmax (c : CoreId) (s : State) : Host.Outcome State Fault Refusal :=
  .next (gazStart 0x02 .softmax c s)

def execGazelleRmsnorm (c : CoreId) (s : State) : Host.Outcome State Fault Refusal :=
  .next (gazStart 0x03 .rmsnorm c s)

def execGazelleLnorm (c : CoreId) (s : State) : Host.Outcome State Fault Refusal :=
  .next (gazStart 0x04 .lnorm c s)

/-- The checks of `gazelle.tload`: every field but op, cnt, t1 and a_addr is reserved (R98, R576). -/
def tloadCheck (q : Quad) : Checks :=
  let a := fld q.w1 0 21
  { invalid := !(zeroOutside q.w0 (opCntMask ||| mask 39 4) && zeroOutside q.w1 (mask 0 21) &&
      decide (q.w2 = 0) && decide (q.w3 = 0)),
    regions := [(a, 1088)], pstoreBad := none, aligns := [(a, 64)], slots := [] }

/-- `gazelle.tload`: the table is read and checked; an accepted one goes to the slot when the command completes, so
that one which an uncorrectable word ends leaves the slot as it was. A table that fails R577 ends it. -/
def Core.tload (env : CoreEnv) (c : Core) : Core :=
  match c.headOp 2 0x05 with
  | none => c
  | some q =>
    let l := Mem.bytes c.scratch (fld q.w1 0 21) 1088
    let ok := ((tloadCheck q).fault []).isNone
    if ok && !gazAccepts l then (c.dropHead 2).cmdFault env 2 q ⟨0x01, none, none⟩ 0
    else
      c.start1 env 2 0x05 tloadCheck fun c q =>
        { cmd := q, cnt := q.cnt, units := [⟨[], (c.engine 2).lfsr, 1, true⟩], done := 0,
          reads := [(fld q.w1 0 21, 1088)], dests := [], fault := none, tainted := false, load := some (fld q.w0 39 4, l) }

def execGazelleTload (c : CoreId) (s : State) : Host.Outcome State Fault Refusal :=
  .next (s.onCore c fun env c => c.tload env)

end Sys2Proof.Machine
end

