-- ==== Sys2Proof/Machine/Impala.lean ====
section
/-!
DEFINITION. impala (R103 to R107).
-/

namespace Sys2Proof.Machine

/-- The fields of an impala command (R103). -/
structure ImpCmd where
  esz : Nat
  iw : Bool
  afmt : Nat
  h : Bool
  rb : Nat
  d : Nat
  sd : Nat
  i : Nat
  s : Nat
  limit : Nat
  count : Nat
  ss : Nat
  ds : Nat
  base : Nat

/-- Reads the fields. -/
def ImpCmd.of (q : Quad) : ImpCmd :=
  { esz := fld q.w0 50 4, iw := bit q.w0 49, afmt := fld q.w0 46 3, h := bit q.w0 45, rb := fld q.w0 33 12,
    d := fld q.w0 0 21, sd := fld q.w1 42 21, i := fld q.w1 21 21, s := fld q.w1 0 21,
    limit := fld q.w2 24 32, count := fld q.w2 0 24, ss := fld q.w3 54 6, ds := fld q.w3 48 6,
    base := fld q.w3 0 48 }

/-- The four operations of R104. -/
inductive ImpOp where
  | gather | scatter | scatadd | rlist
  deriving DecidableEq, Repr

/-- Bytes of an index. -/
def ImpCmd.isz (c : ImpCmd) : Nat := if c.iw then 2 else 4

/-- The regions d, s, i in field order, and which of them is written (R105): elements that indices
below limit reach, or that count indices reach. -/
def ImpCmd.regions (c : ImpCmd) (op : ImpOp) : (Nat × Nat) × List (Nat × Nat) :=
  let e := 2 ^ c.esz
  let ix := (c.i, c.count * c.isz)
  match op with
  | .gather => ((c.d, c.count * e), [(c.s, c.limit * e), ix])
  | .scatter | .scatadd => ((c.d, c.limit * e), [(c.s, c.count * e), ix])
  | .rlist => ((c.d, c.count * 16), [ix])

/-- The element format of `impala.scatadd`. -/
def ImpCmd.addFmt (c : ImpCmd) : Fmt := nth .fp32 [.fp32, .bf16, .int32] c.afmt

/-- The checks of an impala command (R79, R103 to R105, R574): the fields an operation does not name
are reserved; rlist states no alignment of its own (log entry 13). -/
def impCheck (op : ImpOp) (q : Quad) : Checks :=
  let c := ImpCmd.of q
  let named := match op with
    | .gather | .scatter => zeroOutside q.w0 (opCntMask ||| mask 49 5 ||| mask 0 21) && zeroOutside q.w1 (mask 0 42) && decide (q.w3 = 0)
    | .scatadd => zeroOutside q.w0 (opCntMask ||| mask 46 8 ||| mask 0 21) && zeroOutside q.w1 (mask 0 42) && decide (q.w3 = 0)
    | .rlist => zeroOutside q.w0 (opCntMask ||| mask 49 1 ||| mask 33 13 ||| mask 0 21) && zeroOutside q.w1 (mask 21 42) && zeroOutside q.w3 (mask 0 60)
  let bad := !named || decide (fld q.w2 56 8 ≠ 0) || decide (c.count = 0) || decide (10 < c.esz) ||
    (decide (op = .scatadd) && (decide (2 < c.afmt) || decide (2 ^ c.esz < c.addFmt.bytes))) ||
    (decide (op = .rlist) && decide (c.rb = 0))
  let (rd, rs) := c.regions op
  let al := min (2 ^ c.esz) 64
  { invalid := bad, regions := rd :: rs, pstoreBad := none,
    aligns := if op = .rlist then [] else [(c.d, al), (c.s, al)], slots := [] }

/-- Index `i` of the list. -/
def ImpCmd.index (c : ImpCmd) (m : SMap Byte) (i : Nat) : Nat := Mem.nat m (c.i + i * c.isz) c.isz

/-- One element-wise addition of `impala.scatadd` (R149). -/
def impAdd (f : Fmt) (a b : Nat) : Nat :=
  if f = .int32 then (a + b) % 2 ^ 32
  else encodeFloat f 0 0 false ((decodeFloat f a).add (decodeFloat f b))

/-- A gather-list entry (R104, R106). -/
def ImpCmd.entry (c : ImpCmd) (i x : Nat) : List Byte :=
  let len := 16 * c.rb
  let a := if c.ss = 0 then c.base + x * len
    else
      let q := x / 2 ^ c.ds
      let r := x - q * 2 ^ c.ds
      c.base + q * 2 ^ c.ss + r * len
  natToBytes 8 (c.h.toNat * 2 ^ 63 + a % 2 ^ 48) ++ natToBytes 8 ((c.sd + i * len) % 2 ^ 21 * 2 ^ 16 + len)

/-- What index `i` of value `x` writes, on the memory left by the indices before it. -/
def impWrite (c : ImpCmd) (op : ImpOp) (m : SMap Byte) (i x : Nat) : Nat × List Byte :=
  let e := 2 ^ c.esz
  match op with
  | .gather => (c.d + i * e, Mem.bytes m (c.s + x * e) e)
  | .scatter => (c.d + x * e, Mem.bytes m (c.s + i * e) e)
  | .scatadd =>
    let f := c.addFmt
    let k := e / f.bytes
    (c.d + x * e, packCodes f.bits ((rangeFrom 0 k).map fun j =>
      impAdd f (elemAt m (c.d + x * e) f.bits j) (elemAt m (c.s + i * e) f.bits j)))
  | .rlist => (c.d + 16 * i, c.entry i x)

/-- The units, one an index, and the index that is out of range, if one is (R105). -/
def impUnits (c : ImpCmd) (op : ImpOp) : SMap Byte → List Nat → List PlanUnit × Option EngFault
  | _, [] => ([], none)
  | m, i :: t =>
    let x := c.index m i
    if c.limit ≤ x then ([], some ⟨0x05, some i, none⟩)
    else
      let (a, l) := impWrite c op m i x
      let (us, f) := impUnits c op (Mem.write m a l) t
      ({ writes := [(a, l)], lfsr := 0, progress := i + 1,
         restart := decide ((i + 1) % 64 = 0) || decide (i + 1 = c.count) } :: us, f)

/-- The plan of an impala command. -/
def impPlan (op : ImpOp) (core : Core) (q : Quad) : Running :=
  let c := ImpCmd.of q
  let (us, f) := impUnits c op core.scratch (rangeFrom 0 c.count)
  let (rd, rs) := c.regions op
  { cmd := q, cnt := q.cnt, units := us, done := 0, reads := rs, dests := [rd], fault := f,
    tainted := overlapping rs [rd] }

/-- Starts an impala operation. -/
def impStart (code : Nat) (op : ImpOp) (c : CoreId) (s : State) : State :=
  s.onCore c fun env c => c.start1 env 3 code (impCheck op) (impPlan op)

def execImpalaGather (c : CoreId) (s : State) : Host.Outcome State Fault Refusal :=
  .next (impStart 0x01 .gather c s)

def execImpalaScatter (c : CoreId) (s : State) : Host.Outcome State Fault Refusal :=
  .next (impStart 0x02 .scatter c s)

def execImpalaScatadd (c : CoreId) (s : State) : Host.Outcome State Fault Refusal :=
  .next (impStart 0x03 .scatadd c s)

def execImpalaRlist (c : CoreId) (s : State) : Host.Outcome State Fault Refusal :=
  .next (impStart 0x04 .rlist c s)

end Sys2Proof.Machine
end

