-- ==== Sys2Proof/Machine/Kudu.lean ====
section
/-!
DEFINITION. kudu (R89 to R93) and its exact block accumulation (R152 to R158).
-/

namespace Sys2Proof.Machine

/-- The fields of `kudu.mma` (R89). -/
structure KuduCmd where
  fa : Fmt
  fb : Fmt
  fc : Nat
  acc : Bool
  sp : Nat
  sps : Bool
  rnd : Nat
  tb : Bool
  aAddr : Nat
  metaAddr : Nat
  cAddr : Nat
  bAddr : Nat
  bPitch : Nat
  aPitch : Nat
  kt : Nat
  nt : Nat
  mt : Nat
  sbAddr : Nat
  saAddr : Nat
  cPitch : Nat

/-- Reads the fields of a `kudu.mma`; none for a reserved format code. -/
def KuduCmd.of (q : Quad) : Option KuduCmd :=
  match Fmt.ofCode (fld q.w0 50 4), Fmt.ofCode (fld q.w0 46 4) with
  | some fa, some fb =>
    some { fa := fa, fb := fb, fc := fld q.w0 44 2, acc := bit q.w0 43, sp := fld q.w0 41 2,
           sps := bit q.w0 40, rnd := fld q.w0 37 3, tb := bit q.w0 36, aAddr := fld q.w0 0 21,
           metaAddr := fld q.w1 42 21, cAddr := fld q.w1 21 21, bAddr := fld q.w1 0 21,
           bPitch := fld q.w2 47 15, aPitch := fld q.w2 32 15, kt := fld q.w2 20 12,
           nt := fld q.w2 10 10, mt := fld q.w2 0 10, sbAddr := fld q.w3 36 21,
           saAddr := fld q.w3 15 21, cPitch := fld q.w3 0 15 }
  | _, _ => none

/-- Elements of a dense row of A, and of B with tb = 1: K. -/
def KuduCmd.k (c : KuduCmd) : Nat := 32 * c.kt

/-- Is A, or B, the sparse operand (R156)? -/
def KuduCmd.sparse (c : KuduCmd) (b : Bool) : Bool := decide (c.sp ≠ 0) && c.sps == b

/-- The format of C. -/
def KuduCmd.cFmt (c : KuduCmd) : Fmt := nth .fp32 [.fp32, .bf16, .fp16, .int32] c.fc

/-- Bytes of a stored row of A. -/
def KuduCmd.aRow (c : KuduCmd) : Nat := rowBytes c.fa (if c.sparse false then c.k / 2 else c.k)

/-- Rows of B as stored, and bytes of one. -/
def KuduCmd.bRow (c : KuduCmd) : Nat × Nat :=
  if c.tb then (32 * c.nt, rowBytes c.fb (if c.sparse true then c.k / 2 else c.k))
  else (c.k, rowBytes c.fb (32 * c.nt))

/-- Bytes of a row of C. -/
def KuduCmd.cRow (c : KuduCmd) : Nat := rowBytes c.cFmt (32 * c.nt)

/-- Metadata bytes of a row (R156). -/
def KuduCmd.metaRow (c : KuduCmd) : Nat := (if c.sp = 1 then 4 else 6) * c.kt

/-- A format that pairs only with itself (R91). -/
def kuduSolo (f : Fmt) : Bool := decide (f = .fp32) || decide (f = .l8) || decide (f = .int8)

/-- Bytes of a pitched region: the whole span from its first byte to its last, the gaps between its rows included
(DESIGN CHOICE, log entry 81). -/
def span (pitch rows row : Nat) : Nat := 64 * pitch * (rows - 1) + row

/-- The regions A, B, the scales and the metadata, and C. -/
def KuduCmd.regions (c : KuduCmd) : List (Nat × Nat) × (Nat × Nat) :=
  let a := (c.aAddr, span c.aPitch (16 * c.mt) c.aRow)
  let b := (c.bAddr, span c.bPitch c.bRow.1 c.bRow.2)
  let m := if c.sp = 0 then [] else
    [(c.metaAddr, (if c.sps then 32 * c.nt else 16 * c.mt) * c.metaRow)]
  let sa := if c.fa.mx then [(c.saAddr, 16 * c.mt * c.kt)] else []
  let sb := if c.fb.mx then [(c.sbAddr, 32 * c.nt * c.kt)] else []
  ([a, b] ++ m ++ sa ++ sb, (c.cAddr, span c.cPitch (16 * c.mt) c.cRow))

/-- The checks of `kudu.mma` (R79, R87, R91, R158, R574). -/
def kuduCheck (q : Quad) : Checks :=
  match KuduCmd.of q with
  | none => .only true
  | some c =>
    let ints := decide (c.fa = .int8) && decide (c.fb = .int8)
    let bad :=
      decide (fld q.w0 21 15 ≠ 0) || bit q.w1 63 || decide (fld q.w2 62 2 ≠ 0) || decide (fld q.w3 57 7 ≠ 0) ||
      decide (c.sp = 3) || decide (4 < c.rnd) || decide (c.mt = 0) || decide (c.nt = 0) || decide (c.kt = 0) ||
      decide (c.fa = .int32) || decide (c.fb = .int32) ||
      ((kuduSolo c.fa || kuduSolo c.fb) && decide (c.fa ≠ c.fb)) ||
      (decide (c.fc = 3) != ints) ||
      (c.acc && (decide (c.fc = 1) || decide (c.fc = 2))) ||
      (decide (c.sp ≠ 0) && (decide (c.fa = .fp32) || decide (c.fb = .fp32))) ||
      (decide (c.sp ≠ 0) && c.sps && !c.tb) ||
      decide (64 * c.aPitch < c.aRow) || decide (64 * c.bPitch < c.bRow.2) || decide (64 * c.cPitch < c.cRow)
    let m := if c.sp = 0 then [] else [c.metaAddr]
    let sa := if c.fa.mx then [c.saAddr] else []
    let sb := if c.fb.mx then [c.sbAddr] else []
    let (ins, out) := c.regions
    -- field order: a_addr; b_addr, c_addr, meta_addr; sa_addr, sb_addr
    let regs := match ins with
      | a :: b :: t => a :: b :: out :: t
      | t => out :: t
    { invalid := bad, regions := regs, pstoreBad := none,
      aligns := ([c.aAddr, c.bAddr, c.cAddr] ++ m ++ sa ++ sb).map (·, 64), slots := [] }

/-- The dense positions that one metadata group keeps (R156). -/
def metaGroup (sp : Nat) (f : Nat) : List Nat :=
  if sp = 1 then [f % 4, f / 4 % 4] else [f % 8, f / 8 % 8, f / 64 % 8, f / 512 % 8]

/-- Are the positions strictly increasing (R157)? -/
def increasing : List Nat → Bool
  | a :: b :: t => decide (a < b) && increasing (b :: t)
  | _ => true

/-- The groups of a metadata row. -/
def metaRowGroups (m : SMap Byte) (c : KuduCmd) (row : Nat) : List (List Nat) :=
  let w := if c.sp = 1 then 4 else 12
  let n := c.k / (if c.sp = 1 then 4 else 8)
  (rangeFrom 0 n).map fun g => metaGroup c.sp (elemAt m (c.metaAddr + row * c.metaRow) w g)

/-- A row of a sparse operand by dense position: the code of each kept element, none elsewhere. -/
def sparseRow (m : SMap Byte) (c : KuduCmd) (f : Fmt) (base row : Nat) : List (Option Nat) :=
  let size := if c.sp = 1 then 4 else 8
  let keep := size / 2
  let gs := metaRowGroups m c row
  (gs.zip (rangeFrom 0 gs.length)).flatMap fun (ps, g) =>
    (rangeFrom 0 size).map fun p =>
      match ps.findIdx? (· == p) with
      | some i => some (elemAt m base f.bits (g * keep + i))
      | none => none

/-- Row `r` of A by dense position. -/
def KuduCmd.aVals (c : KuduCmd) (m : SMap Byte) (r : Nat) : List (Option Nat) :=
  let base := c.aAddr + 64 * c.aPitch * r
  if c.sparse false then sparseRow m c c.fa base r
  else (elemsAt m base c.fa.bits 0 c.k).map some

/-- Column `n` of B by dense position. -/
def KuduCmd.bVals (c : KuduCmd) (m : SMap Byte) (n : Nat) : List (Option Nat) :=
  if c.tb then
    let base := c.bAddr + 64 * c.bPitch * n
    if c.sparse true then sparseRow m c c.fb base n
    else (elemsAt m base c.fb.bits 0 c.k).map some
  else (rangeFrom 0 c.k).map fun k => some (elemAt m (c.bAddr + 64 * c.bPitch * k) c.fb.bits n)

/-- The scale byte of block `j` of row `r` of A; 2^0 for a format without scales (R92, R132). -/
def KuduCmd.aScale (c : KuduCmd) (m : SMap Byte) (r j : Nat) : Byte :=
  if c.fa.mx then Mem.byte m (c.saAddr + r * c.kt + j) else 127#8

/-- The scale byte of block `j` of column `n` of B (R92). -/
def KuduCmd.bScale (c : KuduCmd) (m : SMap Byte) (n j : Nat) : Byte :=
  if !c.fb.mx then 127#8
  else if c.tb then Mem.byte m (c.sbAddr + n * c.kt + j)
  else Mem.byte m (c.sbAddr + j * (32 * c.nt) + n)

/-- The product of two L8 codes (R137). -/
def l8Prod (a b : Nat) : Num :=
  if a = 0xC0 ∨ b = 0xC0 then .nan
  else if a = 0x40 ∨ b = 0x40 then .fin false 0 0
  else l8Linear (a.testBit 7 != b.testBit 7) (signed a 7 + signed b 7)

/-- The exact product of two element codes (R152, step 1). -/
def KuduCmd.prod (c : KuduCmd) (a b : Nat) : Num :=
  if c.fa = .l8 then l8Prod a b else (decodeElem c.fa a).mul (decodeElem c.fb b)

/-- The products that are formed in a block: kept elements only. -/
def KuduCmd.products (c : KuduCmd) (a b : List (Option Nat)) : List Num :=
  (a.zip b).filterMap fun
    | (some x, some y) => some (c.prod x y)
    | _ => none

/-- A product truncated to a multiple of 2^g, in units of 2^g (R152, step 3). -/
def truncTo (g : Int) (v : Num) : Int :=
  match v with
  | .fin n m e =>
    let u : Nat := if g ≤ e then m * 2 ^ (e - g).toNat else m / 2 ^ (g - e).toNat
    if n then -(u : Int) else u
  | _ => 0

/-- The sum S of a block (R152, R154). -/
def blockSum (ps : List Num) : Num :=
  if ps.any (fun p => p == .nan) then .nan
  else if ps.any (fun p => p == .inf false) then (if ps.any (fun p => p == .inf true) then .nan else .inf false)
  else if ps.any (fun p => p == .inf true) then .inf true
  else match maxLog ps with
    | none => .fin false 0 0
    | some e =>
      let s := ps.foldl (fun t p => t + truncTo (e - 40) p) (0 : Int)
      .fin (decide (s < 0)) s.natAbs (e - 40)

/-- One block's contribution to the FP32 accumulator (R152, step 4). -/
def kuduBlock (c : KuduCmd) (m : SMap Byte) (r n : Nat) (acc : Num) (j : Nat) (a b : List (Option Nat)) : Num :=
  let sa := c.aScale m r j
  let sb := c.bScale m n j
  let s := if sa = 0xFF#8 ∨ sb = 0xFF#8 then .nan else blockSum (c.products a b)
  let s := match s with
    | .fin ng mg e => .fin ng mg (e + scaleExp sa + scaleExp sb)
    | s => s
  fadd acc s

/-- The blocks of 32 dense positions in increasing order. -/
def kuduBlocks (c : KuduCmd) (m : SMap Byte) (r n : Nat) : Nat → Nat → Num → List (Option Nat) → List (Option Nat) → Num
  | 0, _, acc, _, _ => acc
  | k + 1, j, acc, a, b =>
    kuduBlocks c m r n k (j + 1) (kuduBlock c m r n acc j (a.take 32) (b.take 32)) (a.drop 32) (b.drop 32)

/-- The integer product sum of INT8 operands (R90). -/
def kuduInt (a b : List (Option Nat)) : Int :=
  (a.zip b).foldl (fun t p => match p with
    | (some x, some y) => t + signed x 8 * signed y 8
    | _ => t) 0

/-- The value of one element of C before it is rounded into fc: an FP32 number, or INT32 bits. -/
def kuduElem (c : KuduCmd) (m : SMap Byte) (r n : Nat) (a b : List (Option Nat)) : Num ⊕ Nat :=
  let old := elemAt m (c.cAddr + 64 * c.cPitch * r) c.cFmt.bits n
  if c.fc = 3 then
    .inr (((if c.acc then (old : Int) else 0) + kuduInt a b) % (2 ^ 32 : Nat)).toNat
  else
    let acc0 := if c.acc then decodeFloat .fp32 old else .fin false 0 0
    .inl (kuduBlocks c m r n c.kt 0 acc0 a b)

/-- Rounds the elements of a tile row into fc (R90, R142): FP32 and INT32 draw nothing. -/
def kuduRound (c : KuduCmd) : BitVec 32 → List (Num ⊕ Nat) → List Nat × BitVec 32
  | l, [] => ([], l)
  | l, .inr v :: t =>
    let (cs, l2) := kuduRound c l t
    (v :: cs, l2)
  | l, .inl v :: t =>
    let (x, l1) := if c.fc = 0 then (encodeFloat .fp32 0 0 false v, l) else emit c.cFmt c.rnd false l v
    let (cs, l2) := kuduRound c l1 t
    (x :: cs, l2)

/-- The rows of one output tile, top to bottom. -/
def kuduTileRows (c : KuduCmd) (m : SMap Byte) (ni : Nat) (cols : List (List (Option Nat))) :
    BitVec 32 → List Nat → List (Nat × List Byte) × BitVec 32
  | l, [] => ([], l)
  | l, r :: t =>
    let a := c.aVals m r
    let vs := (cols.zip (rangeFrom (32 * ni) 32)).map fun (b, n) => kuduElem c m r n a b
    let (cs, l1) := kuduRound c l vs
    let (ws, l2) := kuduTileRows c m ni cols l1 t
    ((c.cAddr + 64 * c.cPitch * r + c.cFmt.bits / 8 * (32 * ni), packCodes c.cFmt.bits cs) :: ws, l2)

/-- The tiles in row-major order (R93); each is one unit. -/
def kuduTiles (c : KuduCmd) (m : SMap Byte) : BitVec 32 → Nat → List (Nat × Nat) → List PlanUnit
  | _, _, [] => []
  | l, p, (mi, ni) :: t =>
    let cols := (rangeFrom (32 * ni) 32).map (c.bVals m)
    let (ws, l1) := kuduTileRows c m ni cols l (rangeFrom (16 * mi) 16)
    { writes := ws, lfsr := l1, progress := p + 1, restart := true } :: kuduTiles c m l1 (p + 1) t

/-- Is some metadata group not strictly increasing, so that the result is undefined (R157)? -/
def kuduMetaBad (c : KuduCmd) (m : SMap Byte) : Bool :=
  decide (c.sp ≠ 0) &&
    (rangeFrom 0 (if c.sps then 32 * c.nt else 16 * c.mt)).any fun r =>
      (metaRowGroups m c r).any fun g => !increasing g

/-- The plan of a `kudu.mma`. -/
def kuduPlan (c : Core) (q : Quad) : Running :=
  match KuduCmd.of q with
  | none => { cmd := q, cnt := q.cnt, units := [], done := 0, reads := [], dests := [], fault := none, tainted := false }
  | some k =>
    let (ins, out) := k.regions
    let tiles := (rangeFrom 0 k.mt).flatMap fun mi => (rangeFrom 0 k.nt).map fun ni => (mi, ni)
    { cmd := q, cnt := q.cnt, units := kuduTiles k c.scratch (c.engine 0).lfsr 0 tiles, done := 0,
      reads := if k.acc then out :: ins else ins, dests := [out], fault := none,
      tainted := overlapping ins [out] || kuduMetaBad k c.scratch }

def execKuduMma (c : CoreId) (s : State) : Host.Outcome State Fault Refusal :=
  .next (s.onCore c fun env c => c.start1 env 0 0x01 kuduCheck kuduPlan)

end Sys2Proof.Machine
end

