-- ==== Sys2Proof/Machine/Stag.lean ====
section
/-!
DEFINITION. The stags: watchdogs, self-test, mirroring, takeover, return, commands and overlap mode (R428 to
R445).
-/

namespace Sys2Proof.Machine

/-- Is a stag's firmware running: in any state but RESET, SELFTEST and FAILED? -/
def State.stagRuns (s : State) (u : Nat) : Bool := decide (2 ≤ s.stagState u) && decide (s.stagState u ≤ 5)

/-- A stag enters FAILED (R429, R553). -/
def State.stagFails (s : State) (u cause : Nat) : State :=
  ((s.restartStag u 6).event 0x0E05 (b1 u ++ b1 cause)).alert 2

/-! Watchdog (R431). -/

def execStagWatchdogPrewarn (u : Fin 2) (s : State) : Host.Outcome State Fault Refusal :=
  .next (if s.stagRuns u.val then s.stagEdgeOf u.val 65 else s)

/-- Watchdog resets of a stag in the ledger hour window in force, with one more (R429). -/
def State.wdCount (s : State) (u : Nat) : Nat :=
  let (h, n) := SMap.get (fun _ => (0, 0)) s.stag.wd u
  if h = s.hourWin + 1 then n + 1 else 1

/-- 5 ms without service: the stag's cores are reset; a holder releases the interlock, and the partner takes it
(R431, R432, R445). A trial or activation falls back (R497, R508). -/
def execStagWatchdogReset (u : Fin 2) (s : State) : Host.Outcome State Fault Refusal :=
  .next (
    let u := u.val
    let p := 1 - u
    if !s.stagRuns u then s
    else
      let n := s.wdCount u
      let s : State := { s with stag := { s.stag with
        wd := SMap.set (fun _ => (0, 0)) s.stag.wd u (s.hourWin + 1, n) } }
      let holds := decide (s.holder = u)
      let back := s.phase = 4 && (holds || s.onTrial u) || s.phase = 5
      let s : State := { s with
        fw := { s.fw with onTrial := s.fw.onTrial.filter fun x => decide (x ≠ u) },
        stag := { s.stag with held := if holds then [] else s.stag.held } }
      let s := if 3 ≤ n then s.stagFails u 1 else s.restartStag u 1
      let s := if !holds then s
        else
          let s := s.setHolder 3
          if bit (s.reg R.mgtStagStatus) 16 then (if s.stagState p = 4 then s.setHolder p else s)
          else if s.stagState p = 3 ∨ s.stagState p = 2 then s.grab p 0
          else s
      if back then s.fallBack 2 else s)

/-! Start-up and self-test (R429, R439, R440). -/

/-- A stag's self-test ends, good or failed. -/
def execSelftestEnd (u : Fin 2) (ok : Bool) (s : State) : Host.Outcome State Fault Refusal :=
  .next (
    let u := u.val
    if s.stagState u ≠ 1 then s
    else if !ok then
      let trial := s.onTrial u
      let s := s.stagFails u 0
      if trial ∧ (s.phase = 4 ∨ s.phase = 5) then s.fallBack 3 else s
    else if s.holder ≠ 3 then s.setStagState u 2
    else if u = 0 ∨ !s.stag.startWait then s.grab u 3
    else s.setStagState u 2)

/-- 40 ms after the release of cold reset stag A has not passed: stag B takes the interlock if it has passed, or
once it passes. -/
def execStagAStartTimeout (s : State) : Host.Outcome State Fault Refusal :=
  .next (
    if !s.stag.startWait ∨ s.holder ≠ 3 then s
    else
      let s : State := { s with stag := { s.stag with startWait := false } }
      if s.stagState 1 = 2 then s.grab 1 3 else s)

def execRecoveryEnd (u : Fin 2) (s : State) : Host.Outcome State Fault Refusal :=
  .next (
    if s.stagState u.val ≠ 5 then s
    else
      let s : State := { s with stag := { s.stag with mirror := s.stag.acked } }
      (s.setStagState u.val 4).moveStep)

/-! Mirroring (R433 to R436). -/

/-- The holder makes an output and mirrors its record. In STANDBY the partner acknowledges the record, compares
the digest (`ok`) and sends its own copy; on a mismatch it leaves STANDBY. With no standby in STANDBY the
holder sends at once. -/
def execMirrorRecord (o : StagOut) (ok : Bool) (s : State) : Host.Outcome State Fault Refusal :=
  .next (
    let h := s.holder
    let p := 1 - h
    if !s.held ∨ s.stagState h ≠ 4 then s
    else
      let seq := s.stag.mirror + 1
      let s : State := { s with stag := { s.stag with mirror := seq } }
      if s.stagState p ≠ 3 then s.deliver seq o
      else
        let s : State := { s with stag := { s.stag with held := s.stag.held ++ [(seq, o)] } }
        let s := s.emit (.mirror 1 seq [])
        if ok then s.deliver seq o
        else
          let s := ((s.event 0x0E04 (b1 p ++ natToBytes 4 seq)).count R.mgtStagStats 0 8).ledger 48
          let s : State := { s with stag := { s.stag with holdoff := if p = 0 then none else s.stag.holdoff } }
          (s.setStagState p 2).sendHeld)

/-- The acknowledgement of the oldest record outstanding arrives: the holder sends its output. -/
def execMirrorAck (s : State) : Host.Outcome State Fault Refusal :=
  .next (match s.stag.held with
    | [] => s
    | (seq, o) :: rest =>
      let s : State := { s with stag := { s.stag with held := rest } }
      s.deliver seq o)

/-- The full copy completes: the stag enters STANDBY; for stag A a hold-off window begins (R436, R441). A move to
another slot goes on (R493). -/
def execStagInSync (u : Fin 2) (s : State) : Host.Outcome State Fault Refusal :=
  .next (
    let u := u.val
    if s.stagState u ≠ 2 ∨ !s.held ∨ s.holder = u then s
    else
      let s := (s.setStagState u 3).event 0x0E03 (b1 u)
      let s := if s.stag.started then s.count R.mgtStagStats 8 16 else s
      let s : State := { s with stag := { s.stag with started := true, holdoff := if u = 0 then some s.now else s.stag.holdoff } }
      s.moveStep)

/-! Return and commands (R441, R442). -/

/-- The hold-off window ended with stag A in STANDBY throughout. -/
def execStagReturn (s : State) : Host.Outcome State Fault Refusal :=
  .next (match s.stag.holdoff with
    | none => s
    | some t =>
      if s.holder ≠ 1 ∨ s.stagState 0 ≠ 3 ∨ s.stagState 1 ≠ 4 ∨ s.now < t + 60000000000 then s
      else
        let s := ((s.setStagState 1 3).setStagState 0 4).setHolder 0
        let s := ((s.event 0x0E02 []).count R.mgtStagStats 32 16).ledger 47
        let s : State := { s with stag := { s.stag with holdoff := none } }
        s.restartChain)

/-- The partner of the holder, in STANDBY. -/
def State.standby (s : State) : Option Nat :=
  if s.held ∧ s.stagState (1 - s.holder) = 3 then some (1 - s.holder) else none

/-- MGT_STAG_CMD: 1 hand over, 2 reset the standby. -/
def State.stagCmd (s : State) (cmd : Nat) : State :=
  match s.standby with
  | none => s.count R.mgtStagStats 24 8
  | some p => if cmd = 1 then s.handOver 1 else if cmd = 2 then s.restartStag p 1 else s.count R.mgtStagStats 24 8

def execMgtStagCmdHandover (s : State) : Host.Outcome State Fault Refusal := .next (s.stagCmd 1)

def execMgtStagCmdResetStandby (s : State) : Host.Outcome State Fault Refusal := .next (s.stagCmd 2)

/-! Overlap mode (R443, R444). -/

/-- Is overlap mode in force? -/
def State.overlap (s : State) : Bool := bit (s.reg R.mgtStagStatus) 16

/-- A stag begins to act as holder by a claim. -/
def State.claim (s : State) (u cause : Nat) : State :=
  let s := ((s.setStagState u 4).setHolder u).takeover u cause
  ({ s with stag := { s.stag with holdoff := none } } : State).restartChain

/-- Stag `u` receives a heartbeat of the other one; a claim ends its own acting as holder. -/
def execOverlapHeartbeat (u : Fin 2) (claim : Bool) (s : State) : Host.Outcome State Fault Refusal :=
  .next (
    if !s.overlap then s
    else
      let s : State := { s with stag := { s.stag with beatRx := SMap.set (fun _ => 0) s.stag.beatRx u.val s.now } }
      if claim ∧ s.stagState u.val = 4 then
        let s := s.setStagState u.val 3
        if s.holder = u.val then s.setHolder (1 - u.val) else s
      else s)

/-- A stag that runs sends a heartbeat every 10 µs; that of the stag that claimed last is a claim. -/
def execHeartbeatSend (u : Fin 2) (s : State) : Host.Outcome State Fault Refusal :=
  .next (
    let last := SMap.get (fun _ => 0) s.stag.beatTx u.val
    if !s.overlap ∨ !s.stagRuns u.val ∨ s.now < last + 10000 then s
    else
      ({ s with stag := { s.stag with beatTx := SMap.set (fun _ => 0) s.stag.beatTx u.val s.now } } : State).emit
        (.heartbeat u.val (decide (s.stagState u.val = 4) && decide (s.holder = u.val))))

/-- A standby has received no heartbeat of the holder for 50 µs. -/
def execHeartbeatTimeout (u : Fin 2) (s : State) : Host.Outcome State Fault Refusal :=
  .next (
    if !s.overlap ∨ s.stagState u.val ≠ 3 ∨ s.now < SMap.get (fun _ => 0) s.stag.beatRx u.val + 50000 then s
    else s.claim u.val 2)

end Sys2Proof.Machine
end

