-- ==== Sys2Proof/Machine/Optics.lean ====
section
/-!
DEFINITION. The optics: lock, recalibration and its acceptance, quality figures, laser switches, saving and
restoring calibration (R388 to R411).
-/

namespace Sys2Proof.Machine

/-! Lock (R395 to R397, R410). -/

/-- Does a channel share its spares with another: the same waveguide, or the same direction of a port? -/
def sameBundle (a b : Nat) : Bool :=
  if ringOnPort a then ringOnPort b && decide (ringPort a = ringPort b)
  else !ringOnPort b && decide (ringWriter a = ringWriter b) && decide (ringWg a = ringWg b)

/-- A ring's error stayed out of its window for 2 µs: it loses lock. A recalibration that holds the last free
spare gives it up. -/
def execLockLost (addr : BitVec 32) (err : Int) (s : State) : Host.Outcome State Fault Refusal :=
  .next (
    let a := addr.toNat
    let v := s.ring a
    if !ringOk a || !v.locked || v.failed || s.opt.search.isSome then s
    else
      let s := (((s.setRing a { v with locked := false, err := err }).count R.optLockStats 32 32)).event 0x0C03 (natToBytes 4 a)
      let s := if s.hasSpare a then s
        else match s.opt.recal.find? (sameBundle a) with
          | some b => s.dropRecal b
          | none => s
      s.loseLine a)

/-- The ring relocks, with the set-point at which it found its line; its channel returns. -/
def execRingRelock (addr : BitVec 32) (setPoint : BitVec 16) (s : State) : Host.Outcome State Fault Refusal :=
  .next (
    let a := addr.toNat
    let v := s.ring a
    if !ringOk a || v.locked || v.failed then s
    else
      let s := s.setRing a { v with locked := true, err := 0, set := setPoint.toNat }
      let s := (s.count R.optLockStats 0 32).ledger 32
      if s.opt.recal.contains a then s else s.moveBack a)

/-- Lines of a waveguide that it needs: the data lines that no spare carries, the spares in use, and the control
line. -/
def State.linesNeeded (s : State) (w g : Nat) : List Nat :=
  (rangeFrom 0 35).filter fun l =>
    let m := (s.movedOf w).filter fun m => decide (m.1 = g)
    if l < 32 then !(m.any fun m => decide (m.2.1 = l)) else if l < 34 then m.any (fun m => decide (m.2.2 = l - 32)) else decide (g = 0)

/-- A waveguide that lost lock or light returns to its bundle once every channel it needs is locked (R397). -/
def execWaveguideReturn (stop : Stop) (wg : Fin 8) (s : State) : Host.Outcome State Fault Refusal :=
  .next (
    let w := stop.val
    let g := wg.val
    let bad := s.opt.rings.any fun x => !ringOnPort x.1 && decide (ringWriter x.1 = w) && decide (ringWg x.1 = g)
      && (s.linesNeeded w g).contains (ringLine x.1) && (!x.2.locked || x.2.failed)
    if !s.opt.lost.contains (w, g) || bad then s
    else
      let s : State := { s with opt := { s.opt with lost := s.opt.lost.erase (w, g) } }
      s.setReg (R.baseStopStatus w) (setBit (s.reg (R.baseStopStatus w)) (16 + g) false))

/-- Notes whether a channel or a far end reports a margin below 2.0 dB, and since when (R403). -/
def State.noteLow (s : State) (key : Nat) (low : Bool) : State :=
  let since := if low then some ((SMap.get (fun _ => none) s.opt.low key).getD s.now) else none
  { s with opt := { s.opt with low := SMap.set (fun _ => none) s.opt.low key since } }

/-- An alignment block brings its management field (R399): a request moves a lane and is acknowledged, an
acknowledgement completes a move asked for, and the far end's lowest margin is noted. -/
def execAlignmentBlockMgmt (p : Port) (word : Word) (s : State) : Host.Outcome State Fault Refusal :=
  .next (
    let q := p.val
    let l := fld word 57 5
    let w := fld word 52 5
    let g := fld word 62 2
    let s : State := { s with opt := { s.opt with farMargin := SMap.set (fun _ => 255) s.opt.farMargin q (fld word 40 8) } }
    let s := s.noteLow (2 ^ 32 + q) (decide (fld word 40 8 < 8))
    let s := if bit word 51 ∧ l < 16 ∧ w < 18 then
        let s := (s.setLane q l w).setLaneGen q g
        s.emit (.align q (g * 2 ^ 62 + l * 2 ^ 57 + w * 2 ^ 52 + 2 ^ 50 + s.marginWord q))
      else s
    if bit word 50 ∧ s.opt.moves.contains (q, l, w) then
      ((({ s with opt := { s.opt with moves := s.opt.moves.erase (q, l, w) } } : State).setLane q l w).setLaneGen q g)
    else s)

/-! Acceptance (R400). -/

/-- Outcome of a kind of result: 0 accepted, 1 implausible, 2 the repeat disagrees. -/
def verdict (plausible agrees : Bool) : Nat := if !plausible then 1 else if agrees then 0 else 2

/-- Within a tolerance of each other. -/
def near (a b tol : Int) : Bool := decide ((a - b).natAbs ≤ tol.natAbs)

/-- A ring's resonance: 65,535 codes span 1.35 FSR (R390). -/
def ringVerdict (a b : RingMeas) : Nat :=
  verdict (decide (50 ≤ a.peak) && decide (5 * 65535 ≤ 135 * a.set) && decide (135 * a.set ≤ 130 * 65535))
    (decide (50 ≤ b.peak) && near (135 * a.set) (135 * b.set) (2 * 65535))

/-- A lock target, a ratio in units of 1/65,536. -/
def targetVerdict (a b : Nat) : Nat :=
  verdict (decide (40 * 65536 ≤ 100 * a) && decide (100 * a ≤ 60 * 65536)) (near (100 * a) (100 * b) (2 * 65536))

/-- Tap `i` of an equaliser, tap 0 the main tap. -/
def tap (w : Word) (i : Nat) : Int := signed (fld w (8 * i) 8) 8

/-- Equaliser taps with an eye opening. -/
def tapsVerdict (a b : Word) (eyeA eyeB : Nat) : Nat :=
  verdict (decide (32 ≤ tap a 0) && decide (tap a 0 ≤ 127) && decide (25 ≤ eyeA)
      && (rangeFrom 1 7).all fun i => decide (2 * (tap a i).natAbs ≤ (tap a 0).natAbs))
    (((rangeFrom 0 8).all fun i => near (tap a i) (tap b i) 4) && near eyeA eyeB 5)

/-- A laser bias in 10 µA, with the source's maximum and its output's distance from the target in 0.01 dB. -/
def biasVerdict (max_ a b : Nat) (out : Int) : Nat :=
  verdict (decide (2000 ≤ a) && decide (a ≤ max_) && decide (out.natAbs ≤ 50)) (near a b 100)

/-- Counts a result: accepted, or rejected as implausible or on its repeat. -/
def State.countResult (s : State) (v : Nat) : State :=
  if v = 0 then s.count R.optCalStats 0 32
  else if v = 1 then (s.count R.optCalStats 32 8).ledger 34
  else (s.count R.optCalStats 40 8).ledger 34

/-- A channel's results are all accepted, or its rejection of a kind is noted: the third in a row is reported. -/
def State.noteChannel (s : State) (a : Nat) (kind : Option Nat) : State :=
  let c := s.chan a
  match kind with
  | none => s.setChan a { c with rejects := 0 }
  | some k =>
    let s := s.setChan a { c with rejects := c.rejects + 1 }
    if c.rejects + 1 = 3 then s.event 0x0C02 (natToBytes 4 a ++ b1 k) else s

/-! Sources (R388, R389). -/

def State.srcState (s : State) (n : Nat) : Nat := s.rfld (R.optSrcStatus n) 0 3
def State.setSrcState (s : State) (n v : Nat) : State := s.setRfld (R.optSrcStatus n) 0 3 v

/-- The comb slot of a waveguide: the transmit waveguides of a half in order of stop and waveguide, modulo 8. -/
def slotOf (w g : Nat) : Nat :=
  (((rangeFrom 0 w).filter fun n => eastStop n == eastStop w).foldl (fun t n => t + wgCount n) g) % 8

/-- The source that lights a channel. -/
def State.sourceOf (s : State) (a : Nat) : Option Nat :=
  let lit := fun n => (decide (s.srcState n = 2) || decide (s.srcState n = 3))
  if ringOnPort a then (rangeFrom 20 24).find? fun n => lit n && decide (s.rfld (R.optSrcStatus n) 8 6 = ringPort a)
  else (rangeFrom (if eastStop (ringWriter a) then 10 else 0) 10).find? fun n =>
    lit n && decide (s.rfld (R.optSrcStatus n) 8 6 = slotOf (ringWriter a) (ringWg a))

/-! Recalibration (R398, R400, R401, R410). -/

/-- The modulator ring of a channel. -/
def modOf (a : Nat) : Nat :=
  if ringOnPort a then a + 2 ^ 30 else a + 2 ^ 30 - ringReader a * 2 ^ 20 + ringWriter a * 2 ^ 20

/-- Takes the results of a channel's two measurements: each kind is accepted or rejected of itself. -/
def State.takeResults (s : State) (a : Nat) (m r : CalMeas) : State :=
  let src := s.sourceOf a
  let max_ := match src with | some n => s.rfld (R.optSrcStatus n) 32 16 | none => 0
  let v0 := max (ringVerdict m.filt r.filt) (ringVerdict m.mod r.mod)
  let v1 := max (targetVerdict m.filt.target r.filt.target) (targetVerdict m.mod.target r.mod.target)
  let v2 := tapsVerdict m.taps r.taps m.eye r.eye
  let v3 := biasVerdict max_ m.bias r.bias m.out
  let s := [v0, v1, v2, v3].foldl (fun s v => s.countResult v) s
  let put := fun (s : State) (b : Nat) (x : RingMeas) =>
    let v := s.ring b
    s.setRing b { v with set := if v0 = 0 then x.set else v.set, target := if v1 = 0 then x.target else v.target }
  let s := put (put s a m.filt) (modOf a) m.mod
  let c := s.chan a
  let s := if v2 = 0 then s.setChan a { c with taps := m.taps, qual := setFld c.qual 56 8 m.eye } else s
  let s := match src with
    | some n => if v3 = 0 then s.setRfld (R.optSrcStatus n) 16 16 m.bias else s
    | none => s
  s.noteChannel a (([v0, v1, v2, v3].zip [0, 1, 2, 3]).find? (fun x => decide (x.1 ≠ 0)) |>.map (·.2))

/-- Is the source that lights a channel being switched? -/
def State.srcSwitching (s : State) (a : Nat) : Bool :=
  match s.sourceOf a with
  | some n => s.opt.switches.any fun x => decide (x.old = n)
  | none => false

/-- A channel whose turn comes in the window in force: recalibration begins on a free spare, or it is deferred. -/
def execRecalWindow (chan : BitVec 32) (s : State) : Host.Outcome State Fault Refusal :=
  .next (
    let a := chan.toNat
    let ctl := s.reg R.optRecalCtl
    let n := s.now / (fld ctl 0 32 * 1000000000)
    if !s.held || !bit ctl 63 || !chanOk a || s.opt.search.isSome then s
    else
      let s : State := if s.opt.window = n then s else { s with opt := { s.opt with window := n, done := [] } }
      if s.opt.done.contains a || s.opt.recal.any (sameBundle a) || s.srcSwitching a then s
      else
        let s : State := { s with opt := { s.opt with done := s.opt.done ++ [a] } }
        if s.hasSpare a then ({ s with opt := { s.opt with recal := s.opt.recal ++ [a] } } : State).moveOut a
        else s.count R.optCalStats 48 16)

/-- A recalibration ends with a measurement and its repeat, and the traffic returns. -/
def execChannelRecalDone (chan : BitVec 32) (m r : CalMeas) (s : State) : Host.Outcome State Fault Refusal :=
  .next (
    let a := chan.toNat
    if !s.opt.recal.contains a ∨ !s.held then s else (s.takeResults a m r).dropRecal a)

/-- RECAL: one channel or all, each that has a free spare, with its measurements. -/
def execRecal (res : List (BitVec 32 × CalMeas × CalMeas)) (s : State) : Host.Outcome State Fault Refusal :=
  .next (s.mgmtRun 0x0C03 [mask 0 64, 0, 0, 0, 0] fun s e =>
    let c := (e.w 3).toNat
    if c ≠ 0xFFFFFFFF ∧ !chanOk c then s.endMgmt e 0x0B 0
    else
      let (s, n) := res.foldl (fun (x : State × Nat) (y : BitVec 32 × CalMeas × CalMeas) =>
        let (s, n) := x
        let a := y.1.toNat
        if !chanOk a || (decide (c ≠ 0xFFFFFFFF) && decide (a ≠ c)) || s.opt.recal.any (sameBundle a) || s.srcSwitching a then (s, n)
        else if s.hasSpare a then
          let s : State := { s with opt := { s.opt with recal := s.opt.recal ++ [a] } }
          ((((s.moveOut a).takeResults a y.2.1 y.2.2).dropRecal a), n + 1)
        else (s.count R.optCalStats 48 16, n)) (s, 0)
      s.endMgmt e 0 (BitVec.ofNat 64 n))

/-! Values that the host writes (R407, R410, R412). -/

/-- A written ring value, verified by a sweep and its repeat around it. -/
def State.ringResult (s : State) (a : Nat) (set target : Nat) (m r : RingMeas) : State × Bool :=
  let s := (s.dropRecal a)
  let v := max (max (ringVerdict { m with set := set } m) (ringVerdict m r)) (targetVerdict target target)
  let s := s.countResult v
  let x := s.ring a
  if v = 0 then (s.setRing a { x with set := set, target := target, locked := true, failed := false, err := 0 }, true) else (s, false)

/-- Written taps, verified by two measurements of the eye. -/
def State.tapsResult (s : State) (a : Nat) (w : Word) (eyeA eyeB : Nat) : State × Bool :=
  let s := s.dropRecal a
  let v := tapsVerdict w w eyeA eyeB
  let s := s.countResult v
  let c := s.chan a
  if v = 0 then (s.setChan a { c with taps := w, qual := setFld c.qual 56 8 eyeA, rejects := 0 }, true)
  else (s.noteChannel a (some 2), false)

/-- A write of OPT_RING_VAL for the ring that OPT_RING_SEL names. -/
def State.writeRing (s : State) (val : Word) (m r : RingMeas) : State :=
  let a := s.rfld R.optRingSel 0 32
  if !ringOk a then s
  else
    let (s, ok) := s.ringResult a (fld val 0 16) (fld val 16 16) m r
    if ok || !chanOk a then s else s.noteChannel a (some 0)

def execOptRingValWrite (val : Word) (m r : RingMeas) (s : State) : Host.Outcome State Fault Refusal := .next (s.writeRing val m r)

/-- A write of OPT_CH_TAPS for the channel that OPT_CH_SEL names. -/
def State.writeTaps (s : State) (val : Word) (eyeA eyeB : Nat) : State :=
  let a := s.rfld R.optChSel 0 32
  if !chanOk a then s else (s.tapsResult a val eyeA eyeB).1

def execOptChTapsWrite (val : Word) (eyeA eyeB : Nat) (s : State) : Host.Outcome State Fault Refusal := .next (s.writeTaps val eyeA eyeB)

/-- A write of OPT_EYE_CTL: with start it asks for an eye scan of a channel. -/
def State.writeEye (s : State) (val : Word) : State :=
  let (val, s) := s.reservedOk (mask 63 1 ||| mask 0 32) val
  let s := s.setReg R.optEyeCtl val
  let a := fld val 0 32
  if bit val 63 && chanOk a then
    ({ s with opt := { s.opt with eye := some a } } : State).setReg R.optEyeResult 0
  else s

def execOptEyeCtlWrite (val : Word) (s : State) : Host.Outcome State Fault Refusal := .next (s.writeEye val)

/-- The eye scan has run; it waits while a recalibration uses its converter. -/
def execEyeScanDone (eye width height : Nat) (s : State) : Host.Outcome State Fault Refusal :=
  .next (match s.opt.eye with
    | none => s
    | some a =>
      if s.opt.recal.contains a then s
      else
        let c := s.chan a
        let s := s.setChan a { c with qual := setFld c.qual 56 8 (min 100 eye) }
        ({ s with opt := { s.opt with eye := none } } : State).setReg R.optEyeResult
          (BitVec.ofNat 64 (2 ^ 63 + min 100 eye * 2 ^ 48 + min 100 width * 2 ^ 40 + min 100 height * 2 ^ 32)))

/-! Quality figures (R402, R516). -/

/-- The bin of a bit error ratio m × 10^-e. -/
def berBin (man exp : Nat) : Nat := if man = 0 then 0 else max 1 (min 15 (17 - exp))

/-- Is the request to move a channel's lane on its way? -/
def State.moveAsked (s : State) (a : Nat) : Bool :=
  ringOnPort a && s.opt.moves.any fun m => decide (m.1 = ringPort a) && decide (s.laneOf (ringPort a) (ringLine a) = some m.2.1)

/-- Quality figures of channels, every 10 ms; those of port wavelengths in use enter a histogram. A channel in service
whose power is below the receive minimum fails and takes a spare (R402, R405). -/
def execQualityFiguresUpdate (l : List (BitVec 32 × QualMeas)) (s : State) : Host.Outcome State Fault Refusal :=
  .next (l.foldl (fun s x =>
    let a := x.1.toNat
    let q := x.2
    if !chanOk a then s
    else
      let c := s.chan a
      let bias := match s.sourceOf a with | some n => s.rfld (R.optSrcStatus n) 16 16 | none => 0
      let w := BitVec.ofNat 64 (fld c.qual 56 8 * 2 ^ 56 + q.man % 16 * 2 ^ 52 + q.exp % 256 * 2 ^ 44 + (q.power % 65536).toNat * 2 ^ 28
        + bias * 2 ^ 12 + q.lock.toNat * 2 + q.inService.toNat)
      let s := s.setChan a { c with qual := w }
      let least : Int := if ringOnPort a then -1000 else -1600
      let s := if ringOnPort a then s else s.noteLow a (q.inService && decide (q.power < least + 200))
      let s := if q.inService && decide (q.power < least) && !s.moveAsked a then s.loseLine a else s
      if ringOnPort a && q.inService then s.hist 5 (berBin q.man q.exp) else s) s)

/-! Laser switches (R403 to R406). -/

/-- The standby of a source: the lowest free one of its half, or the port's own. -/
def State.standbyOf (s : State) (n : Nat) : Option Nat :=
  let l := if n < 8 then [8, 9] else if n < 10 then (if n = 8 then [9] else [8])
    else if n < 18 then [18, 19] else if n < 20 then (if n = 18 then [19] else [18])
    else if n < 32 then [n + 12] else []
  l.find? fun k => decide (s.srcState k = 0) && !(s.opt.switches.any fun x => decide (x.new = k))

/-- A trigger starts a source's standby; a failed source goes without a crossfade. -/
def State.startSwitch (s : State) (n cause : Nat) (failed : Bool) : State × Bool :=
  if s.opt.switches.any (fun x => decide (x.old = n)) then (s, false)
  else match s.standbyOf n with
    | none => (s.event 0x0C07 (b1 n), false)
    | some k =>
      let s := s.setSrcState k 1
      let s : State := { s with opt := { s.opt with switches := s.opt.switches ++ [{ old := n, new := k, start := s.now, fade := none, failed := failed }] } }
      (s.event 0x0C05 (b1 n ++ b1 k ++ b1 cause), true)

/-- May a source be switched: does it carry traffic, with a holder to start its standby? -/
def State.canSwitch (s : State) (n : Nat) : Bool := s.held && decide (n < 44) && decide (s.srcState n = 2)

/-- Has a channel that a source lights reported a margin below 2.0 dB throughout 1 s? A port's far end reports for its
channels (R403). -/
def State.lowFor (s : State) (n : Nat) : Bool :=
  s.opt.low.any fun x =>
    decide (s.sourceOf (if 2 ^ 32 ≤ x.1 then 2 * 2 ^ 30 + (x.1 - 2 ^ 32) * 2 ^ 26 else x.1) = some n) &&
      (match x.2 with | some t => decide (t + 1000000000 ≤ s.now) | none => false)

/-- A trigger: 0 a bias of 90 % of the maximum, 1 a margin below 2.0 dB throughout 1 s, 2 a command. -/
def execLaserStandbyStart (n : Fin 44) (cause : Fin 3) (s : State) : Host.Outcome State Fault Refusal :=
  .next (
    let w := s.reg (R.optSrcStatus n.val)
    if !s.canSwitch n.val ∨ (cause = 0 ∧ 10 * fld w 16 16 < 9 * fld w 32 16) ∨ (cause = 1 ∧ !s.lowFor n.val) then s
    else (s.startSwitch n.val cause.val false).1)

def execOptSrcCmdSwitch (n : BitVec 6) (s : State) : Host.Outcome State Fault Refusal :=
  .next (if s.canSwitch n.toNat then (s.startSwitch n.toNat 2 false).1 else s)

def execSrcSwitch (s : State) : Host.Outcome State Fault Refusal :=
  .next (s.mgmtRun 0x0C04 [mask 0 6, 0, 0, 0, 0] fun s e =>
    let n := fld (e.w 3) 0 6
    if !s.canSwitch n then s.endMgmt e 0x0B 0
    else
      let (s, ok) := s.startSwitch n 2 false
      s.endMgmt e (if ok then 0 else 0x0B) 0)

/-- Changes a switch under way. -/
def State.setSwitch (s : State) (x y : LaserSwitch) : State :=
  { s with opt := { s.opt with switches := s.opt.switches.map fun z => if z = x then y else z } }

/-- The standby is warm and aligned: the crossfade starts. -/
def execCrossfadeStart (n : Fin 44) (s : State) : Host.Outcome State Fault Refusal :=
  .next (match s.opt.switches.find? fun x => decide (x.old = n.val) && x.fade.isNone && !x.failed with
    | none => s
    | some x => ((s.setSwitch x { x with fade := some s.now }).setSrcState x.old 3).setSrcState x.new 3)

/-- The byte of the source map of a slot or port, by source. -/
def srcByte (n slot : Nat) : Nat := if n < 10 then slot else if n < 20 then slot + 8 else slot + 16

/-- The source map as the sources stand, as a default record of kind 6 (R498). -/
def State.sourceMap (s : State) : List Byte :=
  (rangeFrom 0 28).map fun i =>
    let own := if i < 8 then i else if i < 16 then i + 2 else i + 4
    match (rangeFrom 0 44).find? fun n => decide (s.rfld (R.optSrcStatus n) 8 6 ≠ 0x3F)
        && decide (srcByte n (s.rfld (R.optSrcStatus n) 8 6) = i) with
    | some n => BitVec.ofNat 8 n
    | none => BitVec.ofNat 8 own

/-- The switch ends: the old source is retired, or stays failed, the standby serves its slot, and the source map
is written to package flash. -/
def execLaserSwitched (n : Fin 44) (s : State) : Host.Outcome State Fault Refusal :=
  .next (match s.opt.switches.find? fun x => decide (x.old = n.val) && (x.fade.isSome || x.failed) with
    | none => s
    | some x =>
      if !s.held then s
      else
        let slot := s.rfld (R.optSrcStatus x.old) 8 6
        let s : State := { s with opt := { s.opt with switches := s.opt.switches.erase x } }
        let s := ((s.setSrcState x.old (if x.failed then 5 else 4)).setRfld (R.optSrcStatus x.old) 8 6 0x3F).setSrcState x.new 2
        let s := (s.setRfld (R.optSrcStatus x.new) 8 6 slot).ledger 35
        let s := s.event 0x0C06 (b1 x.old ++ b1 x.new)
        s.shortWrite (.sources s.sourceMap))

/-- A source's output fell by more than 3 dB within 1 ms: it is failed, and its standby starts without a crossfade.
The cause that the start reports is a free value (log entry 39). -/
def execLaserFailed (n : Fin 44) (s : State) : Host.Outcome State Fault Refusal :=
  .next (
    let k := n.val
    if s.srcState k ≠ 2 ∧ s.srcState k ≠ 3 then s
    else
      let s := ((s.setSrcState k 5).event 0x0C08 (b1 k)).ledger 36
      match s.opt.switches.find? fun x => decide (x.old = k) with
      | some x => s.setSwitch x { x with failed := true }
      | none =>
        if s.held then ((s.startSwitch k (fld (s.freeWord 0) 0 8) true).1).drew 1 else s)

/-! Calibration images (R407 to R409). -/

/-- Every waveguide, and every ring, channel and lane map address. -/
def allWgs : List (Nat × Nat) := (rangeFrom 0 28).flatMap fun w => (rangeFrom 0 (wgCount w)).map fun g => (w, g)
def wgLines (g : Nat) : Nat := if g = 0 then 35 else 34
def allFilters : List Nat :=
  (allWgs.flatMap fun (w, g) => ((rangeFrom 0 28).filter fun r => decide (r ≠ w)).flatMap fun r =>
    (rangeFrom 0 (wgLines g)).map fun l => w * 2 ^ 25 + r * 2 ^ 20 + g * 2 ^ 17 + l * 2 ^ 11)
  ++ (rangeFrom 0 12).flatMap fun p => (rangeFrom 0 18).map fun l => 2 * 2 ^ 30 + p * 2 ^ 26 + l * 2 ^ 11
def allModulators : List Nat :=
  (allWgs.flatMap fun (w, g) => (rangeFrom 0 (wgLines g)).map fun l => 2 ^ 30 + w * 2 ^ 25 + w * 2 ^ 20 + g * 2 ^ 17 + l * 2 ^ 11)
  ++ (rangeFrom 0 12).flatMap fun p => (rangeFrom 0 18).map fun l => 3 * 2 ^ 30 + p * 2 ^ 26 + l * 2 ^ 11
def allMaps : List Nat :=
  (allWgs.map fun (w, g) => 2 ^ 30 + w * 2 ^ 25 + w * 2 ^ 20 + g * 2 ^ 17) ++ (rangeFrom 0 12).map fun p => 3 * 2 ^ 30 + p * 2 ^ 26

/-- The channel or lane that spare `i` of a waveguide or port carries, 0x1F when free. -/
def State.spareUse (s : State) (a i : Nat) : Nat :=
  if ringOnPort a then (s.laneOf (ringPort a) (16 + i)).getD 0x1F
  else match (s.movedOf (ringWriter a)).find? fun m => decide (m.1 = ringWg a) && decide (m.2.2 = i) with
    | some m => m.2.1
    | none => 0x1F

/-- A record of a kind. -/
def calRecord (kind a : Nat) (w : Nat) : List Byte := natToBytes 8 (kind * 2 ^ 56 + a) ++ natToBytes 8 w

/-- The records of a save: rings, equalisers, sources, lane maps. -/
def State.calRecords (s : State) : List (List Byte) :=
  ((allFilters ++ allModulators).map fun a => calRecord 1 a ((s.ring a).target % 65536 * 65536 + (s.ring a).set % 65536))
  ++ (allFilters.map fun a => calRecord 2 a (s.chan a).taps.toNat)
  ++ ((rangeFrom 0 44).map fun n => calRecord 3 n (s.rfld (R.optSrcStatus n) 16 16))
  ++ allMaps.map fun a => calRecord 4 a (s.spareUse a 1 * 2 ^ 8 + s.spareUse a 0)

/-- The whole image. -/
def State.calImage (s : State) : List Byte :=
  let rs := s.calRecords
  let body := rs.flatMap id
  natToBytes 8 (0x4341 * 2 ^ 48 + 2 ^ 40 + rs.length) ++ wordBytes Config.serial ++ natToBytes 8 s.now ++ natToBytes 8 (crc32 body)
    ++ List.replicate 32 0#8 ++ body

def execCalSave (s : State) : Host.Outcome State Fault Refusal :=
  .next (s.mgmtRun 0x0C01 [mask 0 64, mask 0 64, 0, 0, 0] fun s e =>
    let d := s.calImage
    if (e.w 3).toNat % 64 ≠ 0 ∨ (e.w 4).toNat < d.length then s.endMgmt e 0x0B 0 else s.mgmtReturn e (e.w 3).toNat d)

/-- Does an image carry the device's header and its records' CRC (R409)? -/
def calOk (d : List Byte) : Bool :=
  decide (64 ≤ d.length) && decide (leAt d 4 4 = 0x4341 * 2 ^ 16 + 2 ^ 8) && decide (leAt d 8 8 = Config.serial.toNat)
    && decide (d.length = 64 + 16 * leAt d 0 4) && decide (leAt d 24 4 = crc32 (d.drop 64))

/-- Sets spare `i` of a waveguide or port to carry a channel, or none. -/
def State.setSpare (s : State) (a i c : Nat) : State :=
  if s.spareUse a i = c then s
  else if ringOnPort a then
    let s := match s.laneOf (ringPort a) (16 + i) with | some l => s.askMove (ringPort a) l l | none => s
    if c < 16 then s.askMove (ringPort a) c (16 + i) else s
  else
    let s := match (s.movedOf (ringWriter a)).find? fun m => decide (m.1 = ringWg a) && decide (m.2.2 = i) with
      | some m => s.mapMove (ringWriter a) m
      | none => s
    if c < 31 ∧ !((s.movedOf (ringWriter a)).any fun m => decide (m.1 = ringWg a) && decide (m.2.1 = c)) then
      s.mapMove (ringWriter a) (ringWg a, c, i)
    else s

/-- One record of a restore, with the two verification sweeps or eyes that answered for it. -/
def State.restoreOne (s : State) (r : List Byte) (m : CalMeas × CalMeas) : State × Bool :=
  let kind := leAt r 7 1
  let a := leAt r 0 4
  let w := leAt r 8 8
  if kind = 1 ∧ ringOk a then s.ringResult a (w % 65536) (w / 65536 % 65536) m.1.filt m.2.filt
  else if kind = 2 ∧ chanOk a then s.tapsResult a (BitVec.ofNat 64 w) m.1.eye m.2.eye
  else if kind = 3 ∧ a < 44 then
    let v := biasVerdict (s.rfld (R.optSrcStatus a) 32 16) (w % 65536) m.2.bias m.1.out
    let s := s.countResult v
    if v = 0 then (s.setRfld (R.optSrcStatus a) 16 16 (w % 65536), true) else (s, false)
  else if kind = 4 ∧ allMaps.contains a then (((s.setSpare a 0 (w % 32)).setSpare a 1 (w / 256 % 32)), true)
  else (s, false)

/-- CAL_RESTORE: the image was read with an outcome, and each record verified in turn. In step 4 of the start-up the rings
whose records are accepted are not searched, and the search of the others ends the step (R392, R409). -/
def execCalRestore (st : Fin 3) (image : List Byte) (sweeps : List (CalMeas × CalMeas)) (s : State) :
    Host.Outcome State Fault Refusal :=
  .next (s.mgmtRun 0x0C02 [mask 0 64, mask 0 64, 0, 0, 0] fun s e =>
    let d := fillData (e.w 4).toNat image
    if st ≠ 0 then s.endMgmt e (hostCode st.val) 0
    else if !calOk d then s.endMgmt e 0x0B 0
    else
      let zero : RingMeas := { peak := 0, set := 0, target := 0 }
      let none_ : CalMeas := { filt := zero, mod := zero, taps := 0, eye := 0, bias := 0, out := 0 }
      let n := leAt d 0 4
      let (s, ok, rings) := (rangeFrom 0 n).foldl (fun (x : State × Nat × List Nat) i =>
        let r := slice d (64 + 16 * i) 16
        let (s, b) := x.1.restoreOne r ((sweeps[i]?).getD (none_, none_))
        (s, x.2.1 + b.toNat, if b ∧ leAt r 7 1 = 1 then x.2.2 ++ [leAt r 0 4] else x.2.2)) (s, 0, [])
      let s := match s.opt.search with
        | some (_, failing) => s.endSearch (failing.filter fun a => !rings.contains a) (!rings.isEmpty)
        | none => s
      s.endMgmt e 0 (BitVec.ofNat 64 ((n - ok) * 2 ^ 32 + ok)))

end Sys2Proof.Machine
end

