-- ==== Sys2Proof/Machine/Thermal.lean ====
section
/-!
DEFINITION. Sensors, the middle-layer estimate, throttling, shutdown and restart (R460 to R472). Temperatures
are in 0.125 °C.
-/

namespace Sys2Proof.Machine

/-! Sensors (R460 to R462). -/

/-- State (R461) and reading of a sensor; a broken sensor reads 127 °C. -/
def State.sensorState (s : State) (i : Nat) : Nat := s.rfld (R.thmRead (i / 4)) (16 * (i % 4) + 14) 2
def State.reading (s : State) (i : Nat) : Int :=
  if s.sensorState i ≠ 0 then 1016 else signed (s.rfld (R.thmRead (i / 4)) (16 * (i % 4)) 12) 12

/-- Writes the reading and state that THM_READ shows. -/
def State.showSensor (s : State) (i st : Nat) (t : Int) : State :=
  (s.setRfld (R.thmRead (i / 4)) (16 * (i % 4)) 12 (t % 4096).toNat).setRfld (R.thmRead (i / 4)) (16 * (i % 4) + 14) 2 st

/-- Is a sensor masked (R462)? -/
def State.masked (s : State) (i : Nat) : Bool := bit (s.reg (R.thmMask (i / 64))) (i % 64)

/-- Does an entry of THM_AON_MASK name a sensor (R472)? -/
def State.aonMasked (s : State) (i : Nat) : Bool :=
  (rangeFrom 0 8).any fun k => decide (s.rfld (R.thmAonMask (k / 4)) (16 * (k % 4)) 16 = 32768 + i)

/-- Sample period of a sensor in ns. -/
def samplePeriod (i : Nat) : Nat :=
  if 2432 ≤ i ∧ i < 2444 then 1000000 else if 2456 ≤ i ∧ i < 2500 then 100000 else 10000

/-- Is a sensor an HBM readout, or an estimate? -/
def isReadout (i : Nat) : Bool := decide (2432 ≤ i) && decide (i < 2444)
def isEstimate (i : Nat) : Bool := decide (2500 ≤ i) && decide (i < 2512)

/-- The shutdown limit of a sensor, if it has one (R469). -/
def tripLimit (i : Nat) : Option Int := if isReadout i then none else if isEstimate i then some 840 else some 920

/-- A thermal trip (R469, R553): the record, THERMTRIP_N, lasers, memory and islands off. Only the always-on
monitors go on. -/
def State.trip (s : State) (i : Nat) (t : Int) : State :=
  let s := s.alert 0
  let held := s.holdCold 0
  let keep := s.regs.filter fun x => decide (0x31000 ≤ x.1 ∧ x.1 < 0x33000) || decide (0x30100 ≤ x.1 ∧ x.1 < 0x30240)
    || decide (x.1 = R.mgtAlertEn) || decide (x.1 = R.mgtAlertPend)
  let h : State := { held with
    regs := keep.foldl (fun m x => SMap.set Regs.initial m x.1 x.2) held.regs,
    pkg := { held.pkg with alert := s.pkg.alert, eid := s.pkg.eid },
    therm := { held.therm with tripped := true, tripState := 1, trip := some (i, t, s.now), coolAt := held.now, cold := none,
                               condAt := s.therm.condAt.map (fun (x : Nat × Option Nat) => (x.1, x.2.map fun _ => held.now)), raw := s.therm.raw.map fun (x : Nat × Int × Nat) => (x.1, x.2.1, held.now) } }
  (h.setRfld R.thmStatus 0 1 0).emit (.pin Pin.thermtrip false)

/-- The trip logic looks at a reading, or, once tripped, the restart test does (R469, R471). -/
def State.compare (s : State) (i : Nat) : State :=
  let t := s.reading i
  if s.therm.tripped then
    if !s.masked i && !s.aonMasked i && !isReadout i && !isEstimate i && decide (640 ≤ t) then
      { s with therm := { s.therm with coolAt := s.now } }
    else s
  else match tripLimit i with
    | some l => if !s.masked i && decide (l ≤ t) && s.therm.cold.isNone then s.trip i t else s
    | none => s

/-- A condition of R461 holds: the sensor is broken, and it is reported when it becomes so. -/
def State.breakSensor (s : State) (i st : Nat) : State :=
  let s : State := { s with therm := { s.therm with condAt := SMap.set (fun _ => none) s.therm.condAt i (some s.now) } }
  if s.sensorState i ≠ 0 then s
  else
    let s := (s.showSensor i st 1016).setRfld R.thmStatus 32 12 (s.rfld R.thmStatus 32 12 + 1)
    (((s.event 0x0F02 (natToBytes 2 i ++ b1 st)).ledger 17).stagEdge 66).compare i

/-- A sample of a sensor (R460, R461, R469). -/
def execSensorSample (i : Fin 2500) (t : Int) (s : State) : Host.Outcome State Fault Refusal :=
  .next (
    let n := i.val
    if s.therm.tripped ∧ isReadout n then s
    else
      let s : State := { s with therm := { s.therm with raw := SMap.set (fun _ => (0, 0)) s.therm.raw n (t, s.now) } }
      if t < -320 ∨ 1200 < t then s.breakSensor n 2
      else if s.sensorState n ≠ 0 then s.compare n
      else (s.showSensor n 0 t).compare n)

/-- The self-check of a sensor (R461): `diff` is what the injected 10 K offset changed its reading by; for an
HBM readout `frozen` says that its code stood for 1 s while the base sensor moved by more than 5 K. A
sensor with no sample in 4 periods is missing. -/
def execSensorSelfCheck (i : Fin 2500) (diff : Int) (frozen : Bool) (s : State) : Host.Outcome State Fault Refusal :=
  .next (
    let n := i.val
    if s.therm.tripped ∧ isReadout n then s
    else
      let last := (SMap.get (fun _ => (0, 0)) s.therm.raw n).2
      if last + 4 * samplePeriod n < s.now then s.breakSensor n 3
      else if isReadout n then (if frozen then s.breakSensor n 1 else s)
      else if diff < 60 ∨ 100 < diff then s.breakSensor n 1
      else s)

/-- A broken sensor that met no condition for 1 s reads its measured value again (R461). -/
def execSensorRecover (i : Fin 2500) (s : State) : Host.Outcome State Fault Refusal :=
  .next (
    let n := i.val
    match SMap.get (fun _ => none) s.therm.condAt n with
    | none => s
    | some at_ =>
      if s.sensorState n = 0 ∨ s.now < at_ + 1000000000 then s
      else
        let t := (SMap.get (fun _ => (0, 0)) s.therm.raw n).1
        let s : State := { s with therm := { s.therm with condAt := SMap.set (fun _ => none) s.therm.condAt n none } }
        ((s.showSensor n 0 t).setRfld R.thmStatus 32 12 (s.rfld R.thmStatus 32 12 - 1)).stagEdge 66)

/-! Histograms (R516). -/

/-- The bin of a temperature. -/
def tempBin (t : Int) : Nat := if t < 320 then 0 else min 15 ((t - 280) / 40).toNat

/-- The hottest unmasked reading of a list of sensors. -/
def State.hottest (s : State) (l : List Nat) : Option Int :=
  l.foldl (fun m i => if s.masked i then m else match m with | none => some (s.reading i) | some t => some (max t (s.reading i))) none

/-- Adds the hottest reading of a list to a histogram. -/
def State.histTemp (s : State) (h : Nat) (l : List Nat) : State :=
  match s.hottest l with | some t => s.hist h (tempBin t) | none => s

/-! Throttling (R465 to R468). -/

/-- One step of a throttle loop on a reading and a set-point in °C (R466). -/
def loopStep (p : Nat) (t : Int) (set_ : Nat) : Nat :=
  let e := t - 8 * set_
  if 0 < e then min 48 (p + min 8 ((e + 1) / 2).toNat)
  else if e < -16 then p - 1 else p

/-- Reports throttling at the first non-zero level of a window of 1 s (R468). -/
def State.tellThrottle (s : State) (kind n p : Nat) : State :=
  let key := if kind = 0 then n else 8 + n
  let w := s.now / 1000000000
  if p = 0 ∨ SMap.get (fun _ => none) s.therm.told key = some w then s
  else ({ s with therm := { s.therm with told := SMap.set (fun _ => none) s.therm.told key (some w) } } : State).event 0x0F01
    (b1 kind ++ b1 n ++ b1 p)

/-- Core diodes and hot-spot sensors of a die; base sensors of a half. -/
def dieSensors (d : Nat) : List Nat := rangeFrom (288 * d) 288 ++ rangeFrom (2304 + 8 * d) 8
def halfSensors (h : Nat) : List Nat := rangeFrom (2368 + 32 * h) 32

/-- The 10 µs loop of a die (R466, R468, R516). -/
def execThrottleLoop (d : Die) (s : State) : Host.Outcome State Fault Refusal :=
  .next (if s.therm.tripped then s
    else
      let n := d.val
      let r := R.thmThrottle n
      let p := s.rfld r 0 6
      let p' := match s.hottest (dieSensors n ++ halfSensors (n / 4)) with
        | some t => loopStep p t (s.rfld R.thmLimits 0 8)
        | none => p
      let floor_ := min 48 (s.rfld R.thmPfloor (8 * n) 6)
      let stag := (rangeFrom (288 * n) 288).foldl (fun m k => max m (SMap.get (fun _ => 0) s.therm.pstag k)) 0
      let eff := max p' (max stag floor_)
      let old := s.rfld r 24 6
      let s := s.setReg r (BitVec.ofNat 64 (eff * 2 ^ 24 + floor_ * 2 ^ 16 + stag * 2 ^ 8 + p'))
      let s := s.setReg R.thmStatus (setBit (s.reg R.thmStatus) (8 + n) (decide (0 < eff)))
      let s := if eff ≠ old then s.dieEdge n 23 else s
      let s := if 0 < eff then s.ledger 15 else s
      let s := (s.hist 3 (if eff = 0 then 0 else (eff + 2) / 3)).histTemp 0 (dieSensors n)
      let s := if n % 4 = 0 then s.histTemp 1 (halfSensors (n / 4)) else s
      s.tellThrottle 0 n eff)

/-- The 10 µs loop of a stack on its estimate (R467, R468). -/
def execHbmThrottleLoop (n : Stack) (s : State) : Host.Outcome State Fault Refusal :=
  .next (if s.therm.tripped then s
    else
      let r := R.thmHbmThrottle n.val
      let p := s.rfld r 0 6
      let p' := if s.masked (2500 + n.val) then p else loopStep p (s.reading (2500 + n.val)) (s.rfld R.thmLimits 8 8)
      let s := s.setRfld r 0 6 p'
      let s := s.setReg R.thmStatus (setBit (s.reg R.thmStatus) (16 + n.val) (decide (0 < p')))
      let s := if p' ≠ p then s.stagEdge 66 else s
      let s := if 0 < p' then s.ledger 16 else s
      s.tellThrottle 1 n.val p')

/-! The middle-layer estimate (R463, R464). -/

/-- The estimate of a stack in 0.125 °C before rounding, as numerator and denominator: t_bs and t_rd, g in
1/4,096, kk in 0.25 K, c in 0.125 K, the activity average. -/
def estimateOf (bs rd : Int) (g kk : Nat) (c : Int) (num den : Nat) : Int × Nat :=
  ((bs + c) * (4096 * den) + g * (rd - bs) * den + 8192 * kk * num, 4096 * den)

/-- The update of an estimate: `used` of `slots` command slots in the last 10 µs. Which way a value between
two steps of 0.125 °C is rounded is free. -/
def execHbmEstimateUpdate (n : Stack) (used slots : Nat) (s : State) : Host.Outcome State Fault Refusal :=
  .next (if s.therm.tripped then s
    else
      let k := n.val
      let w := s.reg (R.thmEstCoef k)
      let tau := fld w 48 8
      let (an, ad) := SMap.get (fun _ => (0, 1)) s.therm.act k
      let m := max 1 slots
      let num := (100 * tau - 1) * an * m + used * ad
      let den := 100 * tau * ad * m
      let s : State := { s with therm := { s.therm with act := SMap.set (fun _ => (0, 1)) s.therm.act k (num, den) } }
      let rd := 2432 + k
      let bs := 2444 + k
      let mr := s.masked rd
      let mb := s.masked bs
      let kk := if mr || mb then 2 * fld w 32 8 else fld w 32 8
      let trd := if mr then s.reading bs else s.reading rd
      let tbs := if mb then s.reading rd else s.reading bs
      let broken := (!mr && decide (s.sensorState rd ≠ 0)) || (!mb && decide (s.sensorState bs ≠ 0))
      let (e, s) : Int × State :=
        if (mr && mb) || broken then (1016, s)
        else
          let (x, q) := estimateOf tbs trd (fld w 0 16) kk (signed (fld w 40 8) 8) num den
          let f := x / q
          let up := decide (x % q ≠ 0) && bit (s.freeWord 0) 0
          (max (-2048) (min 2047 (if up then f + 1 else f)), s.drew 1)
      let i := 2500 + k
      let s := (s.showSensor i 0 e).setRfld (R.thmHbmThrottle k) 16 12 (e % 4096).toNat
      (s.histTemp 2 [i]).compare i)

/-- A write of the coefficients of an estimate (R464). -/
def State.writeCoef (s : State) (n : Nat) (val : Word) : State :=
  let (val, s) := s.reservedOk (mask 48 8 ||| mask 40 8 ||| mask 32 8 ||| mask 0 16) val
  if coefOk val then s.setReg (R.thmEstCoef n) val else s.count R.thmStatus 48 16

def execThmEstCoefWrite (n : Stack) (val : Word) (s : State) : Host.Outcome State Fault Refusal := .next (s.writeCoef n.val val)

/-! Restart and the THERMTRIP_N pin (R470, R471). -/

/-- Does every unmasked remaining sensor read below 80 °C (R471)? One that was neither sampled nor found broken reads 0. -/
def State.allCool (s : State) : Bool :=
  (s.therm.raw.map (·.1) ++ s.therm.condAt.map (·.1)).all fun i =>
    s.masked i || s.aonMasked i || isReadout i || isEstimate i || decide (s.reading i < 640)

/-- The end of 30 s in which every unmasked remaining sensor read below 80 °C: cold reset with code 6, unless
the strap inhibits it. -/
def execTripRestartWindowEnd (s : State) : Host.Outcome State Fault Refusal :=
  .next (if s.therm.tripped ∧ s.therm.coolAt + 30000000000 ≤ s.now ∧ s.rfld R.rstStatus 9 1 = 0 ∧ s.therm.cold.isNone ∧ s.allCool then
      (s.cold 6).drive Pin.thermtrip true else s)

def execThermtripNLevelChange (level : Bool) (s : State) : Host.Outcome State Fault Refusal :=
  .next (s.setRfld R.rstStatus 8 1 level.toNat)

end Sys2Proof.Machine
end

