-- ==== Sys2Proof/Machine/Package.lean ====
section
/-!
DEFINITION. The package: power and reset pins, SYNC, rails, ALERT_N, the MCTP endpoint and the JTAG port (R298,
R472, R506, R522, R541 to R554).
-/

namespace Sys2Proof.Machine

/-! Power and reset pins (R542, R543, R550). -/

/-- The straps are sampled: BOARD_POS in bits [5:0], RESTART_INHIBIT in bit 8. -/
def State.sampleStraps (s : State) (straps : Nat) : State :=
  ({ s with pkg := { s.pkg with straps := straps } } : State).showStraps

/-- VIO enters its range: always-on monitors, the repeat path and the SMBus endpoint run. -/
def execVioInRange (straps : Nat) (s : State) : Host.Outcome State Fault Refusal :=
  .next (if s.pkg.vio then s else ({ s with pkg := { s.pkg with vio := true } } : State).sampleStraps straps)

/-- PWRGOOD rises: a device held in reset by it starts with cause 1. -/
def execPwrgoodRise (straps : Nat) (s : State) : Host.Outcome State Fault Refusal :=
  .next (
    if s.pkg.pwrgood ∨ !s.pkg.vio then s
    else
      let s : State := { s with
        pkg := { s.pkg with pwrgood := true, rose := true },
        therm := { s.therm with cold := if s.therm.cold.isSome then some 1 else none } }
      s.sampleStraps straps)

def execPwrgoodFall (s : State) : Host.Outcome State Fault Refusal :=
  .next (if s.pkg.pwrgood then ({ s with pkg := { s.pkg with pwrgood := false } } : State).cold 2 else s)

/-- RESET_N is asserted; COLD_RESET stands for its release. -/
def execResetNAssert (s : State) : Host.Outcome State Fault Refusal :=
  .next (if s.pkg.resetN then s else ({ s with pkg := { s.pkg with resetN := true } } : State).cold 2)

/-- VIO goes: the trip record and THM_AON_MASK are lost with everything else but package flash. -/
def execVioRemoved (s : State) : Host.Outcome State Fault Refusal :=
  .next (
    if !s.pkg.vio then s
    else
      let s := s.holdCold 1
      let regs := s.regs.filter fun x => decide (x.1 ≠ R.thmAonMask 0) && decide (x.1 ≠ R.thmAonMask 1) && decide (x.1 ≠ R.mgtAlertPend)
      { s with
        regs := regs,
        therm := { s.therm with tripped := false, tripState := 0, trip := none, coolAt := 0 },
        pkg := { s.pkg with vio := false, pwrgood := false, rose := false, eid := 0, alert := false, jtag := 1, boundary := 0 } })

/-! SYNC_IN and SYNC_OUT (R298, R492, R549). -/

/-- The period of MGT_SYNC_CTL in ns. -/
def State.syncPeriod (s : State) : Nat := 1000 * s.rfld R.mgtSyncCtl 20 20

/-- A pulse of a SYNC follower: the correction to the nearest multiple of the period, and whether the pulse is
used for time alignment. -/
def State.syncPulse (s : State) (edge : Nat) : State × Bool :=
  let per := s.syncPeriod
  if s.timeSource ≠ 2 ∨ per = 0 then (s, false)
  else
    let t : Int := (edge : Int) - (s.rfld R.mgtSyncCtl 0 16 : Nat)
    let m : Int := (2 * t + per) / (2 * per) * per
    let c := m - t
    if !s.aligned ∨ 2 < c.natAbs then (s.correctTime c, true)
    else ({ s with time := { s.time with lastCorr := s.now } }, false)

/-- Is the device out of reset, with a stag image running? -/
def State.awake (s : State) : Bool := s.therm.cold.isNone && decide (s.phase ≠ 7)

/-- The vote accepts a pulse of SYNC_IN with its rising edge at a SYSTIME: one within 90 µs of the last is
ignored. -/
def execSyncInPulse (edge : Nat) (s : State) : Host.Outcome State Fault Refusal :=
  .next (
    let early := match s.pkg.pulse with | some t => decide (t ≤ edge) && decide (edge < t + 90000) | none => false
    if !s.pkg.vio then s
    else if early then s.count R.mgtSyncStatus 32 32
    else
      let s := ({ s with pkg := { s.pkg with pulse := some edge } } : State).count R.mgtSyncStatus 0 32
      let s := if s.rfld R.mgtSyncCtl 16 2 = 0 then (s.drive Pin.syncOut true).drive Pin.syncOut false else s
      if !s.awake then s
      else
        let s := s.stagEdge 69
        let (s, used) := s.syncPulse edge
        s.pulseFor used)

/-- SYNC_OUT mode 1 of a master or a link follower: a pulse at every whole multiple of the period, a period that the
register allows, as SYSTIME reaches it (R298, R549): within the REFCLK cycle that passed it. -/
def execSyncOutGenerate (s : State) : Host.Outcome State Fault Refusal :=
  .next (
    let per := s.syncPeriod
    let m := s.now / per * per
    if s.rfld R.mgtSyncCtl 16 2 ≠ 1 ∨ per < 100000 ∨ 1000000000 < per ∨ s.pkg.made = some m ∨ s.timeSource = 2 ∨ 10 < s.now - m then s
    else
      ((({ s with pkg := { s.pkg with made := some m } } : State).drive Pin.syncOut true).drive Pin.syncOut false))

/-! Rails and ALERT_N (R545, R553). -/

/-- The rails compared every 10 µs: those outside their range, and whether each is over. -/
def execRailMonitorSample (bad : List (Fin 18 × Bool)) (s : State) : Host.Outcome State Fault Refusal :=
  .next ((rangeFrom 0 18).foldl (fun s i =>
    let n := SMap.get (fun _ => 0) s.pkg.rails i
    let put := fun (s : State) v => ({ s with pkg := { s.pkg with rails := SMap.set (fun _ => 0) s.pkg.rails i v } } : State)
    match bad.find? fun x => decide (x.1.val = i) with
    | none => put s 0
    | some x =>
      let s := put s (min 2 (n + 1))
      if n = 1 then ((s.setRfld R.mgtRailStatus i 1 1).event 0x1301 (b1 i ++ b1 x.2.toNat)).alert 3 else s) s)

/-- An enabled cause is pending. -/
def State.alertDue (s : State) : Bool := decide (s.rfld R.mgtAlertPend 0 6 &&& s.rfld R.mgtAlertEn 0 6 ≠ 0)

/-- Asserts or releases ALERT_N. -/
def State.setAlert (s : State) (b : Bool) : State :=
  if s.pkg.alert = b then s else ({ s with pkg := { s.pkg with alert := b } } : State).drive Pin.alert (!b)

/-- Causes are cleared: ALERT_N is released once none is left. -/
def State.clearAlert (s : State) (v : Word) : State :=
  let (v, s) := s.reservedOk 0x3F v
  let s := s.setReg R.mgtAlertPend (s.reg R.mgtAlertPend &&& ~~~v)
  if s.alertDue then s else s.setAlert false

/-- A write of MGT_ALERT_EN: a pending cause that it enables asserts ALERT_N. -/
def State.writeAlertEn (s : State) (v : Word) : State :=
  let (v, s) := s.reservedOk 0x3F v
  let old := s.alertDue
  let s := s.setReg R.mgtAlertEn v
  if s.alertDue then (if old then s else s.setAlert true) else s.setAlert false

def execMgtAlertPendWrite (val : Word) (s : State) : Host.Outcome State Fault Refusal := .next (s.clearAlert val)

/-- The SMBus address of the device. -/
def State.smbusAddr (s : State) : Nat := s.rfld R.mgtBoard 16 7

/-- The Alert Response Address is read: a device that asserts ALERT_N answers with its address and releases it. -/
def execAlertResponse (s : State) : Host.Outcome State Fault Refusal :=
  .next (if s.pkg.vio && s.pkg.alert then (s.emit (.smbus (b1 s.smbusAddr))).setAlert false else s)

/-! MCTP control messages (R551; DSP0236, log entry 36). -/

/-- Answers a control command with a completion code and data, while VIO is present. -/
def State.control (s : State) (cmd code : Nat) (d : List Byte) : State :=
  if s.pkg.vio then s.emit (.smbus ([0, 0].map (BitVec.ofNat 8) ++ b1 cmd ++ b1 code ++ d)) else s

/-- Set Endpoint ID: operation 0 or 1 sets it; 0 and 255 are no endpoint IDs. -/
def execSetEndpointId (op : Fin 4) (eid : Byte) (s : State) : Host.Outcome State Fault Refusal :=
  .next (
    if !s.pkg.vio then s
    else if 2 ≤ op.val ∨ eid = 0 ∨ eid = 255 then s.control 1 2 []
    else (({ s with pkg := { s.pkg with eid := eid.toNat } } : State)).control 1 0 ([0].map (BitVec.ofNat 8) ++ [eid] ++ b1 0))

def execGetEndpointId (s : State) : Host.Outcome State Fault Refusal := .next (s.control 2 0 (b1 s.pkg.eid ++ b1 0 ++ b1 0))

/-- Get MCTP Version Support: the version of the base specification is not stated, so its 4 bytes are a free
value; a type that the endpoint lacks is not supported. -/
def execGetMctpVersionSupport (type : Byte) (s : State) : Host.Outcome State Fault Refusal :=
  .next (
    if type = 0xFF ∨ type = 0 ∨ type = 0x7F then (s.control 4 0 (b1 1 ++ natToBytes 4 (s.freeWord 0).toNat)).drew 1
    else s.control 4 0x80 [])

def execGetMessageTypeSupport (s : State) : Host.Outcome State Fault Refusal := .next (s.control 5 0 (b1 1 ++ b1 0x7F))

/-- The vendor of the vendor-defined messages, most significant byte first. -/
def vendorBytes : List Byte := (natToBytes 4 Config.mctpVendor.toNat).reverse

/-- Get Vendor Defined Message Support: one vendor, by IANA enterprise number. -/
def execGetVendorDefinedMsgSupport (sel : Byte) (s : State) : Host.Outcome State Fault Refusal :=
  .next (
    if sel = 0 then (s.control 6 0 (b1 0xFF ++ b1 1 ++ vendorBytes ++ natToBytes 2 (s.freeWord 0).toNat)).drew 1
    else s.control 6 2 [])

/-! Jowald messages (R506, R522, R552). -/

/-- Answers a command with a completion code and data. -/
def State.answer (s : State) (cmd code : Nat) (d : List Byte) : State :=
  s.emit (.smbus (b1 0x7F ++ vendorBytes ++ b1 cmd ++ b1 code ++ d))

/-- While the device is tripped, held in reset or only VIO is present, a command that needs it ends with 0x03. -/
def State.mctpOff (s : State) : Bool := s.therm.tripped || !s.pkg.pwrgood || s.therm.cold.isSome

/-- Runs a command that the endpoint answers only with the device up. -/
def State.mctp (s : State) (cmd : Nat) (f : State → State) : State :=
  if !s.pkg.vio then s else if s.mctpOff then s.answer cmd 3 [] else f s

def execMctpQuote (req : List Byte) (s : State) : Host.Outcome State Fault Refusal :=
  .next (s.mctp 1 fun s =>
    match s.quote req with
    | some r => s.answer 1 0 r
    | none => s.answer 1 (if bit (s.reg R.secStatus) 0 then 2 else 1) [])

/-- A part of the certificate chain, of at most the 1,097 bytes that a message holds. -/
def execMctpCertificate (off len : BitVec 16) (s : State) : Host.Outcome State Fault Refusal :=
  .next (s.mctp 2 fun s =>
    if 1097 < len.toNat ∨ Config.certChain.length < off.toNat + len.toNat then s.answer 2 2 []
    else s.answer 2 0 (slice Config.certChain off.toNat len.toNat))

def execMctpMeasurement (idx : Byte) (s : State) : Host.Outcome State Fault Refusal :=
  .next (s.mctp 3 fun s => if 6 < idx.toNat then s.answer 3 2 [] else s.answer 3 0 (s.measurement idx.toNat))

/-- A part of a stored ledger record; one that does not exist gives no bytes. -/
def execMctpLedgerRecord (kind : Byte) (seq : BitVec 32) (off len : BitVec 16) (s : State) : Host.Outcome State Fault Refusal :=
  .next (s.mctp 4 fun s =>
    match (s.ledgerLog kind.toNat).find? fun r => decide (r.seq = seq.toNat) with
    | some r => if 1097 < len.toNat then s.answer 4 2 [] else s.answer 4 0 (slice r.bytes off.toNat len.toNat)
    | none => s.answer 4 0 [])

def execMctpLedgerItem (window item : Byte) (s : State) : Host.Outcome State Fault Refusal :=
  .next (s.mctp 5 fun s =>
    let i := item.toNat
    if 2 < window.toNat ∨ 176 ≤ i ∨ (53 ≤ i ∧ i < 64) then s.answer 5 0 []
    else s.answer 5 0 (natToBytes 8 (s.lifeItem window.toNat i)))

/-- The trip record; cause 0 of ALERT_N clears. -/
def execTripRead (s : State) : Host.Outcome State Fault Refusal :=
  .next (
    if !s.pkg.vio then s
    else
      let (n, t, at_) := match s.therm.trip with | some x => x | none => (0, 0, 0)
      let d := b1 s.therm.tripState ++ b1 0 ++ natToBytes 2 n ++ natToBytes 2 (t % 65536).toNat ++ natToBytes 2 0 ++ natToBytes 8 at_
      (s.answer 6 0 d).clearAlert 1)

/-- Writes an entry of THM_AON_MASK (R472). -/
def execAonMaskWrite (entry valid : Byte) (idx : BitVec 16) (s : State) : Host.Outcome State Fault Refusal :=
  .next (
    let e := entry.toNat
    if !s.pkg.vio then s
    else if 7 < e ∨ 2512 ≤ idx.toNat then s.answer 7 2 []
    else (s.setRfld (R.thmAonMask (e / 4)) (16 * (e % 4)) 16 (valid.toNat % 2 * 32768 + idx.toNat)).answer 7 0 [])

/-- A block of a recovery image (R485). -/
def execRecoveryData (off : BitVec 32) (data : List Byte) (s : State) : Host.Outcome State Fault Refusal :=
  .next (s.mctp 8 fun s =>
    let o := off.toNat
    if s.phase ≠ 7 then s.answer 8 3 []
    else if data.isEmpty ∨ 1024 < data.length ∨ 2 ^ 24 < o + data.length then s.answer 8 2 []
    else
      let m := (data.zip (rangeFrom o data.length)).foldl (fun m x => SMap.set (fun _ => 0) m x.2 x.1) s.fw.recovery
      ({ s with fw := { s.fw with recovery := m } } : State).answer 8 0 [])

/-- The recovery image is complete: when it verifies it goes into slot A and the device starts anew (R485). -/
def execRecoveryCommit (total : BitVec 32) (s : State) : Host.Outcome State Fault Refusal :=
  .next (s.mctp 9 fun s =>
    if s.phase ≠ 7 then s.answer 9 3 []
    else if 2 ^ 24 < total.toNat then s.answer 9 2 []
    else
      let d := (rangeFrom 0 total.toNat).map fun i => SMap.get (fun _ => 0) s.fw.recovery i
      match imageFault s.minVersion d with
      | none => (s.answer 9 0 []).recover d
      | some _ => (s.count R.fwStats 16 16).answer 9 1 [])

/-- The status summary. -/
def execMctpStatus (s : State) : Host.Outcome State Fault Refusal :=
  .next (
    if !s.pkg.vio then s
    else
      let d := b1 s.phase ++ b1 s.holder ++ b1 (s.stagState 0) ++ b1 (s.stagState 1) ++ b1 (s.rfld R.rstStatus 0 2)
        ++ b1 s.therm.tripped.toNat ++ b1 (s.rfld R.thmStatus 8 8) ++ b1 (s.rfld R.mgtAlertPend 0 6) ++ natToBytes 8 s.now
      s.answer 0x0A 0 d)

/-- A stag is to act as holder, in overlap mode only (R443): a standby claims, the holder holds on. -/
def execHolderClaim (stag : Byte) (s : State) : Host.Outcome State Fault Refusal :=
  .next (s.mctp 0x0B fun s =>
    let u := stag.toNat
    if !s.overlap then s.answer 0x0B 3 []
    else if 1 < u then s.answer 0x0B 2 []
    else if s.stagState u = 3 then (s.claim u 1).answer 0x0B 0 []
    else if s.stagState u = 4 ∧ s.holder = u then s.answer 0x0B 0 []
    else s.answer 0x0B 1 [])

/-! The JTAG port (R531, R554). -/

/-- Pins that the device drives, and the level its own function gives each: none for a floating GPIO. -/
def State.outPins (s : State) : List (Nat × Option Bool) :=
  [(Pin.thermtrip, some (!s.therm.tripped)), (Pin.alert, some (!s.pkg.alert)), (Pin.syncOut, some false)]
    ++ (rangeFrom 0 8).map fun n => (Pin.gpio n, if s.gpioTrig n then some false else s.gpioFunc n)

/-- What every output pin shows under an instruction: the boundary register for EXTEST and CLAMP, nothing for
HIGHZ, else its own function. A trip's THERMTRIP_N wins. -/
def State.showPins (s : State) : State :=
  s.emits (s.outPins.map fun (p, l) =>
    if p = Pin.thermtrip ∧ s.therm.tripped then .pin p false
    else if s.gpioJtag then .pin p (bit s.pkg.boundary p)
    else if s.pkg.jtag = 5 then .float p
    else match l with | some b => .pin p b | none => .float p)

/-- Another instruction is in force: pins change where it, or the one before it, drives them. -/
def State.jtagIr (s : State) (ir : Nat) : State :=
  let old := s.pkg.jtag
  let s := ({ s with pkg := { s.pkg with jtag := ir } } : State).gpioLost
  if 3 ≤ old ∨ 3 ≤ ir then s.showPins else s

/-- BYPASS, and every opcode that is not implemented: one bit, captured 0. -/
def execBypass (s : State) : Host.Outcome State Fault Refusal := .next ((s.jtagIr 0).emit (.jtag 1 0))

/-- IDCODE: version 1 for B0, part 0x9240, Jowald's identity code, and 1. -/
def execIdcode (s : State) : Host.Outcome State Fault Refusal :=
  .next ((s.jtagIr 1).emit (.jtag 32 (2 ^ 28 + 0x9240 * 2 ^ 12 + Config.jedec.toNat * 2 + 1)))

/-- SAMPLE/PRELOAD: the levels sampled at the pins go out, and a pattern is preloaded. -/
def execSamplePreload (pins : Word) (preload : Option Word) (s : State) : Host.Outcome State Fault Refusal :=
  .next (
    let s := (s.jtagIr 2).emit (.jtag 28 (fld pins 0 28))
    match preload with
    | some w => { s with pkg := { s.pkg with boundary := w } }
    | none => s)

def execExtest (s : State) : Host.Outcome State Fault Refusal := .next (s.jtagIr 3)

def execClamp (s : State) : Host.Outcome State Fault Refusal := .next (s.jtagIr 4)

def execHighz (s : State) : Host.Outcome State Fault Refusal := .next (s.jtagIr 5)

end Sys2Proof.Machine
end

