-- ==== Sys2Proof/Machine/RegAccess.lean ====
section
/-!
DEFINITION. The configuration window as the host reads and writes it: access types, halves, registers that
show state kept elsewhere, registers whose write acts, and the rows that carry an access (R2, R6 to R11, R337,
R562 to R569).
-/

namespace Sys2Proof.Machine

/-! Reading (R6, R7, R10, R565, R566). -/

/-- CTL and LOST of an interrupt controller (R426, R427). -/
def IntCtl.ctlWord (c : IntCtl) : Word := BitVec.ofNat 64 (c.frames.length * 2 ^ 16 + c.run % 16 * 2 ^ 8 + c.thresh % 16)
def IntCtl.lostWord (c : IntCtl) : Word := BitVec.ofNat 64 (c.lastSrc % 256 * 2 ^ 40 + c.lost % 2 ^ 32)

/-- 64 sources of a set of 256. -/
def quarter (b : BitVec 256) (k : Nat) : Word := (b >>> (64 * k)).setWidth 64

/-- A register of an interrupt controller by its offset among them: `n` registers of pending bits. -/
def IntCtl.readReg (c : IntCtl) (cond : BitVec 256) (n o : Nat) : Word :=
  let k := o / 8
  if k < n then quarter (c.pending cond) k
  else if k < 2 * n then quarter c.insvc (k - n)
  else if k < 6 * n then c.levelWord (k - 2 * n)
  else if k = 6 * n then c.ctlWord
  else if k = 6 * n + 1 then c.lostWord
  else 0

/-- Pending faults of a die, and walks that run on it (R260). -/
def State.dieMmuWord (s : State) (d : Nat) : Word :=
  let f := (s.mmu.faults.filter fun f => decide (f.core / 288 = d)).length
  let w := (s.mmu.walks.filter fun w => decide (w.core / 288 = d)).length
  BitVec.ofNat 64 (min 256 f * 2 ^ 32 + min 32 w * 2 ^ 16)

/-- A register of a die window (R565, R566): a window reads 0 while its die resets, is held or is down, and a
fenced core shows CORE_STATE only. -/
def State.dieWindowRead (s : State) (off : Nat) : Word :=
  let d := (off - 0x500000) / 0x100000
  let o := (off - 0x500000) % 0x100000
  let st := s.dieState d
  if st = 1 ∨ st = 3 ∨ st = 4 then 0
  else if o < 0x48000 then
    let key := 288 * d + o / 0x400
    let k := o % 0x400 / 8
    let c := s.coreAt key
    if c.rs = .fenced ∧ k ≠ 0x007 then 0 else (c.csrRead (s.envAt key) k).getD 0
  else if o = 0xC0000 then s.dieMmuWord d
  else if 0xD0000 ≤ o ∧ o < 0xD0040 then (s.dieIntc d).readReg (s.dieCond d) 1 (o - 0xD0000)
  else if (Regs.find off).isSome then s.reg off
  else 0

/-- The interrupt registers of a stag core; a stag held in reset reads 0 (R427). -/
def State.stagIntRead (s : State) (off : Nat) : Word :=
  let u := (off - 0x3A0000) / 0x1000
  if s.stagState (u / 2) = 0 then 0 else (s.stagIntc u).readReg s.stagCond 4 ((off - 0x3A0000) % 0x1000)

/-- MGT_STAG_HOLDOFF: stag A's window of 60 s. -/
def State.holdoffWord (s : State) : Word :=
  match s.stag.holdoff with
  | none => 0
  | some t => BitVec.ofNat 64 (2 ^ 63 + (t + 60000000000 - s.now + 999999) / 1000000)

/-- THM_READ: the readings shown, with the active masks. -/
def State.thermWord (s : State) (off k : Nat) : Word :=
  (rangeFrom 0 4).foldl (fun w i => setBit w (16 * i + 13) (s.masked (4 * k + i))) (s.reg off)

/-- MGT_GPIO_STATUS: the level of each pin that the device drives; an input's level is a free value. -/
def State.gpioWord (s : State) : Word :=
  (rangeFrom 0 8).foldl (fun w n => setBit w n ((s.gpioLevel n).getD (bit (s.freeWord 0) n))) (s.reg R.mgtGpioStatus)

/-- The ring and the channel that OPT_RING_SEL and OPT_CH_SEL name (R407); before the search they have no values. -/
def State.ringWord (s : State) : Word :=
  let a := s.rfld R.optRingSel 0 32
  if ringOk a && s.opt.search.isNone then BitVec.ofNat 64 ((s.ring a).target % 2 ^ 16 * 2 ^ 16 + (s.ring a).set % 2 ^ 16) else 0
def State.ringState (s : State) : Word :=
  let a := s.rfld R.optRingSel 0 32
  if ringOk a && s.opt.search.isNone then
    BitVec.ofNat 64 (ringLine a * 2 ^ 40 + ((s.ring a).err % 65536).toNat * 2 ^ 16 + (s.ring a).failed.toNat * 2 + (s.ring a).locked.toNat)
  else 0
def State.selChan (s : State) (f : ChanVal → Word) : Word :=
  let a := s.rfld R.optChSel 0 32
  if chanOk a && s.opt.search.isNone then f (s.chan a) else 0

/-- What a register reads, whole: reserved fields, write-only registers and offsets without a register read 0;
an RWS register reads the copy that CFG_VIEW selects. -/
def State.regRead (s : State) (off : Nat) : Word :=
  if 0x500000 ≤ off ∧ off < 0xD00000 then s.dieWindowRead off
  else match Regs.find off with
    | none => 0
    | some r =>
      let w :=
        if r.access = .wo then 0
        else if r.access = .rws then (if bit (s.reg R.cfgView) 0 then s.shadowReg off else s.reg off)
        else if off = R.clkSystime then BitVec.ofNat 64 s.now
        else if 0x3A0000 ≤ off ∧ off < 0x3A4000 then s.stagIntRead off
        else if off = R.lifeVal then BitVec.ofNat 64 (s.lifeItem (s.rfld R.lifeSel 8 2) (s.rfld R.lifeSel 0 8))
        else if off = R.dbgSramData then BitVec.ofNat 64 (s.sramWord (8 * s.rfld R.dbgSramAddr 3 18))
        else if off = R.mmuFaultStatus then setFld (s.reg off) 32 12 (min 2048 s.mmu.faults.length)
        else if r.base = R.thmRead 0 then s.thermWord off ((off - r.base) / 8)
        else if r.base = R.secMeas 0 then
          bytesWord (((s.measurement ((off - r.base) / 48)).drop ((off - r.base) % 48)).take 8)
        else if off = R.mgtStagHoldoff then s.holdoffWord
        else if off = R.mgtGpioStatus then s.gpioWord
        else if off = R.optRingVal then s.ringWord
        else if off = R.optRingState then s.ringState
        else if off = R.optChTaps then s.selChan (·.taps)
        else if off = R.optChQual then s.selChan (·.qual)
        else s.reg off
      w &&& r.mask

/-- An access of the host: 8 bytes of a whole register, or 4 bytes of a half (R2). -/
def accessOk (off size : Nat) : Bool := (decide (size = 8) && decide (off % 8 = 0)) || (decide (size = 4) && decide (off % 4 = 0))

/-- A read of the window (R7, R337, R567): the upper half of CLK_SYSTIME is answered from the capture of the
last read of its lower half; another width or alignment reads 0 and is counted. -/
def State.windowRead (s : State) (off size : Nat) : State × List Byte :=
  if !accessOk off size then (s.count R.hifLinkErr 48 16, List.replicate size 0)
  else
    let r := off / 8 * 8
    let w := s.regRead r
    let s := if r = R.mgtGpioStatus then s.drew 1 else s
    if size = 8 then (s, wordBytes w)
    else if off % 8 = 0 then
      (if r = R.clkSystime then { s with host := { s.host with capture := some (s.now / 2 ^ 32) } } else s, natToBytes 4 (fld w 0 32))
    else if r = R.clkSystime then
      (s, natToBytes 4 (s.host.capture.getD (fld w 32 32)))
    else (s, natToBytes 4 (fld w 32 32))

/-! Writing whole registers (R6, R8, R9, R339, R359, R380, R569). -/

/-- A ring's base or configuration is written while the ring is disabled; an enabled ring takes only a clear
of en (R339). -/
def State.writeWhileOff (s : State) (off : Nat) (val : Word) : State :=
  if bit (s.reg off) 63 then (if bit val 63 then s else s.setReg off (setBit (s.reg off) 63 false)) else s.setReg off val

/-- Is a value of THM_LIMITS within its limits (R464, R478)? -/
def limitsOk (w : Word) : Bool :=
  decide (80 ≤ fld w 8 8) && decide (fld w 8 8 ≤ 100) && decide (85 ≤ fld w 0 8) && decide (fld w 0 8 ≤ 105)

/-- A write of an RWS register changes the shadow copy (R8), and while a swap or a copy is under way nothing
(R359); thermal limits out of range are ignored and counted (R464). -/
def State.writeRws (s : State) (off : Nat) (val : Word) : State :=
  if s.rwsBlocked then s.count R.cfgSwapStatus 32 16
  else
    let m := match Regs.find off with | some r => r.mask | none => 0
    let (v, s) := s.reservedOk m val
    if off = R.thmLimits ∧ !limitsOk v then s.count R.thmStatus 48 16
    else { s with shadow := SMap.set Regs.initial s.shadow off v }

/-- RST_CMD and RST_DIE_CMD (R449, R454, R456, R458, R569). -/
def State.writeRst (s : State) (val : Word) : State :=
  let c := fld val 0 2
  if c = 1 then s.cmdWarm else if c = 2 then s.cold 3 else s.count R.rstStatus 48 16
def State.writeRstDie (s : State) (val : Word) : State :=
  let c := fld val 8 2
  let d := fld val 0 3
  if c = 1 then s.dieReset d 1 else if c = 2 then s.holdDie d else if c = 3 then s.releaseDie d else s.count R.rstStatus 48 16

/-- PORT_CMD, COL_CTX_CMD and OPT_SRC_CMD (R287, R291, R300, R403, R569). -/
def State.writePort (s : State) (p : Nat) (val : Word) : State :=
  let c := fld val 0 2
  if c = 1 then s.portRetrain p else if c = 2 then s.portDisable p else if c = 3 then s.portEnable p else s
def State.writeCtxCmd (s : State) (val : Word) : State :=
  let c := fld val 8 2
  if c = 1 then s.colAbort (fld val 0 6) else if c = 2 then s.colRearm (fld val 0 6) else s
def State.writeSrc (s : State) (val : Word) : State :=
  let n := fld val 0 6
  if fld val 8 2 = 1 ∧ s.canSwitch n then (s.startSwitch n 2 false).1 else s

/-- MGT_STAG_CMD (R442, R569). -/
def State.writeStag (s : State) (val : Word) : State :=
  let c := fld val 0 2
  if c = 1 ∨ c = 2 then s.stagCmd c else s

/-- The verification sweep of a written ring value or taps finds free values on this path; OPT_RING_VAL_WRITE
and OPT_CH_TAPS_WRITE carry what it finds (R407). -/
def State.freeMeas (s : State) (i : Nat) : RingMeas :=
  { peak := fld (s.freeWord i) 0 16, set := fld (s.freeWord i) 16 16, target := fld (s.freeWord i) 32 16 }
def State.writeRingFree (s : State) (val : Word) : State := (s.drew 2).writeRing val (s.freeMeas 0) (s.freeMeas 1)
def State.writeTapsFree (s : State) (val : Word) : State :=
  (s.drew 1).writeTaps val (fld (s.freeWord 0) 0 8) (fld (s.freeWord 0) 8 8)

/-- A write-only register's action. -/
def State.writeAction (s : State) (r : RegRow) (off : Nat) (val : Word) : State :=
  if off = R.rstCmd then s.writeRst val
  else if off = R.rstDieCmd then s.writeRstDie val
  else if off = R.clkTimeSet then s.setTime val
  else if off = R.cfgSwap then s.writeSwap val
  else if off = R.cfgCopy then s.writeCopy (bit val 0)
  else if off = R.mmuInv then s.writeInv val
  else if off = R.optSrcCmd then s.writeSrc val
  else if r.base = 0x200300 then s.writePort ((off - r.base) / 8) val
  else if off = R.colCtxCmd then s.writeCtxCmd val
  else if off = R.bolCmd then s.bolCommand val
  else if off = R.mgtStagCmd then s.writeStag val
  else s

/-- A read-write register: those whose write does more than store. -/
def State.writeRw (s : State) (r : RegRow) (off : Nat) (val : Word) : State :=
  let n := (off - r.base) / 8
  if r.base = R.hifSqCfg 0 then s.writeSqCfg n val
  else if r.base = R.hifDbl 0 then s.writeDbl n val
  else if r.base = R.hirqVecCtl 0 then s.writeVecCtl n val
  else if r.base = R.hifCqCfg 0 ∨ r.base = R.hifEqCfg 0 then s.writeWhileOff off val
  else if r.base = R.hifSqBase 0 then (if bit (s.reg (R.hifSqCfg n)) 63 then s else s.setReg off val)
  else if r.base = R.hifCqBase 0 then (if bit (s.reg (R.hifCqCfg n)) 63 then s else s.setReg off val)
  else if r.base = R.hifEqBase 0 then (if bit (s.reg (R.hifEqCfg n)) 63 then s else s.setReg off val)
  else if r.base = R.bolStreamBase 0 ∨ r.base = R.bolStreamCtrl 0 then
    (if bit (s.reg (R.bolStreamCfg n)) 63 then s else s.setReg off val)
  else if r.base = R.bolStreamCfg 0 then (s.drew 3).writeStreamCfg n val [s.freeWord 0, s.freeWord 1, s.freeWord 2]
  else if off = R.mmuFaultTimeout then s.setFaultTimeout val
  else if r.base = R.thmEstCoef 0 then s.writeCoef n val
  else if off = R.bolCtl then s.writeBolCtl val
  else if off = R.clkTimeCtl then (s.setReg off val).alignMaster
  else if off = R.mgtAlertEn then s.writeAlertEn val
  else if off = R.mgtGpioFunc ∨ off = R.mgtGpioOut then (s.setReg off val).gpioLost
  else if off = R.dbgTraceCtl then s.writeTrace val
  else if off = R.dbgHistCtl then s.writeHist val
  else if off = R.optRingVal then s.writeRingFree val
  else if off = R.optChTaps then s.writeTapsFree val
  else if off = R.optEyeCtl then s.writeEye val
  else s.setReg off val

/-- A write of a core's CSR through its die's window; a window whose die resets, is held or is down ignores it,
and so does a fenced core (R565, R566). -/
def State.dieWindowWrite (s : State) (off : Nat) (val : Word) : State :=
  let d := (off - 0x500000) / 0x100000
  let o := (off - 0x500000) % 0x100000
  let st := s.dieState d
  if st = 1 ∨ st = 3 ∨ st = 4 ∨ 0x48000 ≤ o then s
  else s.onKey (288 * d + o / 0x400) fun env c => if c.rs = .fenced then c else c.csrWrite env (o % 0x400 / 8) .wr val true

/-- A write of a whole register under its access type; read-only registers and offsets without a register take
none (R6, R10). Reserved bits that are set leave the others with free values (R9). -/
def State.regWrite (s : State) (off : Nat) (val : Word) : State :=
  if 0x500000 ≤ off ∧ off < 0xD00000 then s.dieWindowWrite off val
  else match Regs.find off with
    | none => s
    | some r =>
      match r.access with
      | .ro | .rov => s
      | .rws => s.writeRws off val
      | .wo => let (v, s) := s.reservedOk r.mask val; s.writeAction r off v
      | .w1c => let (v, s) := s.reservedOk r.mask val; s.clearAlert v
      | .rw => let (v, s) := s.reservedOk r.mask val; s.writeRw r off v

/-! Halves (R567). -/

/-- What a half write of a register that holds values keeps of the other half. -/
def State.halfBase (s : State) (off : Nat) : Word :=
  if 0x500000 ≤ off ∧ off < 0xD00000 then
    let k := (off - 0x500000) % 0x400 / 8
    if csrActs k then 0 else s.dieWindowRead off
  else match Regs.find off with
    | some r => if r.access = .rws then s.shadowReg off else if r.access = .w1c then 0 else s.regRead off
    | none => 0

/-- Is the register write-only, and in which half is its most significant field: the upper one? -/
def woHigh (off : Nat) : Option Bool :=
  match Regs.find off with
  | some r => if r.access = .wo then some (decide (r.mask.toNat / 2 ^ 32 ≠ 0)) else none
  | none => none

/-- The value that a register's other half waits with. -/
def State.heldHalf (s : State) (off : Nat) : Nat :=
  if off = R.cfgSwap then s.host.swapLow else SMap.get (fun _ => 0) s.host.halves off
def State.holdHalf (s : State) (off v : Nat) : State :=
  if off = R.cfgSwap then { s with host := { s.host with swapLow := v } }
  else { s with host := { s.host with halves := SMap.set (fun _ => 0) s.host.halves off v } }

/-- A write of one half. A write-only register acts at the half with its most significant field, and holds the
other one until then. -/
def State.halfWrite (s : State) (off : Nat) (high : Bool) (v : Nat) : State :=
  match woHigh off with
  | some top =>
    if high = top then
      let other := s.heldHalf off
      let w := if high then v * 2 ^ 32 + other else other * 2 ^ 32 + v
      (s.holdHalf off 0).regWrite off (BitVec.ofNat 64 w)
    else s.holdHalf off v
  | none => s.regWrite off (setFld (s.halfBase off) (if high then 32 else 0) 32 v)

/-- A write of the window (R337): another width or alignment has no effect and is counted. -/
def State.windowWrite (s : State) (off size : Nat) (val : Word) : State :=
  if !accessOk off size then s.count R.hifLinkErr 48 16
  else if size = 8 then s.regWrite off val
  else s.halfWrite (off / 8 * 8) (decide (off % 8 = 4)) (fld val 0 32)

/-! The rows. -/

/-- A read of the window by the host answers with its data. -/
def State.crRead (s : State) (tag off n : Nat) : State :=
  let (s, d) := s.windowRead off n
  s.nogar 0x20 tag off 0 d

/-- CR_RD: the answer carries as many bytes as were asked for. A device held in cold reset answers nothing. -/
def execCrRd (tag : BitVec 12) (off : BitVec 24) (len : Fin 64) (s : State) : Host.Outcome State Fault Refusal :=
  .next (
    if s.therm.cold.isSome then s
    else if s.hostWaits then s.holdMem (.crRd tag.toNat off.toNat (len.val + 1))
    else s.crRead tag.toNat off.toNat (len.val + 1))

/-- CR_WR. -/
def execCrWr (off : BitVec 24) (len : Fin 64) (val : Word) (s : State) : Host.Outcome State Fault Refusal :=
  .next (
    if s.therm.cold.isSome then s
    else if s.hostWaits then s.holdMem (.crWr off.toNat (len.val + 1) val)
    else s.windowWrite off.toNat (len.val + 1) val)

/-! Requests that a memory stop held (R232), and those that waited behind a write of the host (R336). -/

/-- Performs a request that was held. -/
def State.serveHeld (s : State) : HeldReq → State
  | .pkt p ecc => s.serveMem p ecc
  | .dmRd tag a n ecc => s.dmRead tag a n ecc
  | .dmWr a d ecc => s.dmWrite a d ecc
  | .crRd tag off n => s.crRead tag off n
  | .crWr off n v => s.windowWrite off n v
  | .stream n a d =>
    if s.stackOut a then s.streamFail n 5
    else
      let (s, ok) := s.memWrite a d [.ok]
      if ok then s else s.streamFail n 5
  | .opens n _ ws => s.openStream n ws

/-- Must a held request go on waiting: for its channel, or behind an earlier write of the host? -/
def State.stillHeld (s : State) (r : HeldReq) : Bool :=
  (match r.addr with | some a => s.channelHeld a | none => false) || (r.ofHost && s.hostWaits)

/-- The repair of a lane and the retraining of its channel end: held requests are released in order
(R232). -/
def execHbmLaneRepaired (st : Stack) (ch : Fin 16) (lane : Nat) (s : State) : Host.Outcome State Fault Refusal :=
  .next (
    if (st.val, ch.val, lane) ∈ s.mem.repairing then
      let s := { s with mem := { s.mem with repairing := s.mem.repairing.filter (· ≠ (st.val, ch.val, lane)) } }
      let s := (s.event 0x0705 (b1 st.val ++ b1 ch.val ++ b1 lane)).ledger 41
      let s := s.count (R.memStackStatus st.val) 8 8
      let go := s.mem.held
      go.foldl (fun s r => if s.stillHeld r then s.holdMem r else s.serveHeld r) { s with mem := { s.mem with held := [] } }
    else s)

/-- A write of a register without a row of its own: `off` is the register's, `half` the upper half of it. -/
def execRegisterWrite (off size : Nat) (half : Bool) (val : Word) (s : State) : Host.Outcome State Fault Refusal :=
  .next (if s.therm.cold.isSome ∨ isRws (off / 8 * 8) then s else s.windowWrite (off + 4 * half.toNat) size val)

/-- A write of a register of the configuration set (R8, R357, R359). -/
def execRwsRegisterWrite (off size : Nat) (half : Bool) (val : Word) (s : State) : Host.Outcome State Fault Refusal :=
  .next (if s.therm.cold.isSome ∨ !isRws (off / 8 * 8) then s else s.windowWrite (off + 4 * half.toNat) size val)

end Sys2Proof.Machine
end

