-- ==== Sys2Proof/Machine/Dispatch.lean ====
section
/-! DEFINITION. One arm per command: its meaning. -/

namespace Sys2Proof.Machine

def exec (i : Instr) (s : State) : Host.Outcome State Fault Refusal :=
  match i with
  -- Core controller instructions (R37)
  | .add i0 rd rs1 rs2 => Sys2Proof.Machine.execAdd i0 rd rs1 rs2 s
  | .sub i0 rd rs1 rs2 => Sys2Proof.Machine.execSub i0 rd rs1 rs2 s
  | .and i0 rd rs1 rs2 => Sys2Proof.Machine.execAnd i0 rd rs1 rs2 s
  | .or i0 rd rs1 rs2 => Sys2Proof.Machine.execOr i0 rd rs1 rs2 s
  | .xor i0 rd rs1 rs2 => Sys2Proof.Machine.execXor i0 rd rs1 rs2 s
  | .shl i0 rd rs1 rs2 => Sys2Proof.Machine.execShl i0 rd rs1 rs2 s
  | .shr i0 rd rs1 rs2 => Sys2Proof.Machine.execShr i0 rd rs1 rs2 s
  | .sra i0 rd rs1 rs2 => Sys2Proof.Machine.execSra i0 rd rs1 rs2 s
  | .mul i0 rd rs1 rs2 => Sys2Proof.Machine.execMul i0 rd rs1 rs2 s
  | .mulhu i0 rd rs1 rs2 => Sys2Proof.Machine.execMulhu i0 rd rs1 rs2 s
  | .mulh i0 rd rs1 rs2 => Sys2Proof.Machine.execMulh i0 rd rs1 rs2 s
  | .min i0 rd rs1 rs2 => Sys2Proof.Machine.execMin i0 rd rs1 rs2 s
  | .max i0 rd rs1 rs2 => Sys2Proof.Machine.execMax i0 rd rs1 rs2 s
  | .minu i0 rd rs1 rs2 => Sys2Proof.Machine.execMinu i0 rd rs1 rs2 s
  | .maxu i0 rd rs1 rs2 => Sys2Proof.Machine.execMaxu i0 rd rs1 rs2 s
  | .clz i0 rd rs1 rs2 => Sys2Proof.Machine.execClz i0 rd rs1 rs2 s
  | .popc i0 rd rs1 rs2 => Sys2Proof.Machine.execPopc i0 rd rs1 rs2 s
  | .divu i0 rd rs1 rs2 => Sys2Proof.Machine.execDivu i0 rd rs1 rs2 s
  | .remu i0 rd rs1 rs2 => Sys2Proof.Machine.execRemu i0 rd rs1 rs2 s
  | .addi i0 rd rs1 imm => Sys2Proof.Machine.execAddi i0 rd rs1 imm s
  | .andi i0 rd rs1 imm => Sys2Proof.Machine.execAndi i0 rd rs1 imm s
  | .ori i0 rd rs1 imm => Sys2Proof.Machine.execOri i0 rd rs1 imm s
  | .xori i0 rd rs1 imm => Sys2Proof.Machine.execXori i0 rd rs1 imm s
  | .shli i0 rd rs1 imm => Sys2Proof.Machine.execShli i0 rd rs1 imm s
  | .shri i0 rd rs1 imm => Sys2Proof.Machine.execShri i0 rd rs1 imm s
  | .srai i0 rd rs1 imm => Sys2Proof.Machine.execSrai i0 rd rs1 imm s
  | .ldh i0 k rd z imm => Sys2Proof.Machine.execLdh i0 k rd z imm s
  | .cmp i0 pd rs1 rs2 cond resHi resLo => Sys2Proof.Machine.execCmp i0 pd rs1 rs2 cond resHi resLo s
  | .cmpi i0 pd cond rs1 imm => Sys2Proof.Machine.execCmpi i0 pd cond rs1 imm s
  | .plog i0 pd pa pb fn res => Sys2Proof.Machine.execPlog i0 pd pa pb fn res s
  | .pmovRead i0 rd rs1 rs2 => Sys2Proof.Machine.execPmovRead i0 rd rs1 rs2 s
  | .pmovWrite i0 rd rs1 rs2 => Sys2Proof.Machine.execPmovWrite i0 rd rs1 rs2 s
  | .ldB i0 rd rs1 imm ecc => Sys2Proof.Machine.execLdB i0 rd rs1 imm ecc s
  | .ldH i0 rd rs1 imm ecc => Sys2Proof.Machine.execLdH i0 rd rs1 imm ecc s
  | .ldW i0 rd rs1 imm ecc => Sys2Proof.Machine.execLdW i0 rd rs1 imm ecc s
  | .ldD i0 rd rs1 imm ecc => Sys2Proof.Machine.execLdD i0 rd rs1 imm ecc s
  | .ldBu i0 rd rs1 imm ecc => Sys2Proof.Machine.execLdBu i0 rd rs1 imm ecc s
  | .ldHu i0 rd rs1 imm ecc => Sys2Proof.Machine.execLdHu i0 rd rs1 imm ecc s
  | .ldWu i0 rd rs1 imm ecc => Sys2Proof.Machine.execLdWu i0 rd rs1 imm ecc s
  | .stB i0 rd rs1 imm => Sys2Proof.Machine.execStB i0 rd rs1 imm s
  | .stH i0 rd rs1 imm => Sys2Proof.Machine.execStH i0 rd rs1 imm s
  | .stW i0 rd rs1 imm => Sys2Proof.Machine.execStW i0 rd rs1 imm s
  | .stD i0 rd rs1 imm => Sys2Proof.Machine.execStD i0 rd rs1 imm s
  | .br i0 off => Sys2Proof.Machine.execBr i0 off s
  | .call i0 off => Sys2Proof.Machine.execCall i0 off s
  | .jr i0 rd rs1 imm => Sys2Proof.Machine.execJr i0 rd rs1 imm s
  | .callr i0 rd rs1 imm => Sys2Proof.Machine.execCallr i0 rd rs1 imm s
  | .dbnz i0 rs1 off => Sys2Proof.Machine.execDbnz i0 rs1 off s
  | .iss i0 eng rq try_ pd res => Sys2Proof.Machine.execIss i0 eng rq try_ pd res s
  | .issStallEnd c => Sys2Proof.Machine.execIssStallEnd c s
  | .qwait i0 eng cnt rs1 res => Sys2Proof.Machine.execQwait i0 eng cnt rs1 res s
  | .wait i0 r cnt imm => Sys2Proof.Machine.execWait i0 r cnt imm s
  | .waitComplete c => Sys2Proof.Machine.execWaitComplete c s
  | .cntRd i0 r cnt imm => Sys2Proof.Machine.execCntRd i0 r cnt imm s
  | .cntWr i0 r cnt imm => Sys2Proof.Machine.execCntWr i0 r cnt imm s
  | .cntAdd i0 r cnt imm => Sys2Proof.Machine.execCntAdd i0 r cnt imm s
  | .sndMsg i0 rd rs1 rs2 fn => Sys2Proof.Machine.execSndMsg i0 rd rs1 rs2 fn s
  | .rcvMsg i0 rd rs1 rs2 fn => Sys2Proof.Machine.execRcvMsg i0 rd rs1 rs2 fn s
  | .rcvMsgStallEnd c => Sys2Proof.Machine.execRcvMsgStallEnd c s
  | .csrRd i0 rd rs1 csr => Sys2Proof.Machine.execCsrRd i0 rd rs1 csr s
  | .csrWr i0 rd rs1 csr => Sys2Proof.Machine.execCsrWr i0 rd rs1 csr s
  | .csrSet i0 rd rs1 csr => Sys2Proof.Machine.execCsrSet i0 rd rs1 csr s
  | .csrClr i0 rd rs1 csr => Sys2Proof.Machine.execCsrClr i0 rd rs1 csr s
  | .syncI i0 rd rs1 rs2 => Sys2Proof.Machine.execSyncI i0 rd rs1 rs2 s
  | .sleep i0 rd rs1 rs2 => Sys2Proof.Machine.execSleep i0 rd rs1 rs2 s
  | .trap i0 rd rs1 rs2 => Sys2Proof.Machine.execTrap i0 rd rs1 rs2 s
  | .eret i0 rd rs1 rs2 => Sys2Proof.Machine.execEret i0 rd rs1 rs2 s
  | .halt i0 rd rs1 rs2 => Sys2Proof.Machine.execHalt i0 rd rs1 rs2 s
  | .ebrk i0 rd rs1 rs2 => Sys2Proof.Machine.execEbrk i0 rd rs1 rs2 s
  -- Interrupts, and writes of the core's CSRs by the die controller (R59 to R72)
  | .interruptTake b => Sys2Proof.Machine.execInterruptTake b s
  | .clockRestart p => Sys2Proof.Machine.execClockRestart p s
  | .coreTimerFire c => Sys2Proof.Machine.execCoreTimerFire c s
  | .coreSystimeFire c => Sys2Proof.Machine.execCoreSystimeFire c s
  | .coreCtlWrite c val => Sys2Proof.Machine.execCoreCtlWrite c val s
  | .coreFrameDepthWrite c val => Sys2Proof.Machine.execCoreFrameDepthWrite c val s
  | .coreFrameTopWrite c val => Sys2Proof.Machine.execCoreFrameTopWrite c val s
  | .coreIntSwsetWrite c val => Sys2Proof.Machine.execCoreIntSwsetWrite c val s
  | .coreIntPendClear c val => Sys2Proof.Machine.execCoreIntPendClear c val s
  | .coreTimerCmpWrite c val => Sys2Proof.Machine.execCoreTimerCmpWrite c val s
  | .coreSystimeCmpWrite c val => Sys2Proof.Machine.execCoreSystimeCmpWrite c val s
  | .coreCntIrqWrite c n val => Sys2Proof.Machine.execCoreCntIrqWrite c n val s
  -- Engines (R84, R89 to R126)
  | .engMark c eng => Sys2Proof.Machine.execEngMark c eng s
  | .engFrec c eng => Sys2Proof.Machine.execEngFrec c eng s
  | .engSeed c eng => Sys2Proof.Machine.execEngSeed c eng s
  | .kuduMma c => Sys2Proof.Machine.execKuduMma c s
  | .oryxAdd c => Sys2Proof.Machine.execOryxAdd c s
  | .oryxSub c => Sys2Proof.Machine.execOryxSub c s
  | .oryxMul c => Sys2Proof.Machine.execOryxMul c s
  | .oryxFma c => Sys2Proof.Machine.execOryxFma c s
  | .oryxMin c => Sys2Proof.Machine.execOryxMin c s
  | .oryxMax c => Sys2Proof.Machine.execOryxMax c s
  | .oryxAffine c => Sys2Proof.Machine.execOryxAffine c s
  | .oryxClamp c => Sys2Proof.Machine.execOryxClamp c s
  | .oryxAbs c => Sys2Proof.Machine.execOryxAbs c s
  | .oryxRsum c => Sys2Proof.Machine.execOryxRsum c s
  | .oryxRmax c => Sys2Proof.Machine.execOryxRmax c s
  | .oryxRmin c => Sys2Proof.Machine.execOryxRmin c s
  | .oryxRamax c => Sys2Proof.Machine.execOryxRamax c s
  | .oryxRdot c => Sys2Proof.Machine.execOryxRdot c s
  | .oryxRsumsq c => Sys2Proof.Machine.execOryxRsumsq c s
  | .gazelleEval c => Sys2Proof.Machine.execGazelleEval c s
  | .gazelleSoftmax c => Sys2Proof.Machine.execGazelleSoftmax c s
  | .gazelleRmsnorm c => Sys2Proof.Machine.execGazelleRmsnorm c s
  | .gazelleLnorm c => Sys2Proof.Machine.execGazelleLnorm c s
  | .gazelleTload c => Sys2Proof.Machine.execGazelleTload c s
  | .impalaGather c => Sys2Proof.Machine.execImpalaGather c s
  | .impalaScatter c => Sys2Proof.Machine.execImpalaScatter c s
  | .impalaScatadd c => Sys2Proof.Machine.execImpalaScatadd c s
  | .impalaRlist c => Sys2Proof.Machine.execImpalaRlist c s
  | .elandCvt c => Sys2Proof.Machine.execElandCvt c s
  | .elandXpose c => Sys2Proof.Machine.execElandXpose c s
  | .elandCopy c => Sys2Proof.Machine.execElandCopy c s
  | .elandFill c => Sys2Proof.Machine.execElandFill c s
  | .elandMxscale c => Sys2Proof.Machine.execElandMxscale c s
  | .saigaPack c => Sys2Proof.Machine.execSaigaPack c s
  | .saigaUnpack c => Sys2Proof.Machine.execSaigaUnpack c s
  -- springbok (R117 to R126)
  | .springbokGet c => Sys2Proof.Machine.execSpringbokGet c s
  | .springbokPut c => Sys2Proof.Machine.execSpringbokPut c s
  | .springbokCput c => Sys2Proof.Machine.execSpringbokCput c s
  | .springbokGather g => Sys2Proof.Machine.execSpringbokGather g s
  | .springbokAtom c => Sys2Proof.Machine.execSpringbokAtom c s
  | .springbokPload c => Sys2Proof.Machine.execSpringbokPload c s
  | .springbokColl c => Sys2Proof.Machine.execSpringbokColl c s
  | .springbokSndMsg c => Sys2Proof.Machine.execSpringbokSndMsg c s
  | .springbokRequestIssue c ecc => Sys2Proof.Machine.execSpringbokRequestIssue c ecc s
  | .waitTokenRelease c eng => Sys2Proof.Machine.execWaitTokenRelease c eng s
  | .commandComplete c e => Sys2Proof.Machine.execCommandComplete c e s
  | .engineFault c eng f => Sys2Proof.Machine.execEngineFault c eng f s
  | .engineRestartPoint c eng k => Sys2Proof.Machine.execEngineRestartPoint c eng k s
  | .mailboxTimeout c slot => Sys2Proof.Machine.execMailboxTimeout c slot s
  | .springbokGuardTimeout c slot => Sys2Proof.Machine.execSpringbokGuardTimeout c slot s
  -- Device memory (R221 to R233)
  | .memRd p ecc => Sys2Proof.Machine.execMemRd p ecc s
  | .memWr p ecc => Sys2Proof.Machine.execMemWr p ecc s
  | .memAtom p ecc => Sys2Proof.Machine.execMemAtom p ecc s
  | .hbmLaneRepaired st ch lane => Sys2Proof.Machine.execHbmLaneRepaired st ch lane s
  | .hbmRefresh st pc => Sys2Proof.Machine.execHbmRefresh st pc s
  -- Packets that arrive on a die's mesh (R163 to R193)
  | .memRdData p => Sys2Proof.Machine.execMemRdData p s
  | .memAck p => Sys2Proof.Machine.execMemAck p s
  | .cput p => Sys2Proof.Machine.execCput p s
  | .cputAck p => Sys2Proof.Machine.execCputAck p s
  | .msg p => Sys2Proof.Machine.execMsg p s
  | .msgAccept p => Sys2Proof.Machine.execMsgAccept p s
  | .msgRefuse p => Sys2Proof.Machine.execMsgRefuse p s
  | .status p => Sys2Proof.Machine.execStatus p s
  | .tailAck p => Sys2Proof.Machine.execTailAck p s
  | .psWr p => Sys2Proof.Machine.execPsWr p s
  | .csrRdRequest p => Sys2Proof.Machine.execCsrRdRequest p s
  | .csrWrRequest p => Sys2Proof.Machine.execCsrWrRequest p s
  | .mgtRsp p => Sys2Proof.Machine.execMgtRsp p s
  | .red r inp p => Sys2Proof.Machine.execRed r inp p s
  | .mcast r p => Sys2Proof.Machine.execMcast r p s
  -- Translation (R234 to R245)
  | .walkEntryRead c ecc hostStatus host => Sys2Proof.Machine.execWalkEntryRead c ecc hostStatus host s
  | .faultTimeout faultId => Sys2Proof.Machine.execFaultTimeout faultId s
  | .mmuFaultTimeoutWrite val => Sys2Proof.Machine.execMmuFaultTimeoutWrite val s
  | .mmuInvWrite val => Sys2Proof.Machine.execMmuInvWrite val s
  | .invalidationDone index => Sys2Proof.Machine.execInvalidationDone index s
  -- The Chomet base (R195 to R217): control words name their sender; measured counts are operands
  | .burstStart w readers pkts => Sys2Proof.Machine.execBurstStart w readers pkts s
  | .announce at_ from_ word => Sys2Proof.Machine.execAnnounce at_ from_ word s
  | .winReq at_ from_ word => Sys2Proof.Machine.execWinReq at_ from_ word s
  | .winGrant at_ from_ word => Sys2Proof.Machine.execWinGrant at_ from_ word s
  | .winRelease at_ from_ word => Sys2Proof.Machine.execWinRelease at_ from_ word s
  | .chometAck at_ from_ word => Sys2Proof.Machine.execChometAck at_ from_ word s
  | .chometNak at_ from_ word => Sys2Proof.Machine.execChometNak at_ from_ word s
  | .map at_ from_ word => Sys2Proof.Machine.execMap at_ from_ word s
  | .winReqRetry w r => Sys2Proof.Machine.execWinReqRetry w r s
  | .windowIdleRelease w r => Sys2Proof.Machine.execWindowIdleRelease w r s
  | .chometPacket r w seq crcOk p => Sys2Proof.Machine.execChometPacket r w seq crcOk p s
  | .chometResendTimeout w r seq => Sys2Proof.Machine.execChometResendTimeout w r seq s
  | .seamBridgeDown monitors => Sys2Proof.Machine.execSeamBridgeDown monitors s
  | .seamBridgeUp goodSince cleared => Sys2Proof.Machine.execSeamBridgeUp goodSince cleared s
  | .seamWireSpared dir corrections => Sys2Proof.Machine.execSeamWireSpared dir corrections s
  | .seamWireFailed dir goodWires => Sys2Proof.Machine.execSeamWireFailed dir goodWires s
  | .vliWireSpared d g wire corrections => Sys2Proof.Machine.execVliWireSpared d g wire corrections s
  | .vliGroupFailed d g crcErrors fifth => Sys2Proof.Machine.execVliGroupFailed d g crcErrors fifth s
  | .vliGroupRetired d g => Sys2Proof.Machine.execVliGroupRetired d g s
  -- Pre-emption and resume (R246 to R254)
  | .preempt d => Sys2Proof.Machine.execPreempt d s
  | .preemptDone d rd => Sys2Proof.Machine.execPreemptDone d rd s
  | .resume d rd => Sys2Proof.Machine.execResume d rd s
  | .resumeDone d rd => Sys2Proof.Machine.execResumeDone d rd s
  -- Port links and routing (R264 to R284); `good` are the wavelengths found good
  | .linkTrainingStart p good => Sys2Proof.Machine.execLinkTrainingStart p good s
  | .trainFlit p dev r => Sys2Proof.Machine.execTrainFlit p dev r s
  | .linkFlit p f check ack crIdx crCnt => Sys2Proof.Machine.execLinkFlit p f check ack crIdx crCnt s
  | .flitNak p seq => Sys2Proof.Machine.execFlitNak p seq s
  | .replayTimeout p => Sys2Proof.Machine.execReplayTimeout p s
  | .replayStall p => Sys2Proof.Machine.execReplayStall p s
  | .retrainTimeout p => Sys2Proof.Machine.execRetrainTimeout p s
  | .retrainComplete p good expect => Sys2Proof.Machine.execRetrainComplete p good expect s
  | .lossOfLight p since => Sys2Proof.Machine.execLossOfLight p since s
  | .routePacket stop inject => Sys2Proof.Machine.execRoutePacket stop inject s
  | .relayForward => Sys2Proof.Machine.execRelayForward s
  | .fence p => Sys2Proof.Machine.execFence p s
  | .unfence p => Sys2Proof.Machine.execUnfence p s
  | .portCmdRetrain p => Sys2Proof.Machine.execPortCmdRetrain p s
  | .portCmdDisable p => Sys2Proof.Machine.execPortCmdDisable p s
  | .portCmdEnable p => Sys2Proof.Machine.execPortCmdEnable p s
  -- Congestion maps and time (R293 to R298)
  | .cmapSample stop => Sys2Proof.Machine.execCmapSample stop s
  | .cmapWindowEnd => Sys2Proof.Machine.execCmapWindowEnd s
  | .cmap p => Sys2Proof.Machine.execCmap p s
  | .timeExchangeStart p => Sys2Proof.Machine.execTimeExchangeStart p s
  | .time port p => Sys2Proof.Machine.execTime port p s
  | .alignmentTimeout => Sys2Proof.Machine.execAlignmentTimeout s
  -- Collective contexts (R285 to R292)
  | .ctxReady p => Sys2Proof.Machine.execCtxReady p s
  | .ctxAbort p => Sys2Proof.Machine.execCtxAbort p s
  | .collectiveChunk ctx p last freedDown freedUp => Sys2Proof.Machine.execCollectiveChunk ctx p last freedDown freedUp s
  | .colCtxCmdAbort ctx => Sys2Proof.Machine.execColCtxCmdAbort ctx s
  | .colCtxCmdRearm ctx => Sys2Proof.Machine.execColCtxCmdRearm ctx s
  -- The transport (R313 to R325)
  | .transportReply p => Sys2Proof.Machine.execTransportReply p s
  | .replayTableLookup p => Sys2Proof.Machine.execReplayTableLookup p s
  | .replayTableStore p => Sys2Proof.Machine.execReplayTableStore p s
  | .xack p => Sys2Proof.Machine.execXack p s
  | .transportTimeout c slot => Sys2Proof.Machine.execTransportTimeout c slot s
  | .retryLaterResend c slot => Sys2Proof.Machine.execRetryLaterResend c slot s
  | .xackTimer d dev => Sys2Proof.Machine.execXackTimer d dev s
  | .replayEntryExpire stop index => Sys2Proof.Machine.execReplayEntryExpire stop index s
  -- The Nogar link and the host's messages (R328 to R337, R579)
  | .nogarCodeword seq chk nak ack crReq crRsp crSnp => Sys2Proof.Machine.execNogarCodeword seq chk nak ack crReq crRsp crSnp s
  | .nogarReplayTimeout => Sys2Proof.Machine.execNogarReplayTimeout s
  | .nogarRetrainDone lanes => Sys2Proof.Machine.execNogarRetrainDone lanes s
  | .hostRequestHoldTimeout tag => Sys2Proof.Machine.execHostRequestHoldTimeout tag s
  | .snpInv tag line => Sys2Proof.Machine.execSnpInv tag line s
  | .crRd tag off len => Sys2Proof.Machine.execCrRd tag off len s
  | .crWr off len val => Sys2Proof.Machine.execCrWr off len val s
  | .dmRd tag addr len ecc => Sys2Proof.Machine.execDmRd tag addr len ecc s
  | .dmWr addr data ecc => Sys2Proof.Machine.execDmWr addr data ecc s
  | .nogarData tag status line => Sys2Proof.Machine.execNogarData tag status line s
  | .nogarCmp tag status => Sys2Proof.Machine.execNogarCmp tag status s
  -- Doorbells, rings and submission entries (R339 to R347); host data that a command reads is an operand
  | .doorbellRereadRetry line => Sys2Proof.Machine.execDoorbellRereadRetry line s
  | .hifDblWrite line val => Sys2Proof.Machine.execHifDblWrite line val s
  | .hifSqCfgWrite sq val => Sys2Proof.Machine.execHifSqCfgWrite sq val s
  | .sqFetch => Sys2Proof.Machine.execSqFetch s
  | .launch d tabs ecc => Sys2Proof.Machine.execLaunch d tabs ecc s
  | .copy sq data bad ecc decc => Sys2Proof.Machine.execCopy sq data bad ecc decc s
  | .faultReply sq => Sys2Proof.Machine.execFaultReply sq s
  | .invalidate sq => Sys2Proof.Machine.execInvalidate sq s
  | .jobKill d => Sys2Proof.Machine.execJobKill d s
  | .nop sq => Sys2Proof.Machine.execNop sq s
  -- Completions, events and interrupt messages (R348 to R355)
  | .completionEntryWrite => Sys2Proof.Machine.execCompletionEntryWrite s
  | .vectorTimerExpire vec => Sys2Proof.Machine.execVectorTimerExpire vec s
  | .hirqVecCtlWrite vec val => Sys2Proof.Machine.execHirqVecCtlWrite vec val s
  | .eventEntryWrite => Sys2Proof.Machine.execEventEntryWrite s
  -- Configuration swaps (R356 to R362)
  | .cfgSwapNow => Sys2Proof.Machine.execCfgSwapNow s
  | .cfgSwapAtTime atTime => Sys2Proof.Machine.execCfgSwapAtTime atTime s
  | .cfgSwapCancel => Sys2Proof.Machine.execCfgSwapCancel s
  | .swapTimeReached => Sys2Proof.Machine.execSwapTimeReached s
  | .swapTransitionEnd => Sys2Proof.Machine.execSwapTransitionEnd s
  | .cfgCopy copy => Sys2Proof.Machine.execCfgCopy copy s
  | .cfgCopyDone => Sys2Proof.Machine.execCfgCopyDone s
  | .rwsRegisterWrite off size half val => Sys2Proof.Machine.execRwsRegisterWrite off size half val s
  -- The Bolmin link and its streams (R366 to R384)
  | .bolCtlWrite val => Sys2Proof.Machine.execBolCtlWrite val s
  | .bclkLoss => Sys2Proof.Machine.execBclkLoss s
  | .bclkGood since => Sys2Proof.Machine.execBclkGood since s
  | .bolTrainFrame crcOk version streams credits id lanes => Sys2Proof.Machine.execBolTrainFrame crcOk version streams credits id lanes s
  | .bolFrame seq check fill nak ack lcr => Sys2Proof.Machine.execBolFrame seq check fill nak ack lcr s
  | .bolReplayTimeout => Sys2Proof.Machine.execBolReplayTimeout s
  | .bolRetrainDone lanes => Sys2Proof.Machine.execBolRetrainDone lanes s
  | .bolCmdRetrain => Sys2Proof.Machine.execBolCmdRetrain s
  | .bolLossOfSignal => Sys2Proof.Machine.execBolLossOfSignal s
  | .sdata stream sor eor rst err utag data => Sys2Proof.Machine.execSdata stream sor eor rst err utag data s
  | .scredit stream credit => Sys2Proof.Machine.execScredit stream credit s
  | .sclose stream => Sys2Proof.Machine.execSclose stream s
  | .ingressRecordCommit stream => Sys2Proof.Machine.execIngressRecordCommit stream s
  | .ingressPoll stream st w1 ecc => Sys2Proof.Machine.execIngressPoll stream st w1 ecc s
  | .egressPoll stream st w0 ecc => Sys2Proof.Machine.execEgressPoll stream st w0 ecc s
  | .egressRecordSend stream host bad ecc => Sys2Proof.Machine.execEgressRecordSend stream host bad ecc s
  | .bolStreamCfgWrite stream val ws => Sys2Proof.Machine.execBolStreamCfgWrite stream val ws s
  -- Optics (R386 to R411); addresses are those of R391
  | .lockLost addr err => Sys2Proof.Machine.execLockLost addr err s
  | .ringRelock addr setPoint => Sys2Proof.Machine.execRingRelock addr setPoint s
  | .waveguideReturn stop wg => Sys2Proof.Machine.execWaveguideReturn stop wg s
  | .alignmentBlockMgmt p word => Sys2Proof.Machine.execAlignmentBlockMgmt p word s
  | .recalWindow chan => Sys2Proof.Machine.execRecalWindow chan s
  | .channelRecalDone chan m r => Sys2Proof.Machine.execChannelRecalDone chan m r s
  | .laserStandbyStart n cause => Sys2Proof.Machine.execLaserStandbyStart n cause s
  | .crossfadeStart n => Sys2Proof.Machine.execCrossfadeStart n s
  | .laserSwitched n => Sys2Proof.Machine.execLaserSwitched n s
  | .laserFailed n => Sys2Proof.Machine.execLaserFailed n s
  | .optRingValWrite val m r => Sys2Proof.Machine.execOptRingValWrite val m r s
  | .optChTapsWrite val eyeA eyeB => Sys2Proof.Machine.execOptChTapsWrite val eyeA eyeB s
  | .optEyeCtlWrite val => Sys2Proof.Machine.execOptEyeCtlWrite val s
  | .eyeScanDone eye width height => Sys2Proof.Machine.execEyeScanDone eye width height s
  | .optSrcCmdSwitch n => Sys2Proof.Machine.execOptSrcCmdSwitch n s
  | .calSave => Sys2Proof.Machine.execCalSave s
  | .calRestore st image sweeps => Sys2Proof.Machine.execCalRestore st image sweeps s
  | .recal res => Sys2Proof.Machine.execRecal res s
  | .srcSwitch => Sys2Proof.Machine.execSrcSwitch s
  | .qualityFiguresUpdate l => Sys2Proof.Machine.execQualityFiguresUpdate l s
  -- Interrupt controllers of the die controllers and stag cores (R413 to R424)
  | .lostEventReport d => Sys2Proof.Machine.execLostEventReport d s
  | .firmwareTimerCompare p systime => Sys2Proof.Machine.execFirmwareTimerCompare p systime s
  -- The stags (R428 to R445): 0 stag A, 1 stag B
  | .stagWatchdogPrewarn u => Sys2Proof.Machine.execStagWatchdogPrewarn u s
  | .stagWatchdogReset u => Sys2Proof.Machine.execStagWatchdogReset u s
  | .selftestEnd u ok => Sys2Proof.Machine.execSelftestEnd u ok s
  | .stagAStartTimeout => Sys2Proof.Machine.execStagAStartTimeout s
  | .mirrorRecord o ok => Sys2Proof.Machine.execMirrorRecord o ok s
  | .mirrorAck => Sys2Proof.Machine.execMirrorAck s
  | .stagInSync u => Sys2Proof.Machine.execStagInSync u s
  | .recoveryEnd u => Sys2Proof.Machine.execRecoveryEnd u s
  | .stagReturn => Sys2Proof.Machine.execStagReturn s
  | .mgtStagCmdHandover => Sys2Proof.Machine.execMgtStagCmdHandover s
  | .mgtStagCmdResetStandby => Sys2Proof.Machine.execMgtStagCmdResetStandby s
  | .overlapHeartbeat u claim => Sys2Proof.Machine.execOverlapHeartbeat u claim s
  | .heartbeatSend u => Sys2Proof.Machine.execHeartbeatSend u s
  | .heartbeatTimeout u => Sys2Proof.Machine.execHeartbeatTimeout u s
  -- Resets and fences (R448 to R459); `su` is what the start-up finds
  | .coldReset su => Sys2Proof.Machine.execColdReset su s
  | .rstCmdWarm => Sys2Proof.Machine.execRstCmdWarm s
  | .rstCmdCold => Sys2Proof.Machine.execRstCmdCold s
  | .warmResetEnd => Sys2Proof.Machine.execWarmResetEnd s
  | .dieReset d cause => Sys2Proof.Machine.execDieReset d cause s
  | .rstDieCmdHold d => Sys2Proof.Machine.execRstDieCmdHold d s
  | .rstDieCmdRelease d => Sys2Proof.Machine.execRstDieCmdRelease d s
  | .dieStartUpDone d cores t => Sys2Proof.Machine.execDieStartUpDone d cores t s
  | .refclkLoss => Sys2Proof.Machine.execRefclkLoss s
  | .refclkRestored goodFor => Sys2Proof.Machine.execRefclkRestored goodFor s
  | .islandFence c router cause => Sys2Proof.Machine.execIslandFence c router cause s
  -- Sensors, throttling and shutdown (R460 to R472); temperatures in 0.125 °C
  | .sensorSample i0 t => Sys2Proof.Machine.execSensorSample i0 t s
  | .sensorSelfCheck i0 diff frozen => Sys2Proof.Machine.execSensorSelfCheck i0 diff frozen s
  | .sensorRecover i0 => Sys2Proof.Machine.execSensorRecover i0 s
  | .hbmEstimateUpdate n used slots => Sys2Proof.Machine.execHbmEstimateUpdate n used slots s
  | .throttleLoop d => Sys2Proof.Machine.execThrottleLoop d s
  | .hbmThrottleLoop n => Sys2Proof.Machine.execHbmThrottleLoop n s
  | .thmEstCoefWrite n val => Sys2Proof.Machine.execThmEstCoefWrite n val s
  | .tripRestartWindowEnd => Sys2Proof.Machine.execTripRestartWindowEnd s
  | .thermtripNLevelChange level => Sys2Proof.Machine.execThermtripNLevelChange level s
  -- Firmware, package flash and identity (R484 to R508); `st` says how a read of host memory ended: 0 good, 1 error, 2 poisoned
  | .fwStage st image list => Sys2Proof.Machine.execFwStage st image list s
  | .fwActivate => Sys2Proof.Machine.execFwActivate s
  | .fwCancel => Sys2Proof.Machine.execFwCancel s
  | .fwHostOk => Sys2Proof.Machine.execFwHostOk s
  | .fwFallback => Sys2Proof.Machine.execFwFallback s
  | .defaultsWrite st data => Sys2Proof.Machine.execDefaultsWrite st data s
  | .defaultsRead => Sys2Proof.Machine.execDefaultsRead s
  | .ownerEnrol st data => Sys2Proof.Machine.execOwnerEnrol st data s
  | .ownerPolicy st data => Sys2Proof.Machine.execOwnerPolicy st data s
  | .ownerExt st data => Sys2Proof.Machine.execOwnerExt st data s
  | .quote st data => Sys2Proof.Machine.execQuote st data s
  | .certRead => Sys2Proof.Machine.execCertRead s
  | .chainTransferBlock x => Sys2Proof.Machine.execChainTransferBlock x s
  | .chainAckTimeout => Sys2Proof.Machine.execChainAckTimeout s
  | .chainInFrame h block data crcOk => Sys2Proof.Machine.execChainInFrame h block data crcOk s
  | .chainInPassEnd second => Sys2Proof.Machine.execChainInPassEnd second s
  | .stagingDone ok => Sys2Proof.Machine.execStagingDone ok s
  | .dieControllerReload d => Sys2Proof.Machine.execDieControllerReload d s
  | .healthConfirm => Sys2Proof.Machine.execHealthConfirm s
  | .healthWindowEnd => Sys2Proof.Machine.execHealthWindowEnd s
  -- Lifetime records (R512 to R524) and package flash (R529)
  | .hourWindowClose => Sys2Proof.Machine.execHourWindowClose s
  | .dayWindowClose => Sys2Proof.Machine.execDayWindowClose s
  | .ledgerRead => Sys2Proof.Machine.execLedgerRead s
  | .ledgerSnapshot => Sys2Proof.Machine.execLedgerSnapshot s
  | .ledgerSecond margins => Sys2Proof.Machine.execLedgerSecond margins s
  | .flashOpComplete slot ok => Sys2Proof.Machine.execFlashOpComplete slot ok s
  -- Debug memory (R530, R531)
  | .dbgTraceCtlWrite val => Sys2Proof.Machine.execDbgTraceCtlWrite val s
  | .dbgHistCtlWrite val => Sys2Proof.Machine.execDbgHistCtlWrite val s
  | .traceTrigger => Sys2Proof.Machine.execTraceTrigger s
  | .traceStop => Sys2Proof.Machine.execTraceStop s
  -- Power and reset pins, SYNC, rails and ALERT_N (R541 to R553)
  | .vioInRange straps => Sys2Proof.Machine.execVioInRange straps s
  | .vioRemoved => Sys2Proof.Machine.execVioRemoved s
  | .pwrgoodRise straps => Sys2Proof.Machine.execPwrgoodRise straps s
  | .pwrgoodFall => Sys2Proof.Machine.execPwrgoodFall s
  | .resetNAssert => Sys2Proof.Machine.execResetNAssert s
  | .syncInPulse edge => Sys2Proof.Machine.execSyncInPulse edge s
  | .syncOutGenerate => Sys2Proof.Machine.execSyncOutGenerate s
  | .railMonitorSample bad => Sys2Proof.Machine.execRailMonitorSample bad s
  | .alertResponse => Sys2Proof.Machine.execAlertResponse s
  | .mgtAlertPendWrite val => Sys2Proof.Machine.execMgtAlertPendWrite val s
  -- MCTP messages over SMBus (R506, R522, R551, R552)
  | .setEndpointId op eid => Sys2Proof.Machine.execSetEndpointId op eid s
  | .getEndpointId => Sys2Proof.Machine.execGetEndpointId s
  | .getMctpVersionSupport type => Sys2Proof.Machine.execGetMctpVersionSupport type s
  | .getMessageTypeSupport => Sys2Proof.Machine.execGetMessageTypeSupport s
  | .getVendorDefinedMsgSupport sel => Sys2Proof.Machine.execGetVendorDefinedMsgSupport sel s
  | .mctpQuote req => Sys2Proof.Machine.execMctpQuote req s
  | .mctpCertificate off len => Sys2Proof.Machine.execMctpCertificate off len s
  | .mctpMeasurement idx => Sys2Proof.Machine.execMctpMeasurement idx s
  | .mctpLedgerRecord kind seq off len => Sys2Proof.Machine.execMctpLedgerRecord kind seq off len s
  | .mctpLedgerItem window item => Sys2Proof.Machine.execMctpLedgerItem window item s
  | .tripRead => Sys2Proof.Machine.execTripRead s
  | .aonMaskWrite entry valid idx => Sys2Proof.Machine.execAonMaskWrite entry valid idx s
  | .recoveryData off data => Sys2Proof.Machine.execRecoveryData off data s
  | .recoveryCommit total => Sys2Proof.Machine.execRecoveryCommit total s
  | .mctpStatus => Sys2Proof.Machine.execMctpStatus s
  | .holderClaim stag => Sys2Proof.Machine.execHolderClaim stag s
  -- The JTAG port (R554)
  | .bypass => Sys2Proof.Machine.execBypass s
  | .idcode => Sys2Proof.Machine.execIdcode s
  | .samplePreload pins preload => Sys2Proof.Machine.execSamplePreload pins preload s
  | .extest => Sys2Proof.Machine.execExtest s
  | .clamp => Sys2Proof.Machine.execClamp s
  | .highz => Sys2Proof.Machine.execHighz s
  -- Registers of the configuration window (R6, R7, R564)
  | .clkTimeSetWrite val => Sys2Proof.Machine.execClkTimeSetWrite val s
  | .clkSystimeLowRead => Sys2Proof.Machine.execClkSystimeLowRead s
  | .registerWrite off size half val => Sys2Proof.Machine.execRegisterWrite off size half val s

end Sys2Proof.Machine
end

