-- ==== Sys2Proof/Machine/Tick.lean ====
section
/-!
DEFINITION. What a tick of the reference clock does (R26, R295, R297; log entry 1): time passes, throttled islands
suppress cycles, the cores do what no command names, the meshes move flits, and the seam link sends.
-/

namespace Sys2Proof.Machine

/-- Nanoseconds of SYSTIME in one REFCLK cycle, and core cycles in it (R26, R295). -/
def tickNs : Nat := 10
def tickCycles : Nat := 18

/-- A correction that is being taken up moves SYSTIME by 1 ns in every 5,000 ns (R297). -/
def slewStep (t : TimeState) : Int :=
  if t.slew = 0 ∨ (t.systime + tickNs) / 5000 = t.systime / 5000 then 0 else if 0 < t.slew then 1 else -1

/-- One REFCLK cycle. -/
def TimeState.tick (t : TimeState) : TimeState :=
  { t with systime := ((t.systime : Int) + tickNs + slewStep t).toNat % 2 ^ 64, coreClk := t.coreClk + tickCycles,
           slew := t.slew - slewStep t }

/-! Throttled islands (R465, R466). -/

/-- P_eff of a core's island (R466). -/
def State.pEff (s : State) (k : Nat) : Nat :=
  let w := s.reg (R.thmThrottle (k / 288))
  max (fld w 0 6) (max (fld w 16 6) (SMap.get (fun _ => 0) s.therm.pstag k))

/-- Does the hardware loop or the floor throttle a whole die? -/
def State.dieThrottled (s : State) (d : Nat) : Bool :=
  let w := s.reg (R.thmThrottle d)
  decide (0 < fld w 0 6) || decide (0 < fld w 16 6)

/-- The cores whose islands may be throttled. -/
def State.throttled (s : State) : List Nat :=
  (rangeFrom 0 8).flatMap (fun d => if s.dieThrottled d then rangeFrom (288 * d) 288 else []) ++
    (s.therm.pstag.map (·.1)).filter fun k => !s.dieThrottled (k / 288)

/-- The suppressed cycles, in 64ths, after one REFCLK cycle (R465). -/
def State.suppress (s : State) : SMap Nat :=
  s.throttled.foldl (fun m k =>
    SMap.set (fun _ => 0) m k (SMap.get (fun _ => 0) m k + tickCycles * s.pEff k)) s.time.suppressed

/-! What a core does at a tick. -/

/-- A word at the pc that no instruction has: a reserved opcode or fn raises the illegal-instruction exception as
the word issues (R36, R67). No row of the table names such a word, so the tick issues it (log entry 22). -/
def Core.fetchReserved (c : Core) : Core :=
  let w := Mem.nat c.pstore c.ctl.pc.toNat 4
  match decodeWord ⟨0, 0, 0⟩ w with
  | some _ => c
  | none => c.issue (issueOf ⟨0, 0, 0⟩ w) w false id

/-- A tick ends cycles E0 to E2 of an exit: a source that became eligible in them abandons it (R72). It stops the clock
of a core that sleeps once its engines have drained, unless a source is to be taken (R63). And it issues a word that
no instruction has. -/
def Core.tick (env : CoreEnv) (c : Core) : Core :=
  match c.ctl.turn with
  | .exit .. =>
    if (c.ctl.eligible c.cond).isSome then c.takeInterrupt else { c with ctl := { c.ctl with turn := .none } }
  | _ =>
    if c.rs = .sleeping then
      (if c.enginesIdle && !c.ctl.clkStopped && (c.ctl.eligible c.cond).isNone then c.stopClock env else c)
    else c.fetchReserved

/-! Port links and collectives. -/

/-- The flits that the output holds beyond what the codewords of a port carry, as bytes. -/
def flitsFor (p : Nat) (l : List Out) : List (List Byte) := l.filterMap fun o => match outFlit o with
  | some (q, b) => if q = p then some b else none | none => none

/-- Eight flits leave in a codeword over the wavelengths in use, IDLE flits in the places that none takes; an alignment
block follows every 1,024 codewords (R264). -/
def State.sendCodeword (s : State) (p : Nat) (fs : List (List Byte)) : State :=
  let x := SMap.get (fun _ => { scr := 0, words := 0 }) s.fab.pcs p
  let idle := ((outFlit (.idle p (s.link p).ackOut 15 0)).map (·.2)).getD []
  let (syms, scr) := codeword x.scr ((fs ++ List.replicate (8 - fs.length) idle).flatten)
  let x := { scr := scr, words := (x.words + 1) % 1024 }
  let s : State := { s with fab := { s.fab with pcs := SMap.set (fun _ => { scr := 0, words := 0 }) s.fab.pcs p x } }
  let s := s.emit (.codeword p (onLanes (if s.rfld (R.portLaneStatus p) 4 2 = 1 then 8 else 16) syms))
  if x.words = 0 then s.emit (.align p (s.laneGen p * 2 ^ 62 + s.marginWord p)) else s

/-- The codewords of a port for the flits sent since the last tick. -/
def State.portCodewords (s : State) (l : List Out) (p : Nat) : State :=
  let fs := flitsFor p l
  (rangeFrom 0 ((fs.length + 7) / 8)).foldl (fun s i => s.sendCodeword p ((fs.drop (8 * i)).take 8)) s

/-- What was sent on the ports leaves in codewords; contexts go on with what waits; TIME requests that wait are answered. -/
def State.fabTick (s : State) : State :=
  let new := s.out.drop s.fab.seen
  let s := if new.any fun o => (outFlit o).isSome then (rangeFrom 0 12).foldl (fun s p => s.portCodewords new p) s else s
  let s : State := { s with fab := { s.fab with seen := s.out.length } }
  let s := s.fab.ctxs.foldl (fun s x => s.collPump x.1) s
  s.fab.links.foldl (fun s x => s.answerTime x.1) s

/-- A frame of the Bolmin link leaves in four codewords over its lanes; an alignment block follows every 16,384
codewords (R367). -/
def State.sendBol (s : State) (d : List Byte) : State :=
  (rangeFrom 0 4).foldl (fun s i =>
    let (syms, scr) := codeword s.bol.scr ((d.drop (640 * i)).take 640)
    let w := (s.bol.words + 1) % 16384
    let s : State := { s with bol := { s.bol with scr := scr, words := w } }
    let s := s.emit (.bolWord (onLanes (if s.rfld R.bolLinkStatus 4 2 = 1 then 16 else 32) syms))
    if w = 0 then s.emit .bolAlign else s) s

/-- What was sent on the Bolmin link leaves in codewords. -/
def State.bolTick (s : State) : State :=
  let s := ((s.out.drop s.bol.seen).filterMap outBol).foldl State.sendBol s
  { s with bol := { s.bol with seen := s.out.length } }

/-- The wait for CAL_RESTORE ends: the search runs (R392). -/
def State.searchTick (s : State) : State :=
  match s.opt.search with
  | some (t, rings) => if t ≤ s.now then s.endSearch rings false else s
  | none => s

/-- Does time pass: is the device out of cold reset with REFCLK good (R453)? -/
def State.clocked (s : State) : Bool := s.therm.cold.isNone && bit (s.reg R.clkRefStatus) 0

/-- A tick. -/
def State.tick (s : State) : State :=
  if s.clocked then
    let s := (rangeFrom 0 4).foldl (fun s u => s.stagLosses u) s.searchTick.reloadTick
    let s' := { s with time := { s.time.tick with suppressed := s.suppress } }
    let s' := s.cores.foldl (fun t x => t.onKey x.1 Core.tick) s'
    ((s'.meshSync.meshRun meshCycles).redTick).seamRun.fabTick.bolTick.hifTick
  else s

end Sys2Proof.Machine
end

