-- ==== Sys2Proof/WellFormed.lean ====
section
/-!
DEFINITION. Which commands are well formed: operands that the spec gives a width or a bound, where their type
admits more. `exec` gives every command a meaning, well formed or not; statements that need a bound name this check.
-/

namespace Sys2Proof

/-- The header fields of R176, R201 and R314 fit their widths; the data fits four data flits. -/
def Pkt.wf (p : Pkt) : Bool :=
  decide (p.type < 32) && decide (p.srcDev < 512) && decide (p.srcDie < 8) && decide (p.srcRow < 16) && decide (p.srcCol < 18)
    && decide (p.dstDev < 512) && decide (p.dstDie < 8) && decide (p.dstRow < 16) && decide (p.dstCol < 18)
    && decide (p.tag < 256) && decide (p.job < 64) && decide (p.mc < 4) && decide (p.mcLast < 32) && decide (p.red < 8)
    && decide (p.ctx < 64) && decide (p.aux < 256) && decide (p.chunk < 128) && decide (p.addr < 2 ^ 48)
    && decide (p.data.length ≤ 256) && decide (p.t0 < 2 ^ 32) && p.poison.all fun i => decide (i < 4)

/-- A flit's type is one of a sequenced flit, its fields fit, and its packet stands in its head flit (R265). -/
def Flit.wf (f : Flit) : Bool :=
  decide (1 ≤ f.ftype) && decide (f.ftype ≤ 4) && decide (f.vn < 4) && decide (f.vc < 4) && decide (f.dst < 512) && decide (f.src < 512)
    && decide (f.seq < 4096) && decide (f.data.length = 64) &&
    match f.pkt with
    | some p => f.head && p.wf
    | none => !f.head

/-- A codeword has eight flits (R264). -/
def FlitCheck.wf : FlitCheck → Bool
  | .codeword n => decide (n < 8)
  | _ => true

/-- The offset of a register of the configuration window (R2, R561). -/
def windowOff (off : Nat) : Bool := decide (off < 2 ^ 24) && decide (off % 8 = 0)

/-- A temperature in 0.125 °C, signed, in 12 bits (R478). -/
def tempOk (t : Int) : Bool := decide (-2048 ≤ t) && decide (t < 2048)

/-- Groups, wires, lanes and rings that exist (R164, R167, R214, R221, R391). -/
def StartUp.wf (u : StartUp) : Bool :=
  u.groups.all (fun g => decide (g.1 < 320) && g.2.all fun w => decide (w.1 < 132) && decide (w.2 < 100))
    && u.lanes.all (fun l => decide (l.1 < 12) && decide (l.2.1 < 32) && decide (l.2.2 < 256))
    && u.rings.all fun r => decide (r < 2 ^ 32)

/-- Is a command well formed? -/
def Instr.wf (i : Instr) : Bool :=
  match i with
  | .add .. => true
  | .sub .. => true
  | .and .. => true
  | .or .. => true
  | .xor .. => true
  | .shl .. => true
  | .shr .. => true
  | .sra .. => true
  | .mul .. => true
  | .mulhu .. => true
  | .mulh .. => true
  | .min .. => true
  | .max .. => true
  | .minu .. => true
  | .maxu .. => true
  | .clz .. => true
  | .popc .. => true
  | .divu .. => true
  | .remu .. => true
  | .addi .. => true
  | .andi .. => true
  | .ori .. => true
  | .xori .. => true
  | .shli .. => true
  | .shri .. => true
  | .srai .. => true
  | .ldh .. => true
  | .cmp .. => true
  | .cmpi .. => true
  | .plog .. => true
  | .pmovRead .. => true
  | .pmovWrite .. => true
  | .ldB .. => true
  | .ldH .. => true
  | .ldW .. => true
  | .ldD .. => true
  | .ldBu .. => true
  | .ldHu .. => true
  | .ldWu .. => true
  | .stB .. => true
  | .stH .. => true
  | .stW .. => true
  | .stD .. => true
  | .br .. => true
  | .call .. => true
  | .jr .. => true
  | .callr .. => true
  | .dbnz .. => true
  | .iss .. => true
  | .issStallEnd .. => true
  | .qwait .. => true
  | .wait .. => true
  | .waitComplete .. => true
  | .cntRd .. => true
  | .cntWr .. => true
  | .cntAdd .. => true
  | .sndMsg .. => true
  | .rcvMsg .. => true
  | .rcvMsgStallEnd .. => true
  | .csrRd .. => true
  | .csrWr .. => true
  | .csrSet .. => true
  | .csrClr .. => true
  | .syncI .. => true
  | .sleep .. => true
  | .trap .. => true
  | .eret .. => true
  | .halt .. => true
  | .ebrk .. => true
  | .interruptTake .. => true
  | .clockRestart .. => true
  | .coreTimerFire .. => true
  | .coreSystimeFire .. => true
  | .coreCtlWrite .. => true
  | .coreFrameDepthWrite .. => true
  | .coreFrameTopWrite .. => true
  | .coreIntSwsetWrite .. => true
  | .coreIntPendClear .. => true
  | .coreTimerCmpWrite .. => true
  | .coreSystimeCmpWrite .. => true
  | .coreCntIrqWrite .. => true
  | .engMark .. => true
  | .engFrec .. => true
  | .engSeed .. => true
  | .kuduMma .. => true
  | .oryxAdd .. => true
  | .oryxSub .. => true
  | .oryxMul .. => true
  | .oryxFma .. => true
  | .oryxMin .. => true
  | .oryxMax .. => true
  | .oryxAffine .. => true
  | .oryxClamp .. => true
  | .oryxAbs .. => true
  | .oryxRsum .. => true
  | .oryxRmax .. => true
  | .oryxRmin .. => true
  | .oryxRamax .. => true
  | .oryxRdot .. => true
  | .oryxRsumsq .. => true
  | .gazelleEval .. => true
  | .gazelleSoftmax .. => true
  | .gazelleRmsnorm .. => true
  | .gazelleLnorm .. => true
  | .gazelleTload .. => true
  | .impalaGather .. => true
  | .impalaScatter .. => true
  | .impalaScatadd .. => true
  | .impalaRlist .. => true
  | .elandCvt .. => true
  | .elandXpose .. => true
  | .elandCopy .. => true
  | .elandFill .. => true
  | .elandMxscale .. => true
  | .saigaPack .. => true
  | .saigaUnpack .. => true
  | .springbokGet .. => true
  | .springbokPut .. => true
  | .springbokCput .. => true
  | .springbokGather .. => true
  | .springbokAtom .. => true
  | .springbokPload .. => true
  | .springbokColl .. => true
  | .springbokSndMsg .. => true
  | .springbokRequestIssue .. => true
  | .waitTokenRelease .. => true
  | .commandComplete .. => true
  | .engineFault .. => true
  | .engineRestartPoint .. => true
  | .mailboxTimeout .. => true
  | .springbokGuardTimeout .. => true
  | .memRd p _ => p.wf
  | .memWr p _ => p.wf
  | .memAtom p _ => p.wf
  | .hbmLaneRepaired _ _ lane => decide (lane < 256)
  | .hbmRefresh .. => true
  | .memRdData p => p.wf
  | .memAck p => p.wf
  | .cput p => p.wf
  | .cputAck p => p.wf
  | .msg p => p.wf
  | .msgAccept p => p.wf
  | .msgRefuse p => p.wf
  | .status p => p.wf
  | .tailAck p => p.wf
  | .psWr p => p.wf
  | .csrRdRequest p => p.wf
  | .csrWrRequest p => p.wf
  | .mgtRsp p => p.wf
  | .red _ _ p => p.wf
  | .mcast _ p => p.wf
  | .walkEntryRead _ _ hostStatus _ => decide (hostStatus < 3)
  | .faultTimeout faultId => decide (faultId < 2 ^ 32)
  | .mmuFaultTimeoutWrite .. => true
  | .mmuInvWrite .. => true
  | .invalidationDone index => decide (index < 16)
  | .burstStart _ _ pkts => pkts.all Pkt.wf
  | .announce .. => true
  | .winReq .. => true
  | .winGrant .. => true
  | .winRelease .. => true
  | .chometAck .. => true
  | .chometNak .. => true
  | .map .. => true
  | .winReqRetry .. => true
  | .windowIdleRelease .. => true
  | .chometPacket _ _ seq _ p => decide (seq < 2 ^ 16) && p.wf
  | .chometResendTimeout _ _ seq => decide (seq < 2 ^ 16)
  | .seamBridgeDown .. => true
  | .seamBridgeUp .. => true
  | .seamWireSpared .. => true
  | .seamWireFailed .. => true
  | .vliWireSpared .. => true
  | .vliGroupFailed .. => true
  | .vliGroupRetired .. => true
  | .preempt .. => true
  | .preemptDone .. => true
  | .resume .. => true
  | .resumeDone .. => true
  | .linkTrainingStart .. => true
  | .trainFlit _ dev r => decide (dev < 512) && decide (r.port < 12)
  | .linkFlit _ f check _ _ _ => f.wf && check.wf
  | .flitNak _ seq => decide (seq < 2 ^ 12)
  | .replayTimeout .. => true
  | .replayStall .. => true
  | .retrainTimeout .. => true
  | .retrainComplete _ _ expect => decide (expect < 2 ^ 12)
  | .lossOfLight .. => true
  | .routePacket _ inject => (match inject with | some p => p.wf | none => true)
  | .relayForward => true
  | .fence p => p.wf
  | .unfence p => p.wf
  | .portCmdRetrain .. => true
  | .portCmdDisable .. => true
  | .portCmdEnable .. => true
  | .cmapSample .. => true
  | .cmapWindowEnd => true
  | .cmap p => p.wf
  | .timeExchangeStart .. => true
  | .time _ p => p.wf
  | .alignmentTimeout => true
  | .ctxReady p => p.wf
  | .ctxAbort p => p.wf
  | .collectiveChunk _ p _ _ _ => p.wf
  | .colCtxCmdAbort .. => true
  | .colCtxCmdRearm .. => true
  | .transportReply p => p.wf
  | .replayTableLookup p => p.wf
  | .replayTableStore p => p.wf
  | .xack p => p.wf
  | .transportTimeout .. => true
  | .retryLaterResend .. => true
  | .xackTimer _ dev => decide (dev < 512)
  | .replayEntryExpire _ index => decide (index < 2048)
  | .nogarCodeword .. => true
  | .nogarReplayTimeout => true
  | .nogarRetrainDone lanes => decide (lanes ≤ 16)
  | .hostRequestHoldTimeout .. => true
  | .snpInv .. => true
  | .crRd .. => true
  | .crWr .. => true
  | .dmRd .. => true
  | .dmWr _ data _ => decide (0 < data.length) && decide (data.length ≤ 64)
  | .nogarData _ _ line => decide (line.length ≤ 64)
  | .nogarCmp .. => true
  | .doorbellRereadRetry .. => true
  | .hifDblWrite .. => true
  | .hifSqCfgWrite .. => true
  | .sqFetch => true
  | .launch .. => true
  | .copy .. => true
  | .faultReply .. => true
  | .invalidate .. => true
  | .jobKill .. => true
  | .nop .. => true
  | .completionEntryWrite => true
  | .vectorTimerExpire .. => true
  | .hirqVecCtlWrite .. => true
  | .eventEntryWrite => true
  | .cfgSwapNow => true
  | .cfgSwapAtTime .. => true
  | .cfgSwapCancel => true
  | .swapTimeReached => true
  | .swapTransitionEnd => true
  | .cfgCopy .. => true
  | .cfgCopyDone => true
  | .rwsRegisterWrite off _ _ _ => windowOff off
  | .bolCtlWrite .. => true
  | .bclkLoss => true
  | .bclkGood .. => true
  | .bolTrainFrame _ _ _ _ _ lanes => decide (lanes ≤ 32)
  | .bolFrame (check := check) .. => decide (check.fec ≤ 4)
  | .bolReplayTimeout => true
  | .bolRetrainDone lanes => decide (lanes ≤ 32)
  | .bolCmdRetrain => true
  | .bolLossOfSignal => true
  | .sdata _ _ _ _ _ _ data => decide (0 < data.length) && decide (data.length ≤ 4096)
  | .scredit .. => true
  | .sclose .. => true
  | .ingressRecordCommit .. => true
  | .ingressPoll _ st _ _ => decide (st < 3)
  | .egressPoll _ st _ _ => decide (st < 3)
  | .egressRecordSend .. => true
  | .bolStreamCfgWrite .. => true
  | .lockLost .. => true
  | .ringRelock .. => true
  | .waveguideReturn .. => true
  | .alignmentBlockMgmt .. => true
  | .recalWindow .. => true
  | .channelRecalDone .. => true
  | .laserStandbyStart .. => true
  | .crossfadeStart .. => true
  | .laserSwitched .. => true
  | .laserFailed .. => true
  | .optRingValWrite .. => true
  | .optChTapsWrite .. => true
  | .optEyeCtlWrite .. => true
  | .eyeScanDone .. => true
  | .optSrcCmdSwitch .. => true
  | .calSave => true
  | .calRestore .. => true
  | .recal .. => true
  | .srcSwitch => true
  | .qualityFiguresUpdate .. => true
  | .lostEventReport .. => true
  | .firmwareTimerCompare .. => true
  | .stagWatchdogPrewarn .. => true
  | .stagWatchdogReset .. => true
  | .selftestEnd .. => true
  | .stagAStartTimeout => true
  | .mirrorRecord .. => true
  | .mirrorAck => true
  | .stagInSync .. => true
  | .recoveryEnd .. => true
  | .stagReturn => true
  | .mgtStagCmdHandover => true
  | .mgtStagCmdResetStandby => true
  | .overlapHeartbeat .. => true
  | .heartbeatSend .. => true
  | .heartbeatTimeout .. => true
  | .coldReset su => su.wf
  | .rstCmdWarm => true
  | .rstCmdCold => true
  | .warmResetEnd => true
  | .dieReset .. => true
  | .rstDieCmdHold .. => true
  | .rstDieCmdRelease .. => true
  | .dieStartUpDone .. => true
  | .refclkLoss => true
  | .refclkRestored .. => true
  | .islandFence .. => true
  | .sensorSample _ t => tempOk t
  | .sensorSelfCheck .. => true
  | .sensorRecover .. => true
  | .hbmEstimateUpdate _ used slots => decide (used ≤ slots)
  | .throttleLoop .. => true
  | .hbmThrottleLoop .. => true
  | .thmEstCoefWrite .. => true
  | .tripRestartWindowEnd => true
  | .thermtripNLevelChange .. => true
  | .fwStage .. => true
  | .fwActivate => true
  | .fwCancel => true
  | .fwHostOk => true
  | .fwFallback => true
  | .defaultsWrite .. => true
  | .defaultsRead => true
  | .ownerEnrol .. => true
  | .ownerPolicy .. => true
  | .ownerExt .. => true
  | .quote .. => true
  | .certRead => true
  | .chainTransferBlock .. => true
  | .chainAckTimeout => true
  | .chainInFrame _ _ data _ => decide (data.length ≤ 4096)
  | .chainInPassEnd .. => true
  | .stagingDone .. => true
  | .dieControllerReload .. => true
  | .healthConfirm => true
  | .healthWindowEnd => true
  | .hourWindowClose => true
  | .dayWindowClose => true
  | .ledgerRead => true
  | .ledgerSnapshot => true
  | .ledgerSecond .. => true
  | .flashOpComplete .. => true
  | .dbgTraceCtlWrite .. => true
  | .dbgHistCtlWrite .. => true
  | .traceTrigger => true
  | .traceStop => true
  | .vioInRange straps => decide (straps < 512)
  | .vioRemoved => true
  | .pwrgoodRise straps => decide (straps < 512)
  | .pwrgoodFall => true
  | .resetNAssert => true
  | .syncInPulse edge => decide (edge < 2 ^ 64)
  | .syncOutGenerate => true
  | .railMonitorSample .. => true
  | .alertResponse => true
  | .mgtAlertPendWrite .. => true
  | .setEndpointId .. => true
  | .getEndpointId => true
  | .getMctpVersionSupport .. => true
  | .getMessageTypeSupport => true
  | .getVendorDefinedMsgSupport .. => true
  | .mctpQuote .. => true
  | .mctpCertificate .. => true
  | .mctpMeasurement .. => true
  | .mctpLedgerRecord .. => true
  | .mctpLedgerItem .. => true
  | .tripRead => true
  | .aonMaskWrite .. => true
  | .recoveryData .. => true
  | .recoveryCommit .. => true
  | .mctpStatus => true
  | .holderClaim .. => true
  | .bypass => true
  | .idcode => true
  | .samplePreload .. => true
  | .extest => true
  | .clamp => true
  | .highz => true
  | .clkTimeSetWrite .. => true
  | .clkSystimeLowRead => true
  | .registerWrite off _ _ _ => windowOff off

end Sys2Proof
end

