-- ==== Sys2Proof/Safety.lean ====
section
/-!
DEFINITION. The terms in which statements about the block are made: when a core executes an instruction, what a
step may change, and the results that families of commands share.
-/

namespace Sys2Proof

/-- The issue of an instruction of a core controller; none for every other command (R32, R37). -/
def Instr.issueOf : Instr → Option Issue
  | .add i .. | .sub i .. | .and i .. | .or i .. | .xor i .. | .shl i .. | .shr i .. | .sra i .. | .mul i .. => some i
  | .mulhu i .. | .mulh i .. | .min i .. | .max i .. | .minu i .. | .maxu i .. | .clz i .. | .popc i .. => some i
  | .divu i .. | .remu i .. | .addi i .. | .andi i .. | .ori i .. | .xori i .. | .shli i .. | .shri i .. => some i
  | .srai i .. | .ldh i .. | .cmp i .. | .cmpi i .. | .plog i .. | .pmovRead i .. | .pmovWrite i .. => some i
  | .ldB i .. | .ldH i .. | .ldW i .. | .ldD i .. | .ldBu i .. | .ldHu i .. | .ldWu i .. | .stB i .. => some i
  | .stH i .. | .stW i .. | .stD i .. | .br i .. | .call i .. | .jr i .. | .callr i .. | .dbnz i .. => some i
  | .iss i .. | .qwait i .. | .wait i .. | .cntRd i .. | .cntWr i .. | .cntAdd i .. | .sndMsg i .. => some i
  | .rcvMsg i .. | .csrRd i .. | .csrWr i .. | .csrSet i .. | .csrClr i .. | .syncI i .. | .sleep i .. => some i
  | .trap i .. | .eret i .. | .halt i .. | .ebrk i .. => some i
  | _ => none

end Sys2Proof

namespace Sys2Proof.Machine

/-! What a step may change. -/

/-- `t` is `s` but for the cores, and of these but for the one at key `k`. -/
def OnlyCore (s t : State) (k : Nat) : Prop :=
  t = { s with cores := t.cores } ∧ ∀ j, j ≠ k → t.coreAt j = s.coreAt j

/-- `t` is `s` but for the registers of the window, and of these but for those in a list. -/
def OnlyRegs (s t : State) (l : List Nat) : Prop :=
  t = { s with regs := t.regs } ∧ ∀ off, off ∉ l → t.reg off = s.reg off

/-- Nothing moves by itself: no core has been touched, nothing stands on a mesh or in a combining slot, nothing waits
for the seam link or a port, no credit is owed to the host, no wait runs, no stag core has lost an event, and what was sent is on its way. -/
def Still (s : State) : Prop :=
  s.cores = [] ∧ s.routers = [] ∧ s.mesh.wait = [] ∧ s.mesh.bufs = [] ∧ s.mesh.seen = s.out.length ∧ s.base.seam = [] ∧
    s.fab.ctxs = [] ∧ s.fab.links = [] ∧ s.fab.seen = s.out.length ∧ s.bol.seen = s.out.length ∧
    s.host.seen = s.out.length ∧ s.host.owed = [] ∧ s.opt.search = none ∧ s.fw.pausing = none ∧ s.stagCtl = []

/-! Interrupts (R69, R413). -/

/-- An interrupt controller once it has entered the vector of source `n`. -/
def IntCtl.entered (c : IntCtl) (n : Nat) : IntCtl :=
  { c with
    frames := c.frames ++ [{ source := n, kind := false, prev := c.run, preds := c.preds, pc := c.pc }]
    pend := c.pend &&& ~~~ srcBit n
    insvc := c.insvc ||| srcBit n
    run := c.lvl n
    pc := c.vbase + BitVec.ofNat 17 (4 * (1 + n))
    turn := .vector
    asleep := false
    clkStopped := false }

/-- An interrupt controller once source `n` has taken over the frame of an exit that is abandoned (R72): the frame
keeps its saved fields, and takes the source. -/
def IntCtl.chained (c : IntCtl) (n : Nat) (below : List Frame) (f : Frame) (preds : BitVec 7) : IntCtl :=
  { c with
    frames := below ++ [{ f with source := n, kind := false }]
    preds := preds
    pend := c.pend &&& ~~~ srcBit n
    insvc := c.insvc ||| srcBit n
    run := c.lvl n
    pc := c.vbase + BitVec.ofNat 17 (4 * (1 + n))
    turn := .vector }

/-! Instructions (R33, R36, R37). -/

/-- The core of an issue stands at its next instruction: it runs, no source is to be taken first, and the
instruction word carries no parity error (R33, R58, R65). -/
def Reaches (s : State) (i : Issue) : Prop :=
  (s.coreAt i.core.key).rs = .running ∧ (s.coreAt i.core.key).ctl.eligible (s.coreAt i.core.key).cond = none ∧
    i.parity = false

/-- The instruction executes: p[pr] XOR pn equals 1 (R33). -/
def Executes (s : State) (i : Issue) : Prop := Reaches s i ∧ (s.coreAt i.core.key).pr i.pr ≠ i.pn

/-- The controller's pc, predicates and frames as an instruction that only moves on leaves them. -/
def Core.movedOn (c : Core) : IntCtl := { c.ctl with pc := c.ctl.pc + 4, turn := .none }

/-- The result of an instruction is a value in rd: a write of g0 is discarded (R30), every other register, the
predicates, the counters, the scratch and the engines stay, and the pc moves on by 4. -/
def RegResult (s t : State) (k : Nat) (rd : Reg) (v : Word) : Prop :=
  OnlyCore s t k ∧ (t.coreAt k).rg rd = (if rd = 0 then 0 else v) ∧
    (∀ r, r ≠ rd → (t.coreAt k).rg r = (s.coreAt k).rg r) ∧
    t.coreAt k = { s.coreAt k with g := (t.coreAt k).g, ctl := (s.coreAt k).movedOn }

/-- The result of an instruction is a predicate: a write of p0 is discarded (R30). -/
def PredResult (s t : State) (k : Nat) (pd : PReg) (b : Bool) : Prop :=
  OnlyCore s t k ∧ (t.coreAt k).pr pd = (if pd = 0 then true else b) ∧
    (∀ p, p ≠ pd → (t.coreAt k).pr p = (s.coreAt k).pr p) ∧
    t.coreAt k = { s.coreAt k with ctl := { (s.coreAt k).movedOn with preds := (t.coreAt k).ctl.preds } }

/-- A synchronous exception is taken (R67, R69): with no exception frame on the stack, the cause registers are
written, a frame of kind 1 with the return address is pushed, and the core goes on at vector 0. -/
def TakesException (s t : State) (k cause : Nat) (value : Word) (ret : BitVec 17) : Prop :=
  (∀ f ∈ (s.coreAt k).ctl.frames, f.kind = false) →
    OnlyCore s t k ∧ (t.coreAt k).excCause = BitVec.ofNat 64 cause ∧
      (t.coreAt k).excPc = (s.coreAt k).ctl.pc.setWidth 64 ∧ (t.coreAt k).excValue = value ∧
      (t.coreAt k).ctl.frames = (s.coreAt k).ctl.frames ++
        [{ source := 0, kind := true, prev := (s.coreAt k).ctl.run, preds := (s.coreAt k).ctl.preds, pc := ret }] ∧
      (t.coreAt k).ctl.pc = (s.coreAt k).ctl.vbase ∧ (t.coreAt k).ctl.run = (s.coreAt k).ctl.run ∧
      (t.coreAt k).g = (s.coreAt k).g ∧ (t.coreAt k).scratch = (s.coreAt k).scratch

/-- The integer instructions with two source registers, and the value that each writes (R37). -/
def aluOps : List ((Issue → Reg → Reg → Reg → Instr) × (Word → Word → Word)) := [
  (.add, fun a b => a + b), (.sub, fun a b => a - b), (.and, fun a b => a &&& b), (.or, fun a b => a ||| b),
  (.xor, fun a b => a ^^^ b), (.shl, fun a b => a <<< (b.toNat % 64)), (.shr, fun a b => a >>> (b.toNat % 64)),
  (.sra, fun a b => a.sshiftRight (b.toNat % 64)), (.mul, fun a b => a * b),
  (.mulhu, fun a b => BitVec.ofNat 64 (a.toNat * b.toNat / 2 ^ 64)),
  (.mulh, fun a b => BitVec.ofInt 64 (a.toInt * b.toInt / 2 ^ 64)),
  (.min, fun a b => if a.toInt < b.toInt then a else b), (.max, fun a b => if a.toInt < b.toInt then b else a),
  (.minu, fun a b => if a.toNat < b.toNat then a else b), (.maxu, fun a b => if a.toNat < b.toNat then b else a),
  (.divu, fun a b => if b = 0 then BitVec.allOnes 64 else BitVec.ofNat 64 (a.toNat / b.toNat)),
  (.remu, fun a b => if b = 0 then a else BitVec.ofNat 64 (a.toNat % b.toNat))]

/-- The integer instructions with a sign-extended immediate (R37). -/
def immOps : List ((Issue → Reg → Reg → BitVec 12 → Instr) × (Word → Word → Word)) := [
  (.addi, fun a b => a + b), (.andi, fun a b => a &&& b), (.ori, fun a b => a ||| b), (.xori, fun a b => a ^^^ b)]

/-- The shifts by an immediate (R37). -/
def shiftOps : List ((Issue → Reg → Reg → BitVec 12 → Instr) × (Word → Nat → Word)) := [
  (.shli, fun a n => a <<< n), (.shri, fun a n => a >>> n), (.srai, fun a n => a.sshiftRight n)]

/-- The loads: size in bytes, and whether the value is sign-extended (R37). -/
def loadOps : List ((Issue → Reg → Reg → BitVec 12 → Ecc → Instr) × Nat × Bool) := [
  (.ldB, 1, true), (.ldH, 2, true), (.ldW, 4, true), (.ldD, 8, true), (.ldBu, 1, false), (.ldHu, 2, false),
  (.ldWu, 4, false)]

/-- The stores: size in bytes (R37). -/
def storeOps : List ((Issue → Reg → Reg → BitVec 12 → Instr) × Nat) := [(.stB, 1), (.stH, 2), (.stW, 4), (.stD, 8)]

/-- A CSR that the core may write (R59): its number, the bits that are not reserved, whether set and clear write the
value itself (W1C and WO fields, R37), and what a value does. -/
structure CsrRow where
  num : Nat
  bits : Word
  acts : Bool
  put : Core → Word → Core

/-- A write of a counter's target and arm: a counter that has reached the target fires at once (R59, R64). -/
def putCntIrq (n : Nat) (c : Core) (v : Word) : Core :=
  let put := fun w : Word => ({ c with cntIrq := SMap.set (fun _ => 0) c.cntIrq n w } : Core)
  if bit v 32 && decide ((c.cntr (BitVec.ofNat 4 n) - v.setWidth 32).toNat < 2 ^ 31)
  then { put v with cntIrq := SMap.set (fun _ => 0) (put v).cntIrq n (setBit v 32 false) }.edge n else put v

/-- The CSRs that the core may write (R59, R64, R65, R571, R573). -/
def csrRows : List CsrRow := [
  ⟨0x004, BitVec.allOnes 64, false, fun c v => { c with timerCmp := v, timerArmed := true }⟩,
  ⟨0x005, BitVec.allOnes 64, false, fun c v => { c with sysCmp := v, sysArmed := true }⟩,
  ⟨0x010, 0x1FF00#64, false, fun c v => { c with ctl := { c.ctl with vbase := v.setWidth 17 } }⟩,
  ⟨0x014, 0x3FFFFFFFC#64, false, fun c v => if c.ctl.frames = [] then c else { c with ctl := { c.ctl with
    frames := c.ctl.frames.dropLast ++ [{
      source := fld v 29 5
      kind := bit v 28
      prev := fld v 24 4
      preds := BitVec.ofNat 7 (fld v 17 7)
      pc := BitVec.ofNat 17 (fld v 2 15 * 4) }] } }⟩,
  ⟨0x020, 0xFFFFFFFF#64, true, fun c v => { c with ctl := { c.ctl with pend := c.ctl.pend &&& ~~~ v.setWidth 256 } }⟩,
  ⟨0x021, 0xC0000000#64, true, fun c v => let c := if bit v 30 then c.edge 30 else c
    if bit v 31 then c.edge 31 else c⟩,
  ⟨0x022, BitVec.allOnes 64, false, fun c v => { c with ctl := c.ctl.setLevelWord 0 v }⟩,
  ⟨0x023, BitVec.allOnes 64, false, fun c v => { c with ctl := c.ctl.setLevelWord 1 v }⟩,
  ⟨0x024, 0xF#64, false, fun c v => { c with ctl := { c.ctl with thresh := v.toNat % 16 } }⟩,
  ⟨0x041, 0x3F#64, false, fun c v => { c with mboxHwm := v.toNat % 64 }⟩] ++
  (List.range 16).map fun n => ⟨0x030 + n, 0x1FFFFFFFF#64, false, putCntIrq n⟩

/-- The condition that a code of `cmp` names (R37). -/
def condSpec (a b : Word) : List Bool :=
  [decide (a = b), decide (a ≠ b), decide (a.toInt < b.toInt), decide (b.toInt ≤ a.toInt), decide (a.toNat < b.toNat),
   decide (b.toNat ≤ a.toNat), decide (a &&& b ≠ 0), decide (a &&& b = 0)]

/-! Engines (R42 to R44, R80 to R126). -/

/-- A command of engine `n` has completed: the engine is as given, every other engine stays, the counter is one
higher and every other counter stays, and of the rest of the core only scratch may differ. -/
def EngineCompletes (c c' : Core) (n : Nat) (e : Engine) (cnt : BitVec 4) : Prop :=
  c'.engine n = e ∧ (∀ m, m ≠ n → c'.engine m = c.engine m) ∧ c'.cntr cnt = c.cntr cnt + 1 ∧
    (∀ k, k ≠ cnt → c'.cntr k = c.cntr k) ∧ c' = { c with eng := c'.eng, cnt := c'.cnt, scratch := c'.scratch }

/-- Scratch after the writes of a list of units. -/
def afterUnits (m : SMap Byte) (us : List PlanUnit) : SMap Byte :=
  us.foldl (fun m u => u.writes.foldl (fun m w => Mem.write m w.1 w.2) m) m

/-- The 64 B of a fault record (R123). -/
def faultRecord (eng seq cause detail addr progress : Nat) (q : Quad) : List Byte :=
  natToBytes 8 (cause + eng * 2 ^ 8 + seq * 2 ^ 16 + detail % 2 ^ 32 * 2 ^ 32) ++ wordBytes (BitVec.ofNat 64 addr) ++
    natToBytes 8 progress ++ natToBytes 8 0 ++ wordBytes q.w0 ++ wordBytes q.w1 ++ wordBytes q.w2 ++ wordBytes q.w3

/-- No engine of the core but `n` is at work. -/
def OthersIdle (c : Core) (n : Nat) : Prop := ∀ m, m < 7 → m ≠ n → (c.engine m).run = none ∧ (c.engine m).active = []

/-- A data command of an engine: its row, engine, operation code, checks and plan. -/
structure EngineCmd where
  ctor : CoreId → Instr
  eng : Nat
  op : Nat
  check : Quad → Checks
  plan : Core → Quad → Running

/-- An element-wise or reducing command of oryx. -/
def oryxCmd (ctor : CoreId → Instr) (op : Nat) (o : OryxOp) : EngineCmd := ⟨ctor, 1, op, oryxCheck o, oryxPlan o⟩

/-- The data commands of the engines but for `gazelle.tload` (R89, R95, R98, R104, R109, R111). -/
def engineCmds : List EngineCmd := [
  ⟨.kuduMma, 0, 0x01, kuduCheck, kuduPlan⟩,
  oryxCmd .oryxAdd 0x01 (.elem true false (fun d _ _ a b _ => a.add b d) (fun _ _ a b _ => a + b)),
  oryxCmd .oryxSub 0x02 (.elem true false (fun d _ _ a b _ => a.add b.neg d) (fun _ _ a b _ => a - b)),
  oryxCmd .oryxMul 0x03 (.elem true false (fun _ _ _ a b _ => a.mul b) (fun _ _ a b _ => a * b)),
  oryxCmd .oryxFma 0x04 (.elem true true (fun d _ _ a b c => (a.mul b).add c d) (fun _ _ a b c => a * b + c)),
  oryxCmd .oryxMin 0x05 (.elem true false (fun _ _ _ a b _ => a.min b) (fun _ _ a b _ => intMin a b)),
  oryxCmd .oryxMax 0x06 (.elem true false (fun _ _ _ a b _ => a.max b) (fun _ _ a b _ => intMax a b)),
  oryxCmd .oryxAffine 0x07 (.elem false false (fun d s t a _ _ => (a.mul s).add t d) (fun s t a _ _ => a * s + t)),
  oryxCmd .oryxClamp 0x08 (.elem false false (fun _ s t a _ _ => (a.max s).min t) (fun s t a _ _ => intMin (intMax a s) t)),
  oryxCmd .oryxAbs 0x09 (.elem false false (fun _ _ _ a _ _ => a.abs) (fun _ _ a _ _ => a.natAbs)),
  oryxCmd .oryxRsum 0x0A (.red false (fun a _ => a) (pairSum fadd .nan) (fun a _ => a) intSum),
  oryxCmd .oryxRmax 0x0B (.red false (fun a _ => a) (listPick .nan Num.max) (fun a _ => a) (listPick 0 intMax)),
  oryxCmd .oryxRmin 0x0C (.red false (fun a _ => a) (listPick .nan Num.min) (fun a _ => a) (listPick 0 intMin)),
  oryxCmd .oryxRamax 0x0D (.red false (fun a _ => a.abs) (listPick .nan Num.max) (fun a _ => a.natAbs) (listPick 0 intMax)),
  oryxCmd .oryxRdot 0x0E (.red true fmul (pairSum fadd .nan) (fun a b => a * b) intSum),
  oryxCmd .oryxRsumsq 0x0F (.red false (fun a _ => fmul a a) (pairSum fadd .nan) (fun a _ => a * a) intSum),
  ⟨.gazelleEval, 2, 0x01, gazCheck .eval, gazPlan .eval⟩, ⟨.gazelleSoftmax, 2, 0x02, gazCheck .softmax, gazPlan .softmax⟩,
  ⟨.gazelleRmsnorm, 2, 0x03, gazCheck .rmsnorm, gazPlan .rmsnorm⟩, ⟨.gazelleLnorm, 2, 0x04, gazCheck .lnorm, gazPlan .lnorm⟩,
  ⟨.impalaGather, 3, 0x01, impCheck .gather, impPlan .gather⟩, ⟨.impalaScatter, 3, 0x02, impCheck .scatter, impPlan .scatter⟩,
  ⟨.impalaScatadd, 3, 0x03, impCheck .scatadd, impPlan .scatadd⟩, ⟨.impalaRlist, 3, 0x04, impCheck .rlist, impPlan .rlist⟩,
  ⟨.elandCvt, 4, 0x01, elCheck .cvt, elPlan .cvt⟩, ⟨.elandXpose, 4, 0x02, elCheck .xpose, elPlan .xpose⟩,
  ⟨.elandCopy, 4, 0x03, elCheck .copy, elPlan .copy⟩, ⟨.elandFill, 4, 0x04, elCheck .fill, elPlan .fill⟩,
  ⟨.elandMxscale, 4, 0x05, elCheck .mxscale, elPlan .mxscale⟩,
  ⟨.saigaPack, 5, 0x01, saiCheck true, saiPlan true⟩, ⟨.saigaUnpack, 5, 0x02, saiCheck false, saiPlan false⟩]

/-! Packets (R118, R175, R193). -/

/-- A packet reaches the position of key `k` on a running die with a good header, no corrected word and valid fields: it
is the next of its source there, or on no mesh of the model's, and `s` is `s0` once it has left the mesh (R179). -/
def Arrives (s0 s : State) (p : Pkt) (k : Nat) : Prop :=
  p.toCore = some k ∧ s0.dieUp p.dstDie = true ∧ s0.meshTake p (atCore k) = some s ∧ p.hdr = .ok ∧ p.fixed = 0 ∧
    p.meshValid = true

/-- A reply has ended the request in slot `n` of the core at key `k`: the slot is free and the others stay; the
entry it belongs to has one request fewer outstanding and is changed as given; scratch is as given; registers,
counters and every other core stay. -/
def Replied (s t : State) (k n entry : Nat) (f : SbActive → SbActive) (scratch : SMap Byte) : Prop :=
  OnlyCore s t k ∧ ((t.coreAt k).engine 6).slot n = none ∧
    (∀ m, m ≠ n → ((t.coreAt k).engine 6).slot m = ((s.coreAt k).engine 6).slot m) ∧
    ((t.coreAt k).engine 6).active = ((s.coreAt k).engine 6).active.map (fun x =>
      if x.id = entry then f { x with out := x.out - 1 } else x) ∧
    (t.coreAt k).scratch = scratch ∧ t.coreAt k = { s.coreAt k with
      eng := (t.coreAt k).eng
      scratch := scratch }

/-- One packet has been sent into a die, through the ingress group that serves its destination (R168, R213). -/
def EntersDie (s t : State) (d : Nat) (p : Pkt) : Prop :=
  t.out = s.out ++ [.mesh (t.ingressAt d p).1 (t.ingressAt d p).2 p]

/-! The host (R329, R332, R340, R348). -/

/-- The link to the host takes a message at once: it is active, nothing waits for it, fewer than 256 codewords
are not acknowledged, and a credit of each class is left (R329, R332). -/
def HostOpen (s : State) : Prop :=
  s.hifUp = true ∧ s.host.msgs = [] ∧ s.host.sent.length < 256 ∧ s.hifCredit 0 = true ∧ s.hifCredit 1 = true

/-- The first entry of a ring may start, with the given operation, and the ring holds no other (R340, R345). -/
def FrontAlone (s : State) (ring op : Nat) (e : SqEntry) : Prop :=
  s.nextEntry ring op = some e ∧ e.ring = ring ∧ (s.sq ring).fetched = [e] ∧ (s.sq ring).started = []

/-- The entry has ended: its ring holds it no more, and its completion waits to be written (R348). -/
def EntryEnds (s t : State) (e : SqEntry) (status : Nat) (result : Word) : Prop :=
  (t.sq e.ring).fetched = [] ∧ (t.sq e.ring).started = [] ∧
    t.host.compls = s.host.compls ++ [Compl.mk e.ring e.index e.job status (e.w 1) result e.nocqe s.now]

/-- An entry stands alone with the holder stag: the interlock is held, the entry has the subcode, no reserved bit
of it is set, and neither the stag nor its ring holds another (R346). -/
def MgmtAlone (s : State) (sub : Nat) (ms : List Word) (e : SqEntry) : Prop :=
  s.held = true ∧ s.host.mgmt = [e] ∧ e.sub = sub ∧ e.fieldsOk 0 (mask 0 16 :: ms) = true ∧
    (s.sq e.ring).fetched = [] ∧ (s.sq e.ring).started = [e]

/-- The entry has ended, and the holder stag holds it no more. -/
def MgmtEnds (s t : State) (e : SqEntry) (status : Nat) (result : Word) : Prop :=
  EntryEnds s t e status result ∧ t.host.mgmt = []

/-! Events, stags and resets (R350, R428, R432). -/

/-- One event has been reported: it waits, behind those that waited, to be written to the event ring. -/
def Reports (s t : State) (code : Nat) (detail : List Byte) : Prop :=
  t.host.events = s.host.events ++ [Event.mk code detail s.now]

/-- The stags at rest: no image is on its way to the next device, no output is held for an acknowledgement, no
activation or trial is under way, and no channel is being recalibrated. -/
def StagsCalm (s : State) : Prop := s.fw.tx = none ∧ s.stag.held = [] ∧ s.phase = 0 ∧ s.opt.recal = []

/-- Nothing that a reset of a die would end: no launch runs, no host command waits for a die, no save or resume is
under way, no translation fault is pending (R456). -/
def Undisturbed (s : State) : Prop :=
  s.host.launches = [] ∧ (∀ d, s.dieQueue d = []) ∧ (∀ d, s.xfer d = none) ∧ s.mmu.faults = []

/-- Die `d` is as a die reset leaves it (R60, R448, R456): its cores are as core reset leaves them, the registers
of its window at their reset values; the cores of the other dies, device memory and the queue stay. -/
def DieCleared (s t : State) (d : Nat) : Prop :=
  (∀ i, i < 288 → t.coreAt (288 * d + i) = { Core.reset (decide (16 ≤ i % 18)) with
    free := (s.coreAt (288 * d + i)).free
    cycOff := (s.envAt (288 * d + i)).clk }) ∧
  (∀ k, k / 288 ≠ d → t.coreAt k = s.coreAt k) ∧ (∀ off, inDieWindow d off = true → off ≠ R.dieMeshStatus d → t.reg off = Regs.initial off) ∧
  t.rfld (R.dieMeshStatus d) 0 1 = 0 ∧
  t.mem = s.mem ∧ t.pending = s.pending

/-! Optics (R390, R400). -/

/-- A measurement of a ring that R400 calls plausible. -/
def ringPlausible (m : RingMeas) : Prop :=
  50 ≤ m.peak ∧ 5 * 65535 ≤ 135 * m.set ∧ 135 * m.set ≤ 130 * 65535 ∧ 40 * 65536 ≤ 100 * m.target ∧ 100 * m.target ≤ 60 * 65536

end Sys2Proof.Machine
end

