-- ==== Sys2Proof/Certificates/Slice0/Obligations.lean ====
section
/-!
DEFINITION. The statements for the provers.
-/

open Sys2Proof Sys2Proof.Machine

/-- A step takes the command at the front and runs `exec` on it with the queue's rest. -/
def Obligations.StepRunsFront : Prop :=
  ∀ (s : State) (c : Instr) (rest : List Instr), s.pending = c :: rest → step s = exec c { s with pending := rest }

/-- The tick is the model's choice (log entry 1); its 10 ns are R295's. -/
def Obligations.IdleTick : Prop :=
  ∀ s : State, s.pending = [] →
    (s.clocked = true → s.time.slew = 0 → s.time.systime + 10 < 2 ^ 64 →
      ∃ t, step s = .next t ∧ t.time.systime = s.time.systime + 10 ∧ t.time.coreClk = s.time.coreClk + 18 ∧
        (Still s → t = { s with time := t.time })) ∧
    (s.clocked = false → step s = .next s)

/-- Reset; zeros that the spec does not state are the model's (log entries 3 and 4). -/
def Obligations.ResetState : Prop :=
  State.reset.pending = [] ∧ State.reset.now = 0 ∧ State.reset.mem.bytes = [] ∧
  (∀ k, (State.reset.coreAt k).rs = (if 16 ≤ k % 18 then .fenced else .haltedReset)) ∧
  (∀ k r, (State.reset.coreAt k).rg r = 0) ∧ (∀ k n, (State.reset.coreAt k).cntr n = 0) ∧
  (∀ k p, (State.reset.coreAt k).pr p = decide (p = 0)) ∧ (∀ k, (State.reset.coreAt k).mail = []) ∧
  (∀ k n, ((State.reset.coreAt k).engine n).frec = 0x17FE00 + 64 * n) ∧
  (∀ n, n < 256 → bit (State.reset.reg (R.hifSqCfg n)) 63 = false) ∧
  (∀ n, n < 64 → bit (State.reset.reg (R.hifJob n)) 63 = false) ∧
  (∀ n, n < 256 → bit (State.reset.reg (R.bolStreamCfg n)) 63 = false) ∧
  State.reset.swapState = 0 ∧ ∀ off, State.reset.shadowReg off = State.reset.reg off

/-- Misuse has an outcome, an error status, a fault record or a count, and never ends the machine. -/
def Obligations.NoStop : Prop := ∀ (c : Instr) (s : State), ∃ t, exec c s = .next t

/-- First in, first out: only a step takes a command from the queue. -/
def Obligations.QueueDiscipline : Prop :=
  ∀ (c : Instr) (s t : State), exec c s = .next t → t.pending = s.pending

/-- What was sent is never taken back or reordered. -/
def Obligations.OutputsStay : Prop :=
  ∀ (c : Instr) (s t : State), exec c s = .next t → s.out <+: t.out

/-- The invariant of the memory, from every state that meets it. -/
def Obligations.MemoryCanonicalStep : Prop :=
  ∀ s t : State, Memory.wf s.mem.bytes = true → step s = .next t → Memory.wf t.mem.bytes = true

/-- The invariant holds at reset. -/
def Obligations.MemoryCanonicalReset : Prop := Memory.wf State.reset.mem.bytes = true

/-- Reads that no step can change. -/
def Obligations.HardwiredReads : Prop :=
  ∀ s : State, (∀ k, (s.coreAt k).rg 0 = 0 ∧ (s.coreAt k).pr 0 = true) ∧
    ∀ off, ¬ (0x500000 ≤ off ∧ off < 0xD00000) →
      (Regs.find off = none → s.regRead off = 0) ∧
      ∀ r, Regs.find off = some r → (r.access = .wo → s.regRead off = 0) ∧ s.regRead off &&& ~~~ r.mask = 0

/-- R37's table, with R30's g0 and the frame of the instruction. R37's immediate forms. -/
def Obligations.IntegerInstructions : Prop :=
  (∀ p ∈ aluOps, ∀ (s : State) (i : Issue) (rd rs1 rs2 : Reg), Executes s i →
    ∃ t, exec (p.1 i rd rs1 rs2) s = .next t ∧
      RegResult s t i.core.key rd (p.2 ((s.coreAt i.core.key).rg rs1) ((s.coreAt i.core.key).rg rs2))) ∧
  (∀ (s : State) (i : Issue) (rd rs1 : Reg) (imm : BitVec 12), Executes s i →
    (∀ p ∈ immOps, ∃ t, exec (p.1 i rd rs1 imm) s = .next t ∧
      RegResult s t i.core.key rd (p.2 ((s.coreAt i.core.key).rg rs1) (imm.signExtend 64))) ∧
    (∀ p ∈ shiftOps, imm.toNat < 64 → ∃ t, exec (p.1 i rd rs1 imm) s = .next t ∧
      RegResult s t i.core.key rd (p.2 ((s.coreAt i.core.key).rg rs1) imm.toNat)) ∧
    ∀ (k : BitVec 2) (z : Bool) (h : BitVec 16), ∃ t, exec (.ldh i k rd z h) s = .next t ∧
      RegResult s t i.core.key rd
        (setFld (if z then 0 else (s.coreAt i.core.key).rg rd) (16 * k.toNat) 16 h.toNat))

/-- Leading zeros and ones of a register. -/
def Obligations.CountInstructions : Prop :=
  ∀ (s : State) (i : Issue) (rd rs1 : Reg), Executes s i →
    let a := (s.coreAt i.core.key).rg rs1
    (∃ t, ∃ n : Word, exec (.clz i rd rs1 0) s = .next t ∧ RegResult s t i.core.key rd n ∧
      (a = 0 → n = 64) ∧
      (a ≠ 0 → n.toNat < 64 ∧ 2 ^ (63 - n.toNat) ≤ a.toNat ∧ a.toNat < 2 ^ (64 - n.toNat))) ∧
    (∃ t, ∃ n : Word, exec (.popc i rd rs1 0) s = .next t ∧ RegResult s t i.core.key rd n ∧
      n.toNat = ((List.range 64).filter fun j => a.getLsbD j).length)

/-- R37's predicate forms. -/
def Obligations.PredicateInstructions : Prop :=
  ∀ (s : State) (i : Issue), Executes s i →
    let c := s.coreAt i.core.key
    (∀ (pd : PReg) (rs1 rs2 : Reg) (cond : BitVec 4), cond.toNat < 8 →
      ∃ t, exec (.cmp i pd rs1 rs2 cond 0 0) s = .next t ∧
        PredResult s t i.core.key pd (nth false (condSpec (c.rg rs1) (c.rg rs2)) cond.toNat)) ∧
    (∀ (pd : PReg) (rs1 : Reg) (imm : BitVec 10) (cond : BitVec 4), cond.toNat < 8 →
      ∃ t, exec (.cmpi i pd cond rs1 imm) s = .next t ∧
        PredResult s t i.core.key pd (nth false (condSpec (c.rg rs1) (imm.signExtend 64)) cond.toNat)) ∧
    (∀ (pd pa pb : PReg) (fn : BitVec 3), ∃ t, exec (.plog i pd pa pb fn 0) s = .next t ∧
      PredResult s t i.core.key pd
        (nth false [c.pr pa && c.pr pb, c.pr pa || c.pr pb, c.pr pa ^^ c.pr pb, c.pr pa && !c.pr pb, !c.pr pa, c.pr pa,
          true, false] fn.toNat)) ∧
    (∀ rd : Reg, ∃ t, exec (.pmovRead i rd 0 0) s = .next t ∧
      RegResult s t i.core.key rd (BitVec.ofNat 64 (c.ctl.preds.toNat * 2 + 1))) ∧
    ∀ rs1 : Reg, ∃ t, exec (.pmovWrite i 0 rs1 0) s = .next t ∧ OnlyCore s t i.core.key ∧
      t.coreAt i.core.key = { c with ctl := { c.movedOn with preds := BitVec.ofNat 7 ((c.rg rs1).toNat / 2) } }

/-- R37's loads; R58's corrected read. R37's stores, with the frame of scratch. -/
def Obligations.LoadsAndStores : Prop :=
  (∀ p ∈ loadOps, ∀ (s : State) (i : Issue) (rd rs1 : Reg) (imm : BitVec 12), Executes s i →
    let c := s.coreAt i.core.key
    let a := (c.rg rs1 + imm.signExtend 64).toNat
    let v := Mem.nat c.scratch a p.2.1
    let x := if p.2.2 then BitVec.ofInt 64 (signed v (8 * p.2.1)) else BitVec.ofNat 64 v
    a < 0x180000 → a % p.2.1 = 0 →
      (∃ t, exec (p.1 i rd rs1 imm .ok) s = .next t ∧ RegResult s t i.core.key rd x) ∧
      ∃ t, exec (p.1 i rd rs1 imm .corrected) s = .next t ∧ OnlyCore s t i.core.key ∧
        (∀ r, (t.coreAt i.core.key).rg r = if r = rd ∧ r ≠ 0 then x else c.rg r) ∧
        (t.coreAt i.core.key).ctl = (IntCtl.edge c.movedOn 28) ∧ (t.coreAt i.core.key).corrected = c.corrected + 1 ∧
        (t.coreAt i.core.key).scratch = c.scratch) ∧
  (∀ p ∈ storeOps, ∀ (s : State) (i : Issue) (rd rs1 : Reg) (imm : BitVec 12), Executes s i →
    let c := s.coreAt i.core.key
    let a := (c.rg rs1 + imm.signExtend 64).toNat
    a < 0x180000 → a % p.2 = 0 → wordsMeet a p.2 (c.otherDests 7) = false → (∀ w ∈ partWords a p.2, w ∉ c.inWords) →
      ∃ t, exec (p.1 i rd rs1 imm) s = .next t ∧ OnlyCore s t i.core.key ∧
        (∀ j, j < p.2 → Mem.byte (t.coreAt i.core.key).scratch (a + j) = BitVec.ofNat 8 ((c.rg rd).toNat / 256 ^ j)) ∧
        (∀ x, x < a ∨ a + p.2 ≤ x → Mem.byte (t.coreAt i.core.key).scratch x = Mem.byte c.scratch x) ∧
        (t.coreAt i.core.key).g = c.g ∧ (t.coreAt i.core.key).cnt = c.cnt ∧ (t.coreAt i.core.key).ctl = c.movedOn)

/-- R38. -/
def Obligations.ScratchAccessFaults : Prop :=
  ∀ (s : State) (i : Issue) (rd rs1 : Reg) (imm : BitVec 12), Executes s i →
    let c := s.coreAt i.core.key
    let a := c.rg rs1 + imm.signExtend 64
    ∀ (x : Instr) (n : Nat),
      ((∃ p ∈ loadOps, n = p.2.1 ∧ x = p.1 i rd rs1 imm .ok) ∨ ∃ p ∈ storeOps, n = p.2 ∧ x = p.1 i rd rs1 imm) →
        (a.toNat < 0x180000 → a.toNat % n = 0 → ∃ t, exec x s = .next t ∧ (t.coreAt i.core.key).ctl = c.movedOn ∧
          (t.coreAt i.core.key).excCause = c.excCause ∧ (t.coreAt i.core.key).rs = c.rs) ∧
        (0x180000 ≤ a.toNat → ∃ t, exec x s = .next t ∧ TakesException s t i.core.key 0x04 a c.ctl.pc ∧
          (t.coreAt i.core.key).scratch = c.scratch) ∧
        (a.toNat < 0x180000 → a.toNat % n ≠ 0 → ∃ t, exec x s = .next t ∧ TakesException s t i.core.key 0x03 a c.ctl.pc ∧
          (t.coreAt i.core.key).scratch = c.scratch)

/-- R39. -/
def Obligations.FetchFaults : Prop :=
  ∀ (s : State) (i : Issue), Executes s i →
    let k := i.core.key
    let c := s.coreAt k
    let pc := c.ctl.pc.setWidth 64
    let bad := fun a : Word => 0x20000 ≤ a.toNat ∨ a.toInt < 0 ∨ a.toNat % 4 ≠ 0
    (∀ off : BitVec 22, let a := pc + 4 * off.signExtend 64
      bad a → (∃ t, exec (.br i off) s = .next t ∧ TakesException s t k 0x02 a c.ctl.pc) ∧
        ∃ t, exec (.call i off) s = .next t ∧ TakesException s t k 0x02 a c.ctl.pc ∧ (t.coreAt k).g = c.g) ∧
    (∀ (rs1 : Reg) (imm : BitVec 12), let a := c.rg rs1 + imm.signExtend 64
      bad a → (∃ t, exec (.jr i 0 rs1 imm) s = .next t ∧ TakesException s t k 0x02 a c.ctl.pc) ∧
        ∃ t, exec (.callr i 0 rs1 imm) s = .next t ∧ TakesException s t k 0x02 a c.ctl.pc ∧ (t.coreAt k).g = c.g) ∧
    ∀ (rs1 : Reg) (off : BitVec 17), let a := pc + 4 * off.signExtend 64
      bad a → c.rg rs1 ≠ 1 → (∀ f ∈ c.ctl.frames, f.kind = false) → ∃ t, exec (.dbnz i rs1 off) s = .next t ∧
        (t.coreAt k).excCause = 2 ∧ (t.coreAt k).excValue = a ∧ (t.coreAt k).ctl.pc = c.ctl.vbase ∧
        (t.coreAt k).ctl.frames = c.ctl.frames ++ [Frame.mk 0 true c.ctl.run c.ctl.preds c.ctl.pc]

/-- R37's control transfers. -/
def Obligations.ControlTransfers : Prop :=
  ∀ (s : State) (i : Issue), Executes s i →
    let c := s.coreAt i.core.key
    let pc := c.ctl.pc.setWidth 64
    let good := fun a : Word => a.toNat < 0x20000 ∧ a.toNat % 4 = 0
    let at_ := fun a : Word => ({ c.ctl with pc := a.setWidth 17, turn := .none } : IntCtl)
    (∀ off : BitVec 22, good (pc + 4 * off.signExtend 64) →
      exec (.br i off) s = .next (s.setCore i.core.key { c with ctl := at_ (pc + 4 * off.signExtend 64) }) ∧
      exec (.call i off) s =
        .next (s.setCore i.core.key { c.setG 31 (pc + 4) with ctl := at_ (pc + 4 * off.signExtend 64) })) ∧
    (∀ (rs1 : Reg) (imm : BitVec 12), good (c.rg rs1 + imm.signExtend 64) →
      exec (.jr i 0 rs1 imm) s = .next (s.setCore i.core.key { c with ctl := at_ (c.rg rs1 + imm.signExtend 64) }) ∧
      exec (.callr i 0 rs1 imm) s =
        .next (s.setCore i.core.key { c.setG 31 (pc + 4) with ctl := at_ (c.rg rs1 + imm.signExtend 64) })) ∧
    ∀ (rs1 : Reg) (off : BitVec 17),
      (c.rg rs1 = 1 → exec (.dbnz i rs1 off) s = .next (s.setCore i.core.key { c.setG rs1 0 with ctl := c.movedOn })) ∧
      (c.rg rs1 ≠ 1 → good (pc + 4 * off.signExtend 64) →
        exec (.dbnz i rs1 off) s =
          .next (s.setCore i.core.key { c.setG rs1 (c.rg rs1 - 1) with ctl := at_ (pc + 4 * off.signExtend 64) }))

/-- R41 to R43 on the controller's side. The end of each stall. -/
def Obligations.QueueInstructions : Prop :=
  (∀ (s : State) (i : Issue), Executes s i →
    let k := i.core.key
    let c := s.coreAt k
    let m := { c with ctl := { c.ctl with turn := .none } }
    (∀ (eng : BitVec 3) (rq : Reg), eng ≠ 7 → rq.toNat % 4 = 0 → 4 ≤ rq.toNat →
      let e := QEntry.cmd ⟨c.rg rq, c.rg (rq + 1), c.rg (rq + 2), c.rg (rq + 3)⟩
      (c.queueFull eng.toNat = false →
        exec (.iss i eng rq false 0 0) s = .next (s.setCore k (m.push eng.toNat e).next) ∧
        ∀ pd, exec (.iss i eng rq true pd 0) s = .next (s.setCore k ((m.push eng.toNat e).setP pd true).next)) ∧
      (c.queueFull eng.toNat = true →
        exec (.iss i eng rq false 0 0) s = .next (s.setCore k { m with rs := .stalled, stall := some (.queue eng.toNat e) }) ∧
        ∀ pd, exec (.iss i eng rq true pd 0) s = .next (s.setCore k (m.setP pd false).next))) ∧
    (∀ (eng : BitVec 3) (cnt : BitVec 4) (rs1 : Reg), eng ≠ 7 → c.queueFull eng.toNat = false →
      exec (.qwait i eng cnt rs1 0) s =
        .next (s.setCore k (m.push eng.toNat (.token cnt ((c.rg rs1).setWidth 32))).next)) ∧
    (∀ (r : Reg) (cnt : BitVec 4) (imm : BitVec 13),
      let t := (c.rg r + imm.setWidth 64).setWidth 32
      ((c.cntr cnt - t).toNat < 2 ^ 31 → exec (.wait i r cnt imm) s = .next (s.setCore k m.ordered.next)) ∧
      (¬ (c.cntr cnt - t).toNat < 2 ^ 31 →
        exec (.wait i r cnt imm) s = .next (s.setCore k { m with rs := .stalled, stall := some (.wait cnt t) })) ∧
      ((c.cntIrqOf cnt.toNat).getLsbD 32 = false →
        exec (.cntWr i r cnt imm) s =
          .next (s.setCore k ({ m with cnt := SMap.set (fun _ => 0) c.cnt cnt.toNat t } : Core).next) ∧
        exec (.cntAdd i r cnt imm) s =
          .next (s.setCore k ({ m with cnt := SMap.set (fun _ => 0) c.cnt cnt.toNat (c.cntr cnt + t) } : Core).next))) ∧
    ∀ (r : Reg) (cnt : BitVec 4), ∃ t, exec (.cntRd i r cnt 0) s = .next t ∧
      RegResult s t k r ((c.cntr cnt).setWidth 64)) ∧
  (∀ (s : State) (id : CoreId), let c := s.coreAt id.key
    c.rs = .stalled →
    (∀ n e, c.stall = some (.queue n e) → c.queueFull n = false →
      exec (.issStallEnd id) s = .next (s.setCore id.key (({ c with rs := .running, stall := none } : Core).push n e).next)) ∧
    (∀ cnt t, c.stall = some (.wait cnt t) → (c.cntr cnt - t).toNat < 2 ^ 31 →
      exec (.waitComplete id) s = .next (s.setCore id.key ({ c with rs := .running, stall := none } : Core).ordered.next)) ∧
    ∀ rd rs1 m ms, c.stall = some (.rcv rd rs1) → c.mail = m :: ms →
      exec (.rcvMsgStallEnd id) s =
        .next (s.setCore id.key (((({ c with rs := .running, stall := none, mail := ms } : Core).setQuad rd m.payload).setG rs1 m.sender).next)))

/-- R47 and R50 on the controller's side. -/
def Obligations.ShortMessages : Prop :=
  ∀ (s : State) (i : Issue), Executes s i →
    let k := i.core.key
    let c := s.coreAt k
    let m := { c with ctl := { c.ctl with turn := .none } }
    ∀ rd rs1 : Reg, rd.toNat % 4 = 0 → 4 ≤ rd.toNat →
      let q : Quad := ⟨c.rg rd, c.rg (rd + 1), c.rg (rd + 2), c.rg (rd + 3)⟩
      (∀ cnt : BitVec 4, c.queueFull 6 = false →
        exec (.sndMsg i rd rs1 (16 + cnt.setWidth 5) 0) s =
          .next (s.setCore k (m.push 6 (.msg (c.rg rs1) true cnt q)).next) ∧
        exec (.sndMsg i rd rs1 0 0) s = .next (s.setCore k (m.push 6 (.msg (c.rg rs1) false 0 q)).next) ∧
        ∀ pd : PReg, exec (.sndMsg i rd rs1 0 (8 + 16 * pd.setWidth 7)) s =
          .next (s.setCore k ((m.push 6 (.msg (c.rg rs1) false 0 q)).setP pd true).next)) ∧
      (∀ x ms, c.mail = x :: ms →
        exec (.rcvMsg i rd rs1 0 0) s =
          .next (s.setCore k ((({ m with mail := ms } : Core).setQuad rd x.payload).setG rs1 x.sender).next)) ∧
      (c.mail = [] →
        exec (.rcvMsg i rd rs1 0 0) s = .next (s.setCore k { m with rs := .stalled, stall := some (.rcv rd rs1) }) ∧
        ∀ pd : PReg, exec (.rcvMsg i rd rs1 0 (8 + 16 * pd.setWidth 7)) s = .next (s.setCore k (m.setP pd false).next))

/-- R59's access types as the core meets them. A reserved bit written as 1 leaves a free value (R9, log entry 8). -/
def Obligations.CsrInstructions : Prop :=
  ∀ (s : State) (i : Issue), Executes s i →
    let k := i.core.key
    let c := s.coreAt k
    let m := ({ c with ctl := { c.ctl with turn := .none } } : Core)
    (∀ (rd : Reg) (n : BitVec 12), csrExists n.toNat = true →
      ∃ t v, c.csrRead (s.envAt k) n.toNat = some v ∧ exec (.csrRd i rd 0 n) s = .next t ∧ RegResult s t k rd v) ∧
    (∀ p ∈ csrRows, ∀ rs1 : Reg, let v := c.rg rs1
      let n := BitVec.ofNat 12 p.num
      let old := (c.csrRead (s.envAt k) p.num).getD 0
      let does := fun (x : Instr) (v : Word) =>
        (v &&& ~~~ p.bits = 0 → exec x s = .next (s.setCore k (p.put m.next v))) ∧
        (v &&& ~~~ p.bits ≠ 0 → ∃ w t, exec x s = .next t ∧ w &&& ~~~ p.bits = 0 ∧
          t = s.setCore k (p.put { m.next with free := c.free + 1 } w))
      does (.csrWr i 0 rs1 n) v ∧ does (.csrSet i 0 rs1 n) (if p.acts then v else old ||| v) ∧
        does (.csrClr i 0 rs1 n) (if p.acts then v else old &&& ~~~ v)) ∧
    ∀ (rs1 : Reg) (n : BitVec 12), csrExists n.toNat = true → csrWritable n.toNat false = false →
      exec (.csrWr i 0 rs1 n) s = .next (s.setCore k m.next) ∧ exec (.csrSet i 0 rs1 n) s = .next (s.setCore k m.next) ∧
      exec (.csrClr i 0 rs1 n) s = .next (s.setCore k m.next)

/-- R37's system instructions. -/
def Obligations.SystemInstructions : Prop :=
  ∀ (s : State) (i : Issue), Executes s i →
    let k := i.core.key
    let c := s.coreAt k
    let m := ({ c with ctl := { c.ctl with turn := .none } } : Core)
    exec (.syncI i 0 0 0) s = .next (s.setCore k m.next) ∧
    (∃ t, exec (.sleep i 0 0 0) s = .next t ∧ OnlyCore s t k ∧ (t.coreAt k).rs = .sleeping ∧
      (t.coreAt k).ctl.pc = c.ctl.pc + 4 ∧ (c.enginesIdle = true → (t.coreAt k).ctl.clkStopped = true) ∧
      (c.enginesIdle = false → (t.coreAt k).ctl.clkStopped = c.ctl.clkStopped)) ∧
    (∀ rs1, ∃ t, exec (.trap i 0 rs1 0) s = .next t ∧ TakesException s t k 0x07 (c.rg rs1) (c.ctl.pc + 4)) ∧
    (∃ t, exec (.ebrk i 0 0 0) s = .next t ∧ TakesException s t k 0x08 0 (c.ctl.pc + 4)) ∧
    (∀ fs f, c.ctl.frames = fs ++ [f] →
      let x := if f.kind then m.ctl else { m.ctl with insvc := m.ctl.insvc &&& ~~~ srcBit f.source }
      (x.eligibleAt c.cond f.prev = none → exec (.eret i 0 0 0) s = .next (s.setCore k { c with ctl := { x with
        frames := fs
        preds := f.preds
        run := f.prev
        pc := f.pc
        turn := .exit f c.ctl.preds } })) ∧
      ∀ n, x.eligibleAt c.cond f.prev = some n →
        exec (.eret i 0 0 0) s = .next (s.setCore k { c with ctl := x.chained n fs f c.ctl.preds })) ∧
    (c.ctl.clkStopped = false →
      exec (.halt i 0 0 0) s = .next (s.setCore k
        { m.next with
          rs := .haltedSelf
          stall := none
          noticeHalt := true
          ctl := { m.next.ctl with asleep := false, turn := .none } }))

/-- R33 for the whole instruction set. Cases of R36, each with the entry of R67 and R69. -/
def Obligations.PredicateFalseOrIllegal : Prop :=
  (∀ (x : Instr) (i : Issue) (s : State), x.issueOf = some i → Reaches s i → (s.coreAt i.core.key).pr i.pr = i.pn →
    exec x s = .next (s.setCore i.core.key
      { s.coreAt i.core.key with ctl := (s.coreAt i.core.key).movedOn })) ∧
  (∀ (s : State) (i : Issue), Executes s i →
    let k := i.core.key
    let c := s.coreAt k
    let ill := fun x : Instr => ∃ t v, exec x s = .next t ∧ TakesException s t k 0x01 v c.ctl.pc
    (∀ rd rs1 rs2 : Reg, rs2 ≠ 0 → ill (.clz i rd rs1 rs2) ∧ ill (.popc i rd rs1 rs2)) ∧
    (∀ (rd rs1 : Reg) (imm : BitVec 12), 64 ≤ imm.toNat → ill (.shli i rd rs1 imm)) ∧
    (∀ (pd : PReg) (rs1 rs2 : Reg) (cond : BitVec 4) (h : BitVec 2) (l : BitVec 3),
      8 ≤ cond.toNat ∨ h ≠ 0 ∨ l ≠ 0 → ill (.cmp i pd rs1 rs2 cond h l)) ∧
    (∀ (rd rs1 : Reg) (imm : BitVec 12), rd ≠ 0 → ill (.jr i rd rs1 imm) ∧ ill (.callr i rd rs1 imm)) ∧
    (∀ (eng : BitVec 3) (rq : Reg) (t : Bool) (pd : PReg) (r : BitVec 10),
      eng = 7 ∨ rq.toNat % 4 ≠ 0 ∨ rq.toNat < 4 ∨ r ≠ 0 ∨ (t = false ∧ pd ≠ 0) → ill (.iss i eng rq t pd r)) ∧
    (∀ (rd rs1 : Reg) (n : BitVec 12), csrExists n.toNat = false → ill (.csrRd i rd rs1 n) ∧ ill (.csrWr i rd rs1 n) ∧
      ill (.csrSet i rd rs1 n) ∧ ill (.csrClr i rd rs1 n)) ∧
    (∀ rd rs1 rs2 : Reg, rd ≠ 0 ∨ rs1 ≠ 0 ∨ rs2 ≠ 0 → ill (.syncI i rd rs1 rs2) ∧ ill (.halt i rd rs1 rs2)) ∧
    (c.ctl.frames = [] → ill (.eret i 0 0 0))) ∧
  (∀ (x : Instr) (w : Nat) (i : Issue), x.word = some w → x.issueOf = some i → i.parity = false →
    decodeWord i.core w = some x ∨
      ∃ (rd rs1 : Reg) (imm : BitVec 12) (e : Ecc), e ≠ .ok ∧ x ∈ [Instr.ldB i rd rs1 imm e, .ldH i rd rs1 imm e, .ldW i rd rs1 imm e,
        .ldD i rd rs1 imm e, .ldBu i rd rs1 imm e, .ldHu i rd rs1 imm e, .ldWu i rd rs1 imm e]) ∧
  ∀ (c : CoreId) (w : Nat), let op := w / 2 ^ 22 % 64
    let fn := w % 2 ^ 7
    decodeWord c w = none ↔
      op = 0x17 ∨ 0x2E ≤ op ∨ (op = 0x00 ∧ 0x13 ≤ fn) ∨ (op = 0x0F ∧ 2 ≤ fn) ∨ (op = 0x2D ∧ 6 ≤ fn)

/-- Arbitration: the highest level wins, the lowest number among equals. -/
def Obligations.EligibleSource : Prop :=
  ∀ (c : IntCtl) (cond : BitVec 256) (run n : Nat),
    let open_ := fun m => m < 80 ∧ (c.pend ||| (cond &&& ~~~ c.insvc)).getLsbD m = true ∧ max c.thresh run < c.lvl m
    c.eligibleAt cond run = some n ↔
      open_ n ∧ ∀ m, open_ m → c.lvl m < c.lvl n ∨ (c.lvl m = c.lvl n ∧ n ≤ m)

/-- Entry to an interrupt, and the restart of a stopped clock, at every size of processor. R573's comparators and R59's CSRs from the die controller's side. -/
def Obligations.InterruptsAndTimers : Prop :=
  (∀ s : State,
    (∀ (id : CoreId) (n : Nat), let c := s.coreAt id.key
      c.ctl.clkStopped = false → c.rs = .running ∨ c.rs = .stalled ∨ c.rs = .sleeping →
      c.ctl.eligible c.cond = some n →
        ((∀ f p, c.ctl.turn ≠ .exit f p) → exec (.interruptTake ⟨.core id, []⟩) s =
          .next (s.setCore id.key { c with rs := .running, stall := none, ctl := c.ctl.entered n })) ∧
        ∀ f p, c.ctl.turn = .exit f p → exec (.interruptTake ⟨.core id, []⟩) s =
          .next (s.setCore id.key { c with rs := .running, stall := none, ctl := c.ctl.chained n c.ctl.frames f p })) ∧
    (∀ (id : CoreId) (n : Fin 80), let c := s.coreAt id.key
      n = 25 ∨ n = 29 → c.rs ≠ .fenced → c.ctl.clkStopped = true →
        exec (.interruptTake ⟨.core id, [n]⟩) s = .next (s.setCore id.key (c.edge n.val))) ∧
    (∀ (d : Die) (n : Nat), (s.dieIntc d.val).clkStopped = false → (∀ f p, (s.dieIntc d.val).turn ≠ .exit f p) →
      (s.dieIntc d.val).eligible (s.dieCond d.val) = some n →
        exec (.interruptTake ⟨.die d, []⟩) s = .next (s.setDieIntc d.val ((s.dieIntc d.val).entered n))) ∧
    (∀ (u : Fin 4) (n : Nat), (s.stagIntc u.val).clkStopped = false → (∀ f p, (s.stagIntc u.val).turn ≠ .exit f p) →
      (s.stagIntc u.val).eligible s.stagCond = some n →
        exec (.interruptTake ⟨.stag u, []⟩) s = .next (s.setStagIntc u.val ((s.stagIntc u.val).entered n))) ∧
    (∀ id : CoreId, let c := s.coreAt id.key
      c.ctl.clkStopped = true → c.ctl.wakes c.cond = true →
        exec (.clockRestart (.core id)) s =
          .next (s.setCore id.key { c with
            cycOff := (s.envAt id.key).clk - c.cycHeld
            ctl := c.ctl.restart
            noticeLost := c.noticeLost || decide (c.ctl.restart.lost ≠ c.ctl.lost) })) ∧
    (∀ d : Die, (s.dieIntc d.val).clkStopped = true → (s.dieIntc d.val).wakes (s.dieCond d.val) = true →
      exec (.clockRestart (.die d)) s = .next (s.setDieIntc d.val (s.dieIntc d.val).restart)) ∧
    ∀ u : Fin 4, (s.stagIntc u.val).clkStopped = true → (s.stagIntc u.val).wakes s.stagCond = true →
      exec (.clockRestart (.stag u)) s = .next (s.setStagIntc u.val (s.stagIntc u.val).restart)) ∧
  (∀ (s : State) (id : CoreId), let k := id.key
    let c := s.coreAt k
    let put := fun d : Core => Host.Outcome.next (s.setCore k d)
    c.rs ≠ .fenced →
    (c.timerArmed = true → c.ctl.clkStopped = false → c.timerCmp.toNat ≤ c.cycle (s.envAt k) →
      exec (.coreTimerFire id) s = put ({ c with timerArmed := false }.edge 26)) ∧
    (c.sysArmed = true → c.sysCmp.toNat ≤ s.now →
      exec (.coreSystimeFire id) s = put ({ c with sysArmed := false }.edge 27)) ∧
    (∀ v : Word, v &&& ~~~ 0x1FFFD#64 = 0 → c.pause = none →
      (bit v 0 = true → c.rs.halted = true → c.stopping = false → exec (.coreCtlWrite id v) s =
        put { c with
          ctlReg := v
          rs := .running
          stall := none
          noticeHalt := false
          ctl := { c.ctl with
            pc := BitVec.ofNat 17 (fld v 2 15 * 4)
            turn := .none
            asleep := false } }) ∧
      (bit v 0 = false → c.rs.halted = false → c.ctl.clkStopped = false → exec (.coreCtlWrite id v) s =
        put { c with
          ctlReg := v
          rs := .haltedCtl
          stall := none
          noticeHalt := true
          ctl := { c.ctl with asleep := false, turn := .none } })) ∧
    (∀ d : Nat, d ≤ c.ctl.frames.length → d ≤ 16 → c.rs.halted = true → exec (.coreFrameDepthWrite id (BitVec.ofNat 64 d)) s =
      put { c with ctl := { c.ctl with frames := c.ctl.frames.take d } }) ∧
    (∀ v : Word, v &&& ~~~ 0x3FFFFFFFC#64 = 0 →
      (c.ctl.frames = [] → exec (.coreFrameTopWrite id v) s = put c) ∧
      ∀ fs f, c.ctl.frames = fs ++ [f] → exec (.coreFrameTopWrite id v) s =
        put { c with ctl := { c.ctl with frames := fs ++ [{
          source := fld v 29 5
          kind := bit v 28
          prev := fld v 24 4
          preds := BitVec.ofNat 7 (fld v 17 7)
          pc := BitVec.ofNat 17 (fld v 2 15 * 4) }] } }) ∧
    exec (.coreIntSwsetWrite id 0x40000000#64) s = put (c.edge 30) ∧
    exec (.coreIntSwsetWrite id 0x80000000#64) s = put (c.edge 31) ∧
    exec (.coreIntSwsetWrite id 0xC0000000#64) s = put ((c.edge 30).edge 31) ∧
    (∀ v : Word, v &&& ~~~ 0xFFFFFFFF#64 = 0 → exec (.coreIntPendClear id v) s =
      put { c with ctl := { c.ctl with pend := c.ctl.pend &&& ~~~ v.setWidth 256 } }) ∧
    (∀ v : Word, exec (.coreTimerCmpWrite id v) s = put { c with timerCmp := v, timerArmed := true } ∧
      exec (.coreSystimeCmpWrite id v) s = put { c with sysCmp := v, sysArmed := true }) ∧
    ∀ (n : Fin 16) (v : Word), v &&& ~~~ 0x1FFFFFFFF#64 = 0 →
      let w := { c with cntIrq := SMap.set (fun _ => 0) c.cntIrq n.val v }
      let hit := bit v 32 = true ∧ (c.cntr (BitVec.ofNat 4 n.val) - v.setWidth 32).toNat < 2 ^ 31
      (¬ hit → exec (.coreCntIrqWrite id n v) s = put w) ∧
      (hit → exec (.coreCntIrqWrite id n v) s =
        put ({ c with cntIrq := SMap.set (fun _ => 0) w.cntIrq n.val (setBit v 32 false) }.edge n.val)))

/-- The operations that every engine has. The end of a command and the point where it can be held. -/
def Obligations.EngineCommonCommands : Prop :=
  (∀ (s : State) (id : CoreId) (eng : Eng) (rest : List QEntry) (cnt : BitVec 4), let k := id.key
    let c := s.coreAt k
    let e := c.engine eng.val
    e.stop = false → c.pause = none →
    (e.run = none → e.active = [] → c.rs ≠ .fenced → bit (c.cntIrqOf cnt.toNat) 32 = false →
      let w0 := fun op : Nat => BitVec.ofNat 64 (op * 2 ^ 58 + cnt.toNat * 2 ^ 54)
      (e.queue = .cmd ⟨w0 0x00, 0, 0, 0⟩ :: rest → ∃ t, exec (.engMark id eng) s = .next t ∧ OnlyCore s t k ∧
        EngineCompletes c (t.coreAt k) eng.val { e with queue := rest, faulted := false } cnt ∧
        (t.coreAt k).scratch = c.scratch) ∧
      (∀ a : Nat, a % 64 = 0 → a + 64 ≤ 0x180000 → e.queue = .cmd ⟨w0 0x3D, BitVec.ofNat 64 a, 0, 0⟩ :: rest →
        ∃ t, exec (.engFrec id eng) s = .next t ∧ OnlyCore s t k ∧
          EngineCompletes c (t.coreAt k) eng.val { e with queue := rest, faulted := false, frec := a } cnt ∧
          (t.coreAt k).scratch = c.scratch) ∧
      ∀ v : BitVec 32, eng = 0 ∨ eng = 1 ∨ eng = 2 ∨ eng = 4 → e.queue = .cmd ⟨w0 0x3E, v.setWidth 64, 0, 0⟩ :: rest →
        ∃ t, exec (.engSeed id eng) s = .next t ∧ OnlyCore s t k ∧
          EngineCompletes c (t.coreAt k) eng.val
            { e with queue := rest, faulted := false, lfsr := if v = 0 then 1 else v } cnt ∧
          (t.coreAt k).scratch = c.scratch) ∧
    ∀ target : BitVec 32, e.queue = .token cnt target :: rest → (c.cntr cnt - target).toNat < 2 ^ 31 →
      exec (.waitTokenRelease id eng) s = .next (s.setCore k (c.setEngine eng.val { e with queue := rest }))) ∧
  (∀ (s : State) (id : CoreId) (eng : Eng) (r : Running), let k := id.key
    let c := s.coreAt k
    let e := c.engine eng.val
    eng ≠ 6 → e.run = some r → r.tainted = false → r.shared = [] → e.held = false →
    (r.fault = none → bit (c.cntIrqOf r.cnt.toNat) 32 = false →
      ∃ t, exec (.commandComplete id ⟨eng, false⟩) s = .next t ∧ OnlyCore s t k ∧
        (t.coreAt k).scratch = afterUnits c.scratch r.units ∧
        EngineCompletes c (t.coreAt k) eng.val { e with
          run := none
          faulted := false
          lfsr := (r.units.getLast?.map (·.lfsr)).getD e.lfsr
          tables := match r.load with
            | some (slot, table) => SMap.set (fun _ => []) e.tables slot table
            | none => e.tables } r.cnt) ∧
    (∀ f detail addr, r.fault = some f → f.detail = some detail → f.addr = some addr →
      (∃ t, exec (.engineFault id eng ⟨none, false⟩) s = .next t ∧ OnlyCore s t k ∧
        (t.coreAt k).scratch = afterUnits c.scratch r.units ∧ ((t.coreAt k).engine eng.val).run = none ∧
        ((t.coreAt k).engine eng.val).faulted = true ∧ (t.coreAt k).noticeFault = true ∧ (t.coreAt k).ctl = c.ctl ∧
        (t.coreAt k).cnt = c.cnt ∧ (t.coreAt k).g = c.g) ∧
      ∃ t, exec (.engineFault id eng ⟨none, true⟩) s = .next t ∧ OnlyCore s t k ∧
        (t.coreAt k).scratch = Mem.write (afterUnits c.scratch r.units) e.frec
          (faultRecord eng.val ((e.seq + 1) % 2 ^ 16) f.cause detail addr
            ((r.units.getLast?.map (·.progress)).getD r.done) r.cmd) ∧
        ((t.coreAt k).engine eng.val).run = none ∧ ((t.coreAt k).engine eng.val).faulted = true ∧
        ((t.coreAt k).engine eng.val).seq = (e.seq + 1) % 2 ^ 16 ∧ (t.coreAt k).noticeFault = true ∧
        (t.coreAt k).ctl = c.ctl.edge (18 + eng.val) ∧ (t.coreAt k).cnt = c.cnt ∧ (t.coreAt k).g = c.g) ∧
    ∀ n, e.stop = true → (n = 0 ∨ ∃ u, r.units[n - 1]? = some u ∧ u.restart = true) →
      ∃ t, exec (.engineRestartPoint id eng n) s = .next t ∧ OnlyCore s t k ∧
        (t.coreAt k).scratch = afterUnits c.scratch (r.units.take n) ∧
        ((t.coreAt k).engine eng.val).held = true ∧
        ((t.coreAt k).engine eng.val).run = some { r with
          units := r.units.drop n
          done := ((r.units.take n).getLast?.map (·.progress)).getD r.done } ∧
        (t.coreAt k).cnt = c.cnt)

/-- R574's order of checks, and what is under way after them. -/
def Obligations.EngineStarts : Prop :=
  (∀ p ∈ engineCmds, ∀ (s : State) (id : CoreId) (q : Quad) (rest : List QEntry), let k := id.key
    let c := s.coreAt k
    let e := c.engine p.eng
    let d := c.setEngine p.eng { e with queue := rest }
    e.run = none → e.active = [] → e.stop = false → c.pause = none → c.rs ≠ .fenced → e.queue = .cmd q :: rest → q.op = p.op →
      (∀ f, (p.check q).fault e.tables = some f → exec (p.ctor id) s = .next (s.setCore k (d.cmdFault (s.envAt k) p.eng q f 0))) ∧
      ((p.check q).fault e.tables = none → OthersIdle c p.eng →
        ∃ t, exec (p.ctor id) s = .next t ∧ OnlyCore s t k ∧
          (t.coreAt k).engine p.eng = { e with queue := rest, run := some (p.plan d q) } ∧
          (∀ m, m ≠ p.eng → (t.coreAt k).engine m = c.engine m) ∧
          t.coreAt k = { c with eng := (t.coreAt k).eng })) ∧
  ∀ (s : State) (id : CoreId) (q : Quad) (rest : List QEntry), let k := id.key
    let c := s.coreAt k
    let e := c.engine 2
    let table := Mem.bytes c.scratch (fld q.w1 0 21) 1088
    e.run = none → e.active = [] → e.stop = false → c.pause = none → c.rs ≠ .fenced →
      e.queue = .cmd q :: rest → q.op = 0x05 → OthersIdle c 2 →
      (tloadCheck q).fault [] = none → gazAccepts table = true →
        ∃ t, exec (.gazelleTload id) s = .next t ∧ OnlyCore s t k ∧
          (∃ r, (t.coreAt k).engine 2 = { e with queue := rest, run := some r } ∧ r.cmd = q ∧ r.cnt = q.cnt ∧ r.fault = none ∧
            r.load = some (fld q.w0 39 4, table) ∧ afterUnits c.scratch r.units = c.scratch) ∧
          (∀ m, m ≠ 2 → (t.coreAt k).engine m = c.engine m) ∧ t.coreAt k = { c with eng := (t.coreAt k).eng }

/-- The chunks, zero-run groups and exponent-delta groups lose nothing. -/
def Obligations.SaigaRoundTrip : Prop :=
  ∀ (mode : Nat) (l : List Byte) (cap : Nat), 1 ≤ mode → mode ≤ 3 → l.length % packUnit mode = 0 → l.length ≤ cap →
    (∃ os, unpackChunks cap (packStream mode l).length (packStream mode l) = (os, false) ∧ os.flatten = l) ∧
    (packStream mode l).length % 8 = 0 ∧ (packStream mode l).length ≤ l.length + 8 * ((l.length + 4095) / 4096)

/-- Results written out from the operations' own definitions. -/
def Obligations.EngineResults : Prop :=
  (∀ (c : ElCmd) (m : SMap Byte) (l : BitVec 32), c.rows = 1 →
    (∀ j, j < c.n → meets c.a c.n c.d c.n = false → Mem.byte (afterUnits m (elUnits c .copy m l)) (c.d + j) = Mem.byte m (c.a + j)) ∧
    (c.esz = 1 → ∀ j, j < c.n → Mem.byte (afterUnits m (elUnits c .fill m l)) (c.d + j) = BitVec.ofNat 8 c.value)) ∧
  (∀ (c : ImpCmd) (m : SMap Byte), c.index m 0 < c.limit →
    ∃ u, impUnits c .gather m [0] = ([u], none) ∧
      u.writes = [(c.d, Mem.bytes m (c.s + c.index m 0 * 2 ^ c.esz) (2 ^ c.esz))]) ∧
  (∀ (c : OryxCmd) (l : BitVec 32) (a b x : Nat), c.fmt = .int32 →
    ∀ p ∈ ([(fun u v => u + v), (fun u v => u - v), (fun u v => u * v), intMin, intMax] : List (Int → Int → Int)),
      oryxElems c (fun _ _ _ u _ _ => u) (fun _ _ u v _ => p u v) l [(a, some b, x)]
        = ([(p (signed a 32) (signed b 32) % (2 ^ 32 : Nat)).toNat], l)) ∧
  ∀ (c : KuduCmd) (m : SMap Byte) (r n : Nat) (ps : List (Nat × Nat)), c.fc = 3 → c.acc = false →
    kuduElem c m r n (ps.map fun p => some p.1) (ps.map fun p => some p.2)
      = .inr (((ps.map fun p => signed p.1 8 * signed p.2 8).sum % (2 ^ 32 : Nat)).toNat)

/-- The start of each kind of entry. -/
def Obligations.SpringbokStarts : Prop :=
  ∀ (s : State) (id : CoreId) (rest : List QEntry), let k := id.key
    let c := s.coreAt k
    let e := c.engine 6
    let d := c.setEngine 6 { e with queue := rest }
    e.run = none → e.stop = false → e.active = [] → c.pause = none → c.rs ≠ .fenced →
    (∀ p ∈ ([(.springbokGet, 0x01, .get), (.springbokPut, 0x02, .put), (.springbokCput, 0x03, .cput),
        (fun id => .springbokGather ⟨id, .ok⟩, 0x04, .gather), (.springbokAtom, 0x05, .atom), (.springbokPload, 0x06, .pload),
        (.springbokColl, 0x07, .coll)] : List ((CoreId → Instr) × Nat × SbKind)),
      ∀ q : Quad, e.queue = .cmd q :: rest → q.op = p.2.1 →
        let ctx := fld q.w0 38 6
        let r := sbPlan p.2.2 e.nextId (s.ctxRed ctx) (s.ctxSends ctx k) d q
        (∀ f, (sbCheck p.2.2 d (s.ctxRed ctx) q).fault [] = some f →
          exec (p.1 id) s = .next (s.setCore k (d.cmdFault (s.envAt k) 6 q f 0))) ∧
        ((sbCheck p.2.2 d (s.ctxRed ctx) q).fault [] = none → OthersIdle c 6 →
          ∃ t, exec (p.1 id) s = .next t ∧ OnlyCore s t k ∧
            (t.coreAt k).engine 6 = { e with
              queue := rest
              active := [{ r with tainted := overlapping r.reads r.dests }]
              nextId := e.nextId + 1 } ∧
            (∀ m, m ≠ 6 → (t.coreAt k).engine m = c.engine m) ∧ t.coreAt k = { c with eng := (t.coreAt k).eng })) ∧
    ∀ ep ce cnt payload, e.queue = .msg ep ce cnt payload :: rest → fld ep 28 36 = 0 →
      ∃ t, ∃ r : SbActive, exec (.springbokSndMsg id) s = .next t ∧ OnlyCore s t k ∧
        (t.coreAt k).engine 6 = { e with queue := rest, active := [r], nextId := e.nextId + 1 } ∧
        r.kind = .msg ∧ r.payload = payload ∧ r.cnt = cnt ∧ r.ce = ce ∧ r.cmd.w3 = ep ∧ r.err = 0 ∧ r.out = 0 ∧
        r.todo.map (·.len) = [32] ∧ (∀ m, m ≠ 6 → (t.coreAt k).engine m = c.engine m) ∧
        t.coreAt k = { c with eng := (t.coreAt k).eng }

/-- One request of a started entry, and its time-outs. -/
def Obligations.SpringbokRequests : Prop :=
  ∀ (s : State) (id : CoreId), let k := id.key
    let c := s.coreAt k
    let e := c.engine 6
    (∀ (r : SbActive) (pc : SbPiece) (more : List SbPiece) (n : Nat),
      c.rs ≠ .fenced → e.stop = false → c.pause = none → e.freeSlot = some n → s.mmu.walks.any (fun w => decide (w.core = k) && decide (w.kind = 0)) = false →
      c.sbNext = some r → r.todo = pc :: more → r.kind = .get ∨ r.kind = .put →
      let slot := fun page => (SbSlot.mk r.id pc (e.gen % 16) s.now s.devIndex false page none)
      (pc.herd = true → s.herdDev (pc.mem / 2 ^ 39 % 128) = some s.devIndex → pc.mem % 2 ^ 39 < s.capacity →
        exec (.springbokRequestIssue id .ok) s =
          .next ((s.setCore k (c.sbTake n r (slot none))).emit
            (.mesh k 4 (s.sbMemPkt k r pc (pc.mem % 2 ^ 39) (tagOf n e.gen) false false s.devIndex)))) ∧
      (pc.herd = false → ∀ x : Tlb, let job := fld c.job 0 6
        (s.utlb k).any (fun u => u.covers job (pc.mem % 2 ^ 48)) = true →
        s.translate k job (pc.mem % 2 ^ 48) (decide (r.kind = .put)) = .hit x →
        exec (.springbokRequestIssue id .ok) s =
          .next ((s.setCore k (c.sbTake n r (slot (some (job, x.va, x.size))))).emit
            (.mesh k 4 (s.sbMemPkt k r pc (x.pa + (pc.mem % 2 ^ 48 - x.va)) (tagOf n e.gen) (decide (x.tgt = 1)) x.hc s.devIndex))))) ∧
    ∀ (n : Fin 16) (sl : SbSlot) (r : SbActive), 4 ≤ s.rfld R.fabXportCtl 0 16 → e.slot n.val = some sl → r ∈ e.active →
      e.active.find? (fun r => decide (r.id = sl.entry)) = some r →
      let ended := fun (t : State) (code : Nat) => OnlyCore s t k ∧ ((t.coreAt k).engine 6).slot n.val = none ∧
        (∀ m, m ≠ n.val → ((t.coreAt k).engine 6).slot m = e.slot m) ∧
        ((t.coreAt k).engine 6).active = e.active.map fun x =>
          if x.id = sl.entry then ({ x with out := x.out - 1 } : SbActive).fail code sl.piece.mem else x
      let T := s.rfld R.fabXportCtl 0 16 * 1000000
      (sl.pkt.isSome = true → sl.refused = true → T ≤ s.now - sl.t0 →
        ∃ t, exec (.mailboxTimeout id n) s = .next t ∧ ended t 7) ∧
      (4 * T ≤ s.now - sl.t0 → ∃ t, exec (.springbokGuardTimeout id n) s = .next t ∧
        ended t (if r.kind = .get ∨ r.kind = .gather ∨ r.kind = .pload then 3 else 2))

/-- The requests of R307 and R308 as the home serves them. -/
def Obligations.MemoryCommands : Prop :=
  (∀ (s : State) (p : Pkt) (n : Nat), p.host = false → s.channelHeld p.addr = false → s.inRange p.addr n = true →
    s.stackOut p.addr = false → (∀ l, s.lineBad l = false) →
    (p.type = 0x01 → n = p.aux % 256 + 1 →
      exec (.memRd p []) s = .next (s.emit (.pkt (p.reply 0x04 0 (Mem.bytes s.mem.bytes p.addr n) []))) ∧
      (p.addr / 64 = (p.addr + n - 1) / 64 → ∃ t, exec (.memRd p [.uncorrectable]) s = .next t ∧
        t.out = s.out ++ [.pkt (p.reply 0x04 0 (Mem.bytes s.mem.bytes p.addr n) [0])] ∧ t.lineBad (p.addr / 64) = true ∧
        t.mem.bytes = s.mem.bytes)) ∧
    (p.type = 0x02 → n = p.aux % 256 + 1 → p.data.length = n → p.poison = [] → p.addr % 64 = 0 → n % 64 = 0 →
      ∃ t, exec (.memWr p []) s = .next t ∧ t.out = s.out ++ [.pkt (p.reply 0x05 0 [] [])] ∧
        (∀ j, j < n → Mem.byte t.mem.bytes (p.addr + j) = nth 0 p.data j) ∧
        (∀ x, x < p.addr ∨ p.addr + n ≤ x → Mem.byte t.mem.bytes x = Mem.byte s.mem.bytes x) ∧ t.cores = s.cores) ∧
    (p.type = 0x03 → n = (if p.aux.testBit 3 then 8 else 4) →
      ∃ t, exec (.memAtom p []) s = .next t ∧
        t.out = s.out ++ [.pkt (p.reply 0x05 0 (Mem.bytes s.mem.bytes p.addr n) [])] ∧
        (∀ x, x < p.addr ∨ p.addr + n ≤ x → Mem.byte t.mem.bytes x = Mem.byte s.mem.bytes x) ∧ t.cores = s.cores ∧
        (p.aux.testBit 3 = true →
          let m : Word := BitVec.ofNat 64 (Mem.nat s.mem.bytes p.addr 8)
          let v := bytesWord (p.data.take 8)
          let c := bytesWord ((p.data.drop 8).take 8)
          ∀ r ∈ ([(0, m + v), (2, if v.toInt < m.toInt then v else m), (3, if m.toInt < v.toInt then v else m), (4, v),
            (5, if m = c then v else m)] : List (Nat × Word)), p.aux % 8 = r.1 →
              BitVec.ofNat 64 (Mem.nat t.mem.bytes p.addr 8) = r.2))) ∧
  (∀ (s : State) (st : Stack) (ch : Fin 16) (lane : Nat), s.mem.repairing = [(st.val, ch.val, lane)] → s.mem.held = [] →
    ∃ t, exec (.hbmLaneRepaired st ch lane) s = .next t ∧ t.mem = { s.mem with repairing := [] } ∧ t.out = s.out ∧
      t.reg (R.memStackStatus st.val) = satInc (s.reg (R.memStackStatus st.val)) 8 8 ∧
      t.host.events.map (·.code) = s.host.events.map (·.code) ++ [0x0705]) ∧
  ∀ (s : State) (st : Stack) (pc : Fin 32), exec (.hbmRefresh st pc) s = .next s

/-- What a reply does to its request. -/
def Obligations.MeshReplies : Prop :=
  (∀ (s0 s : State) (p : Pkt) (k n : Nat) (sl : SbSlot) (r : SbActive), let c := s.coreAt k
    Arrives s0 s p k → c.rs ≠ .fenced → c.sbReplySlot p.tag = some (n, sl) →
    (c.engine 6).active.find? (fun r => decide (r.id = sl.entry)) = some r →
    (∀ x ∈ (c.engine 6).active, x.id = sl.entry → x = r) →
    (p.type = 0x04 → (r.kind = .get ∧ r.cmd.z = false) → r.tainted = false → r.shared = [] → p.poison = [] →
      ∃ t, exec (.memRdData p) s0 = .next t ∧ Replied s t k n sl.entry (fun x => { x with bytes := x.bytes + p.data.length })
        (Mem.write c.scratch sl.piece.scr p.data)) ∧
    (p.type = 0x05 → r.kind ≠ .atom →
      ∃ t, exec (.memAck p) s0 = .next t ∧
        Replied s t k n sl.entry (fun x => { x with bytes := x.bytes + sl.piece.len }) c.scratch) ∧
    (p.type = 0x05 → r.kind = .atom → r.tainted = false → r.shared = [] → p.poison = [] → bit r.cmd.w2 3 = true →
      ∃ t, exec (.memAck p) s0 = .next t ∧ Replied s t k n sl.entry (fun x => { x with bytes := x.bytes + 8 })
        (Mem.write c.scratch (r.cmd.sAddr + 16) (p.data.take 8))) ∧
    (p.type = 0x07 → ∃ t, exec (.cputAck p) s0 = .next t ∧
      Replied s t k n sl.entry (fun x => { x with bytes := x.bytes + sl.piece.len }) c.scratch) ∧
    (p.type = 0x09 → ∃ t, exec (.msgAccept p) s0 = .next t ∧
      Replied s t k n sl.entry (fun x => { x with bytes := 32 }) c.scratch) ∧
    (p.type = 0x0B → (r.kind ≠ .cput ∨ p.aux % 256 ≠ 9) → ∃ t, exec (.status p) s0 = .next t ∧
      Replied s t k n sl.entry (fun x => x.fail (p.aux % 256) sl.piece.mem) c.scratch) ∧
    ∀ q, p.type = 0x0A → sl.pkt = some q → q.dstDev = s.devIndex →
      exec (.msgRefuse p) s0 = .next ((s.setCore k (c.setEngine 6 { c.engine 6 with
        slots := SMap.set (fun _ => none) (c.engine 6).slots n (some { sl with refused := true }) })).emit (.mesh k 4 q))) ∧
  (∀ (s0 s : State) (p : Pkt) (k : Nat) (r : SbActive), let c := s.coreAt k
    Arrives s0 s p k → p.type = 0x0E → p.mc = 1 →
    (c.engine 6).active.find? (fun r => decide (r.kind = .coll) && decide (fld r.cmd.w0 38 6 = p.ctx)) = some r →
      (p.aux = 0 → exec (.tailAck p) s0 = .next (s.setCore k (c.sbUpd r.id fun x => { x with tails := x.tails + 1 }))) ∧
      (p.aux = 1 → exec (.tailAck p) s0 =
        .next (s.setCore k (c.sbUpd r.id fun x => ({ x with tails := x.tails + 1 } : SbActive).fail 1 x.errAddr)))) ∧
  ∀ (s0 s : State) (p : Pkt), p.type = 0x12 → p.dstDie < 8 → s0.meshTake p (atEdge p.dstDie) = some s →
    exec (.mgtRsp p) s0 = .next { s with mmu := { s.mmu with
      dieRsp := SMap.set (fun _ => (0, [])) s.mmu.dieRsp p.dstDie (p.err.toNat, p.data) } }

/-- The receiving side of the mesh. -/
def Obligations.MeshRequests : Prop :=
  (∀ (s0 s : State) (p : Pkt) (k : Nat), let c := s.coreAt k
    let answers := fun (x : Instr) (c : Core) (q : Pkt) => exec x s0 = .next ((s.setCore k c).emitCore k q)
    Arrives s0 s p k → c.rs ≠ .fenced → c.stopping = false → p.poison = [] →
    (p.type = 0x06 → p.addr + p.data.length ≤ 0x180000 →
      (p.packed = none →
        let d := c.storeBy (s.envAt k) false p.addr p.data
        (p.inc = none → answers (.cput p) d (p.reply 0x07 0 [] [])) ∧
        ∀ n, p.inc = some n → answers (.cput p) (d.incCnt (BitVec.ofNat 4 n)) (p.reply 0x07 0 [] [])) ∧
      ∀ entry n, p.packed = some (entry, n, false) → p.inc = none →
        let pipe := SMap.set (fun _ => []) c.pipe (streamKey p entry)
          (SMap.get (fun _ => []) c.pipe (streamKey p entry) ++ [(n, p.data)])
        answers (.cput p) { c with pipe := pipe } (p.reply 0x07 0 [] [])) ∧
    (p.type = 0x08 →
      let w := fun i => bytesWord ((p.data.drop (8 * i)).take 8)
      (c.mail.length < 32 →
        answers (.msg p) { c with mail := c.mail ++ [⟨⟨w 0, w 1, w 2, w 3⟩, senderWord p⟩] } (p.reply 0x09 0 [] [])) ∧
      (32 ≤ c.mail.length → exec (.msg p) s0 = .next (s.emitCore k (p.reply 0x0A 0 [] [])))) ∧
    (p.type = 0x11 → p.addr + p.data.length ≤ 0x20000 →
      answers (.psWr p) { c with pstore := Mem.write c.pstore p.addr p.data } (p.reply 0x12 0 [] [])) ∧
    (∀ v, p.type = 0x0F → c.csrRead (s.envAt k) (p.addr % 4096) = some v →
      exec (.csrRdRequest p) s0 = .next (s.emitCore k (p.reply 0x12 0 (wordBytes v) []))) ∧
    (p.type = 0x10 →
      answers (.csrWrRequest p) (c.csrWrite (s.envAt k) (p.addr % 4096) .wr (bytesWord (p.data.take 8)) true)
        (p.reply 0x12 0 [] []))) ∧
  (∀ (s0 s : State) (r : CoreId) (inp : Fin 5) (p : Pkt) (e : RedEntry), let k := r.key
    let rt := s.routerAt k
    s0.dieUp r.die.val = true →
    s0.meshTake { p with dstDie := r.die.val, dstRow := r.row.val, dstCol := r.col.val } (atInput k inp.val) = some s →
    p.hdr = .ok → p.fixed = 0 → p.type = 0x0C → p.meshValid = true →
    SMap.get (fun _ => none) rt.entries p.ctx = some e → e.red = 1 ∨ e.red = 2 → p.red = e.red →
    p.aux = 0 → p.poison = [] → e.inputs.testBit inp.val = true →
    (rt.slots = [] → p.chunk = 0 → inp ≠ 0 → e.inputs.testBit 0 = true → (s.coreAt k).rs ≠ .fenced →
      (s.coreAt k).stopping = false → exec (.red r inp p) s0 =
        .next (s.setRouter k { rt with slots := [⟨p.ctx, 0, p.data, 2 ^ inp.val, false, []⟩] })) ∧
    ∀ sl : RedSlot, rt.slots = [sl] → sl.ctx = p.ctx → sl.chunk = p.chunk → sl.void = false → sl.poison = [] →
      sl.sum.length = p.data.length → sl.seen.testBit inp.val = false → sl.seen + 2 ^ inp.val = e.inputs → e.out = 5 →
      ∃ q : Pkt, exec (.red r inp p) s0 = .next ((s.setRouter k { rt with slots := [] }).emit (.mesh k 13 q)) ∧
        q.type = 0x0C ∧ q.ctx = p.ctx ∧ q.chunk = p.chunk ∧ q.red = e.red ∧ q.aux = 0 ∧ q.poison = [] ∧
        q.data = addPayload (if e.red = 2 then .bf16 else .fp32) sl.sum p.data) ∧
  ∀ (s0 s : State) (r : CoreId) (p : Pkt), let k := r.key
    let sp := s.spares r.die.val r.row.val
    let q := { p with dstDie := r.die.val, dstRow := r.row.val, dstCol := r.col.val }
    let out := mcDir p r.row.val r.col.val
    s0.dieUp r.die.val = true → s0.meshTake q (atVc1 k) = some s → p.hdr = .ok → p.fixed = 0 → p.type = 0x0D →
    p.meshValid = true → r.col.val = sp.1 ∨ r.col.val = sp.2 →
    let ends := p.mc = 0 ∨ (if p.mc = 1 then r.col.val else r.row.val) = p.mcLast
    (¬ ends → s.mcCredit k out q = true → exec (.mcast r p) s0 = .next (s.emit (.mesh k (8 + out) q))) ∧
    (ends → exec (.mcast r p) s0 = .next (s.emit (.mesh k 5 { q.reply 0x0E p.skip.toNat [] [] with
      srcDie := r.die.val
      srcRow := r.row.val
      srcCol := r.col.val
      mc := p.mc
      void := false
      skip := false })))

/-- R235 to R244 as commands. -/
def Obligations.TranslationCommands : Prop :=
  (∀ (s : State) (id : CoreId) (w : Walk), let k := id.key
    let a := w.table + 8 * walkIndex w.level w.va
    let e : Word := BitVec.ofNat 64 (Mem.nat s.mem.bytes a 8)
    let addr := fld e 8 40 * 256
    let size := walkSize w.level
    s.mmu.walks = [w] → w.core = k → w.tgt = 0 → w.kind = 0 → s.inRange a 8 = true → s.stackOut a = false →
    s.channelHeld a = false → s.lineBad (a / 64) = false →
    let ended := { s with mmu := { s.mmu with walks := [] } }
    (bit e 0 = true → entryOk e w.level = true → bit e 1 = false →
      exec (.walkEntryRead id .ok 0 []) s = .next { s with mmu := { s.mmu with
        walks := [{ w with level := w.level + 1, table := addr, tgt := fld e 4 2 }] } }) ∧
    (bit e 0 = true → entryOk e w.level = true → bit e 1 = true → w.access = 0 ∨ bit e 2 = true →
      fld e 4 2 = 1 ∨ addr + size ≤ s.capacity →
      exec (.walkEntryRead id .ok 0 []) s = .next (ended.fillTlb k {
        job := w.job
        va := w.va / size * size
        size := size
        pa := addr
        tgt := fld e 4 2
        hc := bit e 7
        w := bit e 2 })) ∧
    ∀ r : SbActive, bit e 0 = false → (s.coreAt k).sbNext = some r → s.fw.pausing = none →
      ∃ t, exec (.walkEntryRead id .ok 0 []) s = .next t ∧ t.mmu.walks = [] ∧
        (∃ f, t.mmu.faults = s.mmu.faults ++ [f] ∧ f.core = k ∧ f.job = fld (s.coreAt k).job 0 6 ∧ f.va = w.va ∧
          f.access = w.access ∧ f.cause = 1 ∧ f.kind = 0 ∧ f.raised = s.now ∧
          ((t.coreAt k).engine 6).active = ((s.coreAt k).engine 6).active.map fun x =>
            if x.id = r.id then { x with faulted := some f.id } else x) ∧
        t.host.events.map (·.code) = s.host.events.map (·.code) ++ [0x0701] ∧ t.out = s.out) ∧
  (∀ (s : State) (f : MFault) (r : SbActive), s.mmu.faults.find? (fun x => decide (x.id = f.id)) = some f → f.kind = 0 →
    s.rfld R.mmuFaultTimeout 0 32 ≠ 0 → s.rfld R.mmuFaultTimeout 0 32 * 1000000 ≤ s.now - f.raised →
    ((s.coreAt f.core).engine 6).active.find? (fun x => decide (x.faulted = some f.id)) = some r →
      exec (.faultTimeout f.id) s = .next
        (({ s with mmu := { s.mmu with faults := s.mmu.faults.filter fun x => decide (x.id ≠ f.id) } } : State).setCore f.core
          ((s.coreAt f.core).sbUpd r.id fun x => ({ x with faulted := none } : SbActive).fail 4 f.va))) ∧
  (∀ (s : State) (v : Word), v &&& ~~~ 0xFFFFFFFF#64 = 0 → s.mmu.faults = [] →
    exec (.mmuFaultTimeoutWrite v) s = .next (s.setReg R.mmuFaultTimeout v)) ∧
  (∀ (s : State) (v : Word), v &&& ~~~ 0xF03FFFFFFFFF0000#64 = 0 → s.mmu.invs.length < 16 →
    let i := Inval.ofWord v (fld v 48 6)
    i.scope < 3 → (i.scope = 0 → i.size ≠ 3) →
      ∃ t, exec (.mmuInvWrite v) s = .next t ∧ t.mmu.invs = s.mmu.invs ++ [i] ∧
        (∀ k, (∀ x ∈ t.utlb k, i.hits x.job x.va x.size = false) ∧
          (∀ x ∈ t.dtlb k, i.hits x.job x.va x.size = false) ∧
          (∀ x ∈ s.utlb k, i.hits x.job x.va x.size = false → x ∈ t.utlb k) ∧
          ∀ x ∈ s.dtlb k, i.hits x.job x.va x.size = false → x ∈ t.dtlb k) ∧
        bit (t.reg R.mmuInvStatus) 0 = true ∧ t.cores = s.cores ∧ t.mem = s.mem) ∧
  ∀ (s : State) (i : Inval), s.mmu.invs = [i] → i.entry = none → s.invBusy i = false →
    ∃ t, exec (.invalidationDone 0) s = .next t ∧ t.mmu = { s.mmu with invs := [] } ∧
      bit (t.reg R.mmuInvStatus) 0 = false ∧ t.rfld R.mmuInvStatus 32 16 = (s.rfld R.mmuInvStatus 32 16 + 1) % 2 ^ 16

/-- R196 to R203, R205 and R209 as commands. -/
def Obligations.ChometCommands : Prop :=
  (∀ (s : State) (at_ from_ : Stop) (word : Word), let r := at_.val
    let w := from_.val
    let x := s.chR r w
    let y := s.chW r w
    let good := fun kind => fld word 0 8 = crc8 word ∧ fld word 60 4 = kind ∧ (kind = 1 ∨ kind = 7 ∨ fld word 55 5 = r)
    (good 2 → x.win = none → (s.windows r).length < 8 → ∀ n, n < 8 → n ∉ s.windows r → (∀ m, m < n → m ∈ s.windows r) →
      exec (.winReq at_ from_ word) s =
        .next (((s.setChR r w { x with win := some n, credits := windowPackets r, owed := 0 }).showWindows r).emit
          (.ctl r (grantWord w n (windowPackets r))))) ∧
    (∀ n, good 2 → x.win = some n → exec (.winReq at_ from_ word) s = .next (s.emit (.ctl r (grantWord w n x.credits)))) ∧
    (good 2 → x.win = none → 8 ≤ (s.windows r).length → w ∉ s.waiting r →
      exec (.winReq at_ from_ word) s = .next (s.setWaiting r (s.waiting r ++ [w]))) ∧
    (good 3 → s.base.wait = [] → exec (.winGrant at_ from_ word) s =
      .next (s.setChW r w { y with
        win := some (fld word 52 3)
        credits := fld word 43 9
        reqAt := none
        last := s.now })) ∧
    (good 4 → x.win.isSome = true → s.waiting r = [] → exec (.winRelease at_ from_ word) s =
      .next ((s.setChR r w { x with win := none, credits := 0, owed := 0 }).showWindows r)) ∧
    (good 7 → exec (.map at_ from_ word) s = .next (s.setChR r w { x with
      maps := x.maps ++ [(fld word 49 2, fld word 57 3, fld word 52 5, fld word 51 1)] })) ∧
    (good 1 → bit word (32 + r) = true →
      let burst := fun moved => ChBurst.mk (fld word 24 8) (decide (fld word 32 28 ≠ 2 ^ r)) (fld word 16 6 + 1) moved s.now
      ((∀ m ∈ x.maps, m.1 ≠ fld word 22 2) → exec (.announce at_ from_ word) s = .next (s.setChR r w { x with
        credits := x.credits - (fld word 16 6 + 1)
        bursts := x.bursts ++ [burst x.moved] })) ∧
      ∀ m, x.maps = [(fld word 22 2, m)] → exec (.announce at_ from_ word) s = .next (s.setChR r w { x with
        credits := x.credits - (fld word 16 6 + 1)
        bursts := x.bursts ++ [burst (flipMove m x.moved)]
        mapGen := fld word 22 2
        moved := flipMove m x.moved
        maps := [] })) ∧
    (fld word 0 8 ≠ crc8 word → exec (.winReq at_ from_ word) s = .next (s.count (R.baseStopErr r) 32 8)) ∧
    (∀ t0, y.reqAt = some t0 → y.win = none → 2000 ≤ s.now - t0 → exec (.winReqRetry at_ from_) s =
      .next ((s.setChW r w { y with reqAt := some s.now }).emit (.ctl r (ctlWord 2 (w * 2 ^ 55))))) ∧
    (y.win.isSome = true → (y.retry = [] ∧ 64 ≤ s.now - y.last) ∨ y.flagged.isSome = true →
      exec (.windowIdleRelease at_ from_) s =
        .next ((s.setChW r w { y with win := none, credits := 0, flagged := none }).emit (.ctl r (ctlWord 4 (w * 2 ^ 55))))) ∧
    ∀ (s1 : State) (p : Pkt), w ≠ r → s.stopUp r = true → s.wgsUp r ≠ [] → s1.base.wait = [] →
      (8 ≤ r ∧ s1 = s) ∨ (r < 8 ∧ s.readerOk p w = true ∧ s.leaveDie r p = some s1) →
      let y := s1.chW r w
      let gs := s1.wgsUp r
      let ann := Out.ctl r (ctlWord 1 (2 ^ w * 2 ^ 32 + (gs.foldl (fun m g => m + 2 ^ g) 0) * 2 ^ 24
        + s1.rfld (R.baseStopStatus r) 2 2 * 2 ^ 22 + SMap.get (fun _ => 0) s1.base.bursts r % 256 * 2 ^ 8))
      gs ≠ [] →
      (y.win.isSome = true → 1 ≤ y.credits → ∃ t, exec (.burstStart at_ [from_] [p]) s = .next t ∧
        (s1.bySeamLink r w = false → t.out = s1.out ++ [ann, .burst r w y.seq (nth 0 gs 0) false p] ∧ t.base.seam = s1.base.seam) ∧
        (s1.bySeamLink r w = true → t.out = s1.out ++ [ann] ∧ t.base.seam = s1.base.seam ++ [{
          dir := (eastStop r).toNat
          mgmt := decide (p.meshVn = 3)
          bytes := 32 + (p.data.length + 31) / 32 * 32
          writer := r
          reader := w
          seq := y.seq
          wg := nth 0 gs 0
          pkt := p }]) ∧
        t.chW r w = { y with
          seq := (y.seq + 1) % 2 ^ 16
          credits := y.credits - 1
          last := s1.now
          retry := y.retry ++ [(y.seq, nth 0 gs 0, s1.now, 0, p)] } ∧ t.regs = s1.regs ∧ t.cores = s1.cores) ∧
      (y.win = none → y.reqAt = none → exec (.burstStart at_ [from_] [p]) s =
        .next (let t := (s1.setChW r w { y with reqAt := some s1.now }).emit (.ctl r (ctlWord 2 (w * 2 ^ 55)))
          { t with base := { t.base with wait := [⟨r, [w], [p]⟩] } }))) ∧
  (∀ (s : State) (r w : Stop) (seq : Nat) (p : Pkt), let x := s.chR r.val w.val
    (x.bursts = [] → ∀ ok, exec (.chometPacket r w seq ok p) s = .next s) ∧
    ∀ (b : ChBurst) (more : List ChBurst), x.bursts = b :: more → seq < 2 ^ 16 →
      let y := { x with bursts := if b.left ≤ 1 then more else { b with left := b.left - 1 } :: more }
      let ack := Out.ctl r.val (ctlWord 5 (w.val * 2 ^ 55 + seq * 2 ^ 39 + (x.owed + 1) * 2 ^ 30
        + (!(s.waiting r.val).isEmpty).toNat * 2 ^ 29))
      (s.sramOwner = 0 → x.held = [] → x.expect = seq → ∃ t, exec (.chometPacket r w seq true p) s = .next t ∧
        t.chR r.val w.val = { y with
          expect := (seq + 1) % 2 ^ 16
          credits := x.credits + (x.owed + 1)
          owed := 0 } ∧
        (8 ≤ r.val ∨ s.goesIn p = false → t.out = s.out ++ [.pkt p, ack]) ∧
        (r.val < 8 → s.goesIn p = true → p.meshVn = 0 → s.dieUp r.val = true →
          SMap.get (fun _ => 0) s.base.slots r.val < 4096 →
          t.out = s.out ++ [.mesh (s.ingressAt r.val p).1 (s.ingressAt r.val p).2 p, ack] ∧
          SMap.get (fun _ => 0) t.base.slots r.val = SMap.get (fun _ => 0) s.base.slots r.val + 1) ∧
        t.regs = s.regs ∧ t.cores = s.cores) ∧
      (exec (.chometPacket r w seq false p) s =
        .next (((s.setChR r.val w.val { y with owed := x.owed + 1 }).count (R.baseStopErr r.val) 40 24).emit
          (.ctl r.val (ctlWord 6 (w.val * 2 ^ 55 + seq * 2 ^ 39))))) ∧
      (s.sramOwner = 0 → 2 ^ 15 ≤ (seq + 2 ^ 16 - x.expect) % 2 ^ 16 →
        exec (.chometPacket r w seq true p) s =
          .next ((s.setChR r.val w.val { y with owed := x.owed + 1 }).ack r.val w.val))) ∧
  (∀ (s : State) (at_ from_ : Stop) (word : Word), let y := s.chW at_.val from_.val
    let done := fun q => decide ((fld word 39 16 + 2 ^ 16 - q) % 2 ^ 16 < 2 ^ 15)
    fld word 0 8 = crc8 word → fld word 60 4 = 5 → fld word 55 5 = at_.val → bit word 29 = false → s.base.wait = [] →
      ∃ t, exec (.chometAck at_ from_ word) s = .next t ∧ t = { s with base := t.base } ∧
        t.chW at_.val from_.val = { y with
          retry := y.retry.filter fun e => !done e.1
          credits := y.credits + fld word 30 9
          flagged := none } ∧
        t.base.rd = s.base.rd ∧ t.base.waiting = s.base.waiting ∧ t.base.wait = [] ∧
        let n := SMap.get (fun _ => 0) s.base.delivered at_.val
        (s.base.casts = [] → t.base.casts = [] ∧ SMap.get (fun _ => 0) t.base.delivered at_.val = n) ∧
        ∀ q, s.base.casts = [⟨at_.val, [(from_.val, q)]⟩] → done q = true →
          t.base.casts = [] ∧ SMap.get (fun _ => 0) t.base.delivered at_.val = n + 1) ∧
  ∀ (s : State) (at_ from_ : Stop) (seq wg t0 n : Nat) (p : Pkt), let w := at_.val
    let r := from_.val
    let y := s.chW w r
    y.retry.find? (fun e => decide (e.1 = seq)) = some (seq, wg, t0, n, p) → n < 8 → s.wgsUp w ≠ [] →
    let nak := fun word : Word => fld word 0 8 = crc8 word ∧ fld word 60 4 = 6 ∧ fld word 55 5 = w ∧ fld word 39 16 = seq
    (y.win.isSome = true → 1 ≤ y.credits → s.bySeamLink w r = false →
      let c := ((s.setChW w r { y with
        credits := y.credits - 1
        retry := y.retry.map fun e => if e.1 = seq then (seq, wg, s.now, n + 1, p) else e }).count (R.baseStopErr w) 0 32).ledger 27
      let again := ((if crossesSeam w r then c.count R.baseSeamErr 0 32 else c).announce w [r] 1).emit (.burst w r seq wg false p)
      (∀ word : Word, nak word → exec (.chometNak at_ from_ word) s = .next again) ∧
      (1000 ≤ s.now - t0 → exec (.chometResendTimeout at_ from_ seq) s = .next again)) ∧
    (y.win = none → y.reqAt = none →
      let asks := (s.setChW w r { y with reqAt := some s.now }).emit (.ctl w (ctlWord 2 (r * 2 ^ 55)))
      (∀ word : Word, nak word → exec (.chometNak at_ from_ word) s = .next asks) ∧
      (1000 ≤ s.now - t0 → exec (.chometResendTimeout at_ from_ seq) s = .next asks))

/-- R209 to R217 as commands. -/
def Obligations.BaseLinkCommands : Prop :=
  ∀ s : State,
    (∀ m : BitVec 4, s.held = true → bit (s.reg R.baseSeamStatus) 0 = true →
      2 ≤ ((rangeFrom 0 4).filter fun i => m.getLsbD i).length → exec (.seamBridgeDown m) s =
        .next (((s.setRfld R.baseSeamStatus 0 1 0).setRfld R.baseSeamStatus 4 4 m.toNat).event 0x0601 (b1 m.toNat))) ∧
    (∀ t0, s.held = true → bit (s.reg R.baseSeamStatus) 0 = false → t0 + 1000000000 ≤ s.now →
      let up := (s.setRfld R.baseSeamStatus 0 1 1).setRfld R.baseSeamStatus 4 4 0
      exec (.seamBridgeUp t0 []) s = .next (up.event 0x0602 []) ∧
      ∀ (st : Stop) (wg : Nat), wg < wgCount st.val → exec (.seamBridgeUp t0 [(st, wg)]) s =
        .next ((up.setReg (R.baseStopStatus st.val) (setBit (up.reg (R.baseStopStatus st.val)) (16 + wg) false)).event 0x0602 [])) ∧
    (∀ (dir : Fin 2) (n : Nat), let lo := seamSpares dir.val
      let c := s.countBy R.baseSeamErr 32 32 n
      16 ≤ n → s.rfld R.baseSeamStatus lo 5 < 16 → exec (.seamWireSpared dir n) s =
        .next ((c.setRfld R.baseSeamStatus lo 5 (s.rfld R.baseSeamStatus lo 5 + 1)).ledger 31)) ∧
    (∀ (dir : Fin 2) (n : Nat), s.rfld R.baseSeamStatus (seamSpares dir.val) 5 = 16 →
      s.rfld R.baseSeamStatus (seamWidth dir.val) 2 = 0 → 144 ≤ n → exec (.seamWireFailed dir n) s =
        .next (((s.setRfld R.baseSeamStatus (seamWidth dir.val) 2 1).setRfld R.baseSeamStatus (seamSpares dir.val) 5 0).event
          0x0603 (b1 dir.val))) ∧
    ∀ (d : Die) (g : Fin 40), let k := 40 * d.val + g.val
      let st := R.vliGroupStatus k
      (∀ wire n, let c := s.countBy (R.vliGroupErr k) 0 32 n
        bit (s.reg st) 4 = false → s.rfld R.vliThresh 0 16 ≤ n → s.rfld st 12 3 < 4 → exec (.vliWireSpared d g wire n) s =
          .next ((((c.setRfld st 12 3 (s.rfld st 12 3 + 1)).ledger 29).event 0x0606
            (b1 d.val ++ b1 g.val ++ b1 wire)).dieEdge d.val 20)) ∧
      (∀ n, let c := s.countBy (R.vliGroupErr k) 32 32 n
        bit (s.reg st) 4 = false → k ∉ s.base.vliFailed →
          ∀ fifth, s.rfld R.vliThresh 32 16 ≤ n ∨ (fifth = true ∧ 4 ≤ s.rfld st 12 3) → exec (.vliGroupFailed d g n fifth) s =
            .next (({ c with base := { s.base with vliFailed := s.base.vliFailed ++ [k] } } : State).dieEdge d.val 20)) ∧
      (k ∈ s.base.vliFailed → s.dieState d.val ≠ 0 → ∃ t, exec (.vliGroupRetired d g) s = .next t ∧
        t.base = { s.base with vliFailed := s.base.vliFailed.filter fun x => decide (x ≠ k) } ∧
        bit (t.reg st) 4 = true ∧ t.host.events.map (·.code) = s.host.events.map (·.code) ++ [0x0607] ∧
        ∀ x, s.rfld st 0 2 ≠ 3 → (s.groupsIn d.val 3).head? = some x →
          t.rfld (R.vliGroupStatus (40 * d.val + x)) 0 2 = s.rfld st 0 2 ∧
          t.rfld (R.vliGroupStatus (40 * d.val + x)) 16 6 = g.val)

/-- R246 to R253; which cores belong to a job and where the engine area is kept are the model's (log entry 18). -/
def Obligations.PreemptAndResume : Prop :=
  ∀ (s : State) (d : Die), s.mmu.faults = [] → s.fw.pausing = none →
    (∀ (e : SqEntry) (rest : List SqEntry), let ks := s.jobCores d.val e.job
      s.xfer d.val = none → s.dieQueue d.val = e :: rest → e.op = 0x03 → ks ≠ [] → ks.all (fun k => (s.coreAt k).stopping) = false →
      ∃ t, exec (.preempt d) s = .next t ∧ t.dieQueue d.val = rest ∧ t.mem = s.mem ∧ t.out = s.out ∧
        (∀ k ∈ ks, (t.coreAt k).rs.halted = true ∧ ∀ n, n < 7 → ((t.coreAt k).engine n).stop = true) ∧
        (∀ k, k ∉ ks → t.coreAt k = s.coreAt k) ∧
        ∃ x, t.xfer d.val = some x ∧ x.save = true ∧ x.job = e.job ∧ x.base = e.saveBase ∧ x.cores.map (·.key) = ks ∧
          x.status = none ∧ x.seq = (SMap.get (fun _ => 0) s.mmu.saveSeq d.val + 1) % 2 ^ 64) ∧
    (∀ (tabs : List (Nat × List Byte)) (ecc : List (Nat × LineRead)) (x : Transfer) (xc : XferCore) (s1 : State) (pages : List Nat),
      let c := s1.coreAt xc.key
      s.xfer d.val = some x → x.save = true → x.status = none → x.cores = [xc] → xc.pages = [] →
      (s.coreAt xc.key).rs ≠ .fenced → (s.coreAt xc.key).enginesHeld = true → c.rs ≠ .fenced →
      s.xferPages ⟨tabs, ecc⟩ x [xc.key] 0 27 = (s1, ⟨[(xc.key, pages)], [], false⟩) → pages.any s1.pageOut = false →
      ∃ t, exec (.preemptDone d ⟨tabs, ecc⟩) s = .next t ∧ t.xfer d.val = none ∧
        t.mem.bytes = Mem.write (writePages s1.mem.bytes pages (saveRecord (s1.envAt xc.key) c x xc
          (s1.logCol d.val (keyPos xc.key).2.1 (keyPos xc.key).2.2) (s1.freeBytes 14336).2))
          (nth 0 pages 26 + 0xFFF8) (natToBytes 8 (2 ^ 64 - 1 - x.seq)) ∧
        (∀ n, n < 7 → ((t.coreAt xc.key).engine n).queue = [] ∧ ((t.coreAt xc.key).engine n).run = none ∧
          ((t.coreAt xc.key).engine n).active = [] ∧ ((t.coreAt xc.key).engine n).stop = true) ∧
        (∀ k, k ≠ xc.key → t.coreAt k = s1.coreAt k) ∧
        (∃ ev, t.host.events = s1.host.events ++ [ev] ∧ ev.code = 0x0708 ∧ ev.detail = b1 x.job ++ b1 d.val ++ b1 0) ∧
        t.dieIntc d.val = (s1.dieIntc d.val).edge 24) ∧
    (∀ (e : SqEntry) (rest : List SqEntry) (x : Transfer) (xc : XferCore),
      s.xfer d.val = none → s.dieQueue d.val = e :: rest → e.op = 0x04 → bit (e.w 2) 8 = true → s.mmu.stopped = [(d.val, x)] →
      x.job = e.job → x.cores = [xc] → (s.coreAt xc.key).rs ≠ .fenced →
      ∃ t, exec (.resume d ⟨[], []⟩) s = .next t ∧ t.dieQueue d.val = rest ∧ t.mmu.stopped = [] ∧
        t.xfer d.val = some { x with
          save := false
          status := some 0
          ring := e.ring
          index := e.index } ∧
        t.coreAt xc.key = (s.coreAt xc.key).runAgain xc.state ∧ ∀ k, k ≠ xc.key → t.coreAt k = s.coreAt k) ∧
    ∀ (x : Transfer) (st : Nat), s.xfer d.val = some x → x.save = false → x.status = some st → st ≠ 7 → st ≠ 1 →
      ∃ t, exec (.resumeDone d ⟨[], []⟩) s = .next t ∧ t.xfer d.val = none ∧ t.cores = s.cores ∧ t.mem = s.mem ∧
        (∃ ev, t.host.events = s.host.events ++ [ev] ∧ ev.code = 0x0709 ∧ ev.detail = b1 x.job ++ b1 d.val ++ b1 st) ∧ t.dieIntc d.val = (s.dieIntc d.val).edge 24

/-- R268 to R273 and R300 as commands. -/
def Obligations.PortLinkCommands : Prop :=
  ∀ (s : State) (p : Port), let n := p.val
    let l := s.link n
    let lanes := R.portLaneStatus n
    (∀ good : BitVec 18, s.portState n = 1 → s.portDark n = false → s.opt.search = none →
      16 ≤ ((rangeFrom 0 18).filter fun w => good.getLsbD w).length →
      ∃ t, exec (.linkTrainingStart p good) s = .next t ∧ t.portState n = 2 ∧ t.rfld lanes 4 2 = 0 ∧
        t.out = s.out ++ [.train n s.devIndex (Config.topoDigest (s.reg R.fabTopo)) (t.laneMap n)] ∧
        t = { s with regs := t.regs, stagCtl := t.stagCtl, out := t.out } ∧
        ∀ u, u < 4 → t.stagIntc u = (s.stagIntc u).edge (28 + n)) ∧
    (∀ dev port digest lanes, s.portState n = 2 → s.cabledRight n dev port = true → (s.topoValid = true → s.devFenced dev = false) →
      dev < 2 ^ 9 → port < 12 →
      ∃ t, exec (.trainFlit p dev ⟨port, digest, lanes⟩) s = .next t ∧ t.portState n = 3 ∧
        t.reg (R.portNeighbour n) = BitVec.ofNat 64 (2 ^ 63 + dev * 2 ^ 16 + port) ∧
        t.link n = { l.fresh with after := s.standIns n, digest := digest, lanes := lanes } ∧ t.out = s.out ∧
        t.host.events.map (·.code) = s.host.events.map (·.code) ++ [0x0801]) ∧
    (∀ f : Flit, s.portUp n = true → l.rxBad = 0 → f.seq = l.rxSeq → f.seq < 4096 →
      let took := { l with rxSeq := (l.rxSeq + 1) % 4096, rxAny := true, nakSent := false }
      (f.tail = false → ∃ t, exec (.linkFlit p f .good none 12 0) s = .next t ∧ t.out = s.out ++ [.idle n (some f.seq) 15 0] ∧
        t.link n = { took with
          rxPkt := if f.stomp then none else if f.head then f.pkt else l.rxPkt
          rxN := if f.stomp then 0 else if f.head then 1 else l.rxN + 1 }) ∧
      ∀ k, f.tail = true → f.head = true → f.stomp = false → f.vc < 3 → f.pkt = some k → k.type ≠ 0x19 → fabVn k.type ≠ 2 →
        ∃ t, exec (.linkFlit p f .good none 12 0) s = .next t ∧ t.out = s.out ++ [.idle n (some f.seq) 15 0] ∧
          t.link n = { took with rxPkt := none, rxN := 0 } ∧
          t.fab.queue = s.fab.queue ++ [{
            stop := n / 3
            pkt := k
            vc := f.vc
            dst := f.dst
            port := some n
            from_ := s.portDir n }]) ∧
    (∀ f : Flit, s.portUp n = true → l.nakSent = false →
      (l.rxBad = 0 → exec (.linkFlit p f .crc none 12 0) s = .next (((((s.count (R.portErr n) 0 32).ledger 19).setLink n
        { l with nakSent := true })).emit (.nak n l.rxSeq))) ∧
      ∀ more, ∃ t, exec (.linkFlit p f (.codeword more) none 12 0) s = .next t ∧ t.out = s.out ++ [.nak n l.rxSeq] ∧
        t.link n = { l with rxBad := more, nakSent := true } ∧
        t.rfld (R.portErr n) 0 32 = min (2 ^ 32 - 1) (s.rfld (R.portErr n) 0 32 + 1) ∧
        t.rfld (R.portErr n) 32 32 = min (2 ^ 32 - 1) (s.rfld (R.portErr n) 32 32 + 1)) ∧
    (∀ (f : Flit) (m : Nat), s.portUp n = true → l.nakSent = true → l.rxBad = m + 1 →
      ∃ t, exec (.linkFlit p f .good none 12 0) s = .next t ∧ t.out = s.out ∧ t.link n = { l with rxBad := m }) ∧
    (∀ seq, s.portState n = 3 → l.replay = [] → seq < 4096 → l.nakSeq ≠ seq → ∃ t, exec (.flitNak p seq) s = .next t ∧
      t.portState n = 4 ∧ t.out = s.out ∧ t.rfld (R.portLinkStats n) 0 32 = min (2 ^ 32 - 1) (s.rfld (R.portLinkStats n) 0 32 + 1) ∧
      t.link n = { l with
        acked := seq
        nakSeq := seq
        naks := 1
        replayAt := some s.now
        replayFrom := seq
        replayed := true }) ∧
    (∀ t0 f, s.portState n = 3 → l.replay = [(t0, f)] → l.oldest = some (t0, f) → f.seq < 4096 → 2000 ≤ s.now - t0 →
      ∃ t, exec (.replayTimeout p) s = .next t ∧ t.portState n = 4 ∧ t.out = s.out ++ [.flit n f l.ackOut]) ∧
    (∀ t0, l.replayAt = some t0 → s.portState n = 4 → 20000 ≤ s.now - t0 →
      exec (.replayStall p) s = .next (s.startRetrain n)) ∧
    (s.portUp n = true → exec (.portCmdRetrain p) s = .next (s.startRetrain n)) ∧
    (let t := s.startRetrain n;
      t.portState n = 5 ∧ t.out = s.out ++ [.train n s.devIndex (Config.topoDigest (s.reg R.fabTopo)) (t.laneMap n)] ∧
        t.rfld (R.portLinkStats n) 48 16 = min (2 ^ 16 - 1) (s.rfld (R.portLinkStats n) 48 16 + 1)) ∧
    (∀ (good : BitVec 18) (expect : Nat), s.portState n = 5 → l.replay = [] → l.owe = [] →
      (∀ t0, l.retrainAt = some t0 → s.now - t0 < 1500000) → 16 ≤ ((rangeFrom 0 18).filter fun w => good.getLsbD w).length →
      ∃ t, exec (.retrainComplete p good expect) s = .next t ∧ t.portState n = 3 ∧ t.rfld lanes 4 2 = 0 ∧
        t.link n = { l with
          retrainAt := none
          nakSent := false
          acked := expect % 4096 } ∧
        t.host.events.map (·.code) = s.host.events.map (·.code) ++ [0x0802]) ∧
    (∀ t0, l.retrainAt = some t0 → s.portState n = 5 → 1500000 ≤ s.now - t0 →
      exec (.retrainTimeout p) s = .next (s.linkDown n 0) ∧
        ∀ (good : BitVec 18) (expect : Nat), exec (.retrainComplete p good expect) s = .next (s.linkDown n 0)) ∧
    (∀ t0, 10000 ≤ s.now - t0 → exec (.lossOfLight p t0) s = .next (s.linkDown n 1)) ∧
    (∀ cause, s.portState n = 3 → s.topoValid = false → s.portDir n = none → l.replay = [] → l.rxPkt = none →
      let t := s.linkDown n cause
      t.portState n = 1 ∧ t.link n = l.fresh ∧
        t.rfld (R.portLinkStats n) 32 16 = min (2 ^ 16 - 1) (s.rfld (R.portLinkStats n) 32 16 + 1) ∧
        t.host.events.map (·.code) = s.host.events.map (·.code) ++ [0x0803]) ∧
    (s.portState n = 1 → s.portSource n = none → s.topoValid = false → exec (.portCmdDisable p) s = .next (s.setPortState n 0)) ∧
    (s.portState n = 0 → s.portSource n = none → exec (.portCmdEnable p) s = .next (s.setPortState n 1))

/-- Routing of a single packet, and the marks of R281. -/
def Obligations.FabricRouting : Prop :=
  (∀ (s : State) (st : Fin 4) (p : Pkt), s.topoValid = true → s.fab.queue = [] → p.epoch = s.epoch →
    (p.dstDev = s.devIndex → p.relay = false → exec (.routePacket st (some p)) s = .next (s.emit (.pkt p))) ∧
    (p.dstDev ≠ s.devIndex → s.devFenced p.dstDev = true → p.type = 0x01 → p.srcDev = s.devIndex →
      exec (.routePacket st (some p)) s = .next ((s.count R.fabDiscard 32 16).emit (.pkt (p.reply 0x0B 1 [] [])))) ∧
    (∀ m port, p.dstDev ≠ s.devIndex → s.devFenced p.dstDev = false → bit (s.reg R.fabRouteCtl) 0 = true →
      fabOrdered p = false → s.minimalTo p.dstDev = [m] → s.devFenced (s.nextDev m) = false → s.upPorts m = [port] →
      s.canSend port p 0 = true →
      let fs := flitsOf p 0 p.dstDev (s.link port).txSeq
      ∃ t, exec (.routePacket st (some p)) s = .next t ∧ t.out = s.out ++ fs.map (fun f => .flit port f (s.link port).ackOut) ∧ t.fab.queue = [] ∧
        (t.link port).replay = (s.link port).replay ++ fs.map (fun f => (s.now, f)) ∧
        (∀ q, q ≠ port → t.link q = s.link q) ∧ t = { s with fab := t.fab, out := t.out })) ∧
  (∀ (s : State) (p : Pkt), s.topoValid = true → s.fab.relayBuf = [p] → p.dstDev = s.devIndex → p.epoch = s.epoch →
    ∃ t, exec .relayForward s = .next t ∧ t.out = s.out ++ [.pkt { p with relay := false }] ∧
      t.fab = { s.fab with relayBuf := [] } ∧
      t.rfld R.fabRelay 0 32 = min (2 ^ 32 - 1) (s.rfld R.fabRelay 0 32 + 1)) ∧
  (∀ (s : State) (p : Pkt) (d orig seq : Nat), d < 512 → orig < 2 ^ 16 → seq < 2 ^ 32 →
    p.data = natToBytes 2 d ++ natToBytes 2 orig ++ natToBytes 4 seq →
    ((orig, seq) ∈ s.fab.floods → (p.type = 0x15 → exec (.fence p) s = .next s) ∧
      (p.type = 0x16 → exec (.unfence p) s = .next s)) ∧
    ((orig, seq) ∉ s.fab.floods → s.fab.ctxs = [] → s.upDirs = [] →
      ∀ b : Bool, s.devFenced d = !b → p.type = (if b then 0x15 else 0x16) →
        ∃ t, exec (if b then .fence p else .unfence p) s = .next t ∧ t.devFenced d = b ∧
          (∀ j, j ≠ d → t.devFenced j = s.devFenced j) ∧ t.fab.floods = s.fab.floods ++ [(orig, seq)] ∧ t.out = s.out ∧
          t.host.events.map (·.code) = s.host.events.map (·.code) ++ [if b then 0x0805 else 0x0806] ∧
          t.rfld R.fabStatus 32 10 = (if b then s.rfld R.fabStatus 32 10 + 1 else s.rfld R.fabStatus 32 10 - 1) % 1024))

/-- R293 and R294. R295 to R297 and R567. -/
def Obligations.CongestionAndTime : Prop :=
  ((∀ (s : State) (st : Fin 4), ∃ t, exec (.cmapSample st) s = .next t ∧
    t = { s with fab := { s.fab with links := t.fab.links } } ∧
    ∀ n, t.link n = if n / 3 = st.val then { s.link n with
      occSum := (s.link n).occSum + (s.link n).occupancy
      occPeak := max (s.link n).occPeak (s.link n).occupancy
      occN := (s.link n).occN + 1 } else s.link n) ∧
  (∀ s : State, (s.now < s.fab.cmapStart + 100000 → exec .cmapWindowEnd s = .next s) ∧
    (s.fab.cmapStart + 100000 ≤ s.now → bit (s.reg R.fabCmapCtl) 63 = true → s.topoValid = true →
      ∃ t k, exec .cmapWindowEnd s = .next t ∧ t.fab.cmapStart = s.fab.cmapStart + 100000 ∧
        t.fab.cmapSeq = (s.fab.cmapSeq + 1) % 2 ^ 16 ∧ t.fab.queue = s.fab.queue ++ [k] ∧ k.stop = 0 ∧ k.pkt.type = 0x17 ∧
        k.pkt.srcDev = s.devIndex ∧ k.pkt.dstDev = s.rfld R.fabCmapCtl 0 9 ∧
        t.rfld R.fabCmapStatus 0 32 = min (2 ^ 32 - 1) (s.rfld R.fabCmapStatus 0 32 + 1) ∧ t.out = s.out ∧
        ∀ n, n < 12 → (t.link n).occN = 0 ∧ (t.link n).occSum = 0 ∧ (t.link n).occPeak = 0)) ∧
  (∀ (s : State) (p : Pkt), p.type = 0x17 → exec (.cmap p) s = .next ((s.count R.fabCmapStatus 32 32).hostWrite .cmap
    ((s.reg R.fabCmapBase).toNat / 2 ^ 15 * 2 ^ 15 + 64 * (p.srcDev % 512)) p.data))) ∧
  (∀ s : State,
    (∀ p : Port, s.portUp p.val = true → (∀ t, (s.link p.val).exchAt = some t → t + 1000000 ≤ s.now) →
      1 ≤ (s.link p.val).credit 10 → (s.link p.val).replay.length < 512 →
      (∃ t f k, exec (.timeExchangeStart p) s = .next t ∧ t.out = s.out ++ [.flit p.val f (s.link p.val).ackOut] ∧ f.pkt = some k ∧ k.type = 0x19 ∧
        k.data.length = 32 ∧ (t.link p.val).exch = some ((s.link p.val).exchSeq, s.now) ∧ (t.link p.val).exchAt = some s.now ∧
        (t.link p.val).exchSeq = ((s.link p.val).exchSeq + 1) % 2 ^ 32) ∧
      (∀ (k : Pkt) (hops al : Byte) (rest : List Byte), k.type = 0x19 → k.data = 1#8 :: hops :: al :: rest →
        ∃ t f a, exec (.time p k) s = .next t ∧ t.out = s.out ++ [.flit p.val f (s.link p.val).ackOut] ∧ f.pkt = some a ∧ a.type = 0x19 ∧
          (a.data.drop 8).take 8 = natToBytes 8 s.now ∧ (a.data.drop 16).take 8 = natToBytes 8 s.now ∧
          (t.link p.val).hops = hops.toNat % 64 ∧ (t.link p.val).aligned = decide (al.toNat % 2 = 1))) ∧
    (∀ (p : Port) (k : Pkt) (hops : Byte) (seq t1 t2 t3 : Nat) (rest : List Byte), s.portUp p.val = true → k.type = 0x19 →
      k.data = 2#8 :: hops :: 1#8 :: 0#8 :: (natToBytes 4 seq ++ natToBytes 8 t2 ++ natToBytes 8 t3 ++ rest) →
      seq < 2 ^ 32 → t2 < 2 ^ 64 → t3 < 2 ^ 64 → (s.link p.val).exch = some (seq, t1) → s.timeSource = 1 →
      s.rfld R.clkTimeOffset 48 4 = p.val → 0 < s.time.lastCorr → s.time.good < 2 →
      let off := (((t2 : Int) - t1) - ((s.now : Int) - t3)) / 2
      off.natAbs ≤ 4 → ∃ t, exec (.time p k) s = .next t ∧ t.time = { s.time with
          slew := off
          good := s.time.good + 1
          lastCorr := s.now } ∧
        t.rfld R.clkTimeOffset 0 32 = (off % 2 ^ 32).toNat ∧ t.rfld R.clkTimeOffset 56 6 = min 63 (hops.toNat % 64 + 1) ∧
        (t.link p.val).exch = none ∧ t.out = s.out) ∧
    (s.aligned = true → s.timeSource ≠ 0 → s.time.lastCorr + 100000000 ≤ s.now →
      ∃ t, exec .alignmentTimeout s = .next t ∧ t.aligned = false ∧ t.time = { s.time with good := 0 } ∧
        t.host.events.map (·.code) = s.host.events.map (·.code) ++ [0x080B]) ∧
    (∀ v : Word, ∃ t, exec (.clkTimeSetWrite v) s = .next t ∧ t.now = v.toNat ∧
      (natDist v.toNat s.now ≤ 1000000 → s.timeSource = 0 → t.aligned = true)) ∧
    exec .clkSystimeLowRead s = .next { s with host := { s.host with capture := some (s.now / 2 ^ 32) } })

/-- Contexts; the order of arrival and the collector are the model's choices (log entry 19). -/
def Obligations.CollectiveContexts : Prop :=
  ∀ (s : State) (ctx : Fin 64), let n := ctx.val
    let x := s.ctx n
    (∀ (p : Pkt) (d g : Nat) (w : Word), p.type = 0x13 → p.ctx = n → p.srcDev = d → p.data = wordBytes w ++ natToBytes 8 g →
      g < 2 ^ 64 → s.ctxState n = 2 → x.readyFrom = [] → s.ctxDown x.defn = some d → s.ctxUp x.defn = none →
      ∃ t, exec (.ctxReady p) s = .next t ∧
        (ctxDigest w = ctxDigest x.defn → t.ctxState n = 3 ∧ t.ctx n = { x with
            readyFrom := [(d, w, g)]
            down := g
            up := 0 } ∧ t.host.events.map (·.code) = s.host.events.map (·.code) ++ [0x0807]) ∧
        (ctxDigest w ≠ ctxDigest x.defn → t.ctxState n = 4 ∧ t.rfld (R.colCtxStatus n) 4 4 = 5)) ∧
    (1 ≤ s.ctxState n → s.ctxState n ≤ 3 →
      (∀ (p : Pkt) (cause : Byte) (rest : List Byte), p.type = 0x14 → p.ctx = n → p.data = BitVec.ofNat 8 n :: cause :: rest →
        cause.toNat < 16 → ∃ t, exec (.ctxAbort p) s = .next t ∧ t.ctxState n = 5 ∧
          t.rfld (R.colCtxStatus n) 4 4 = (if p.srcDev = s.devIndex then 8 else cause.toNat) ∧ t.ctx n = ColCtx.reset) ∧
      ∃ t, exec (.colCtxCmdAbort ctx) s = .next t ∧ t.ctxState n = 5 ∧ t.rfld (R.colCtxStatus n) 4 4 = 7 ∧
        t.ctx n = ColCtx.reset) ∧
    (let w := s.reg (R.colCtx n)
     (bit w 0 = false → exec (.colCtxCmdRearm ctx) s = .next s) ∧
     (bit w 0 = true → s.ctxState n = 0 ∨ 4 ≤ s.ctxState n →
      ∃ t, exec (.colCtxCmdRearm ctx) s = .next t ∧
        (s.ctxInvalid w = true → t.ctxState n = 4 ∧ t.rfld (R.colCtxStatus n) 4 4 = 1) ∧
        (s.ctxInvalid w = false → fld w 1 2 = 1 → (∀ d ∈ ctxDies w, s.dieUp d = true) → (∀ i, i < 4 → s.stopDir i = none) →
          s.ctxDown w = none → s.ctxUp w = none → (∀ d ∈ s.ctxMembers w, s.devFenced d = false) →
          t.ctxState n = 3 ∧ (t.ctx n).defn = w))) ∧
    (∀ (p : Pkt) (d : Nat), d < 8 → s.ctxState n = 3 → p.ctx = n → p.type = 0x0C → p.srcDev = s.devIndex → p.srcDie = d → x.accs = [] →
      x.results = [] → x.tails = 0 → 1 ≤ fld x.defn 49 5 →
      ((∃ other ∈ (s.ctxWriters x.defn).1, other ≠ d) → ∃ t, exec (.collectiveChunk ctx p false 0 0) s = .next t ∧
        t = { s with fab := { s.fab with ctxs := t.fab.ctxs } } ∧ (∀ m, m ≠ n → t.ctx m = s.ctx m) ∧
        t.ctx n = { x with accs := [(p.chunk, [(d, p.data)], p.aux.testBit 0)] }) ∧
      (ctxDies x.defn = [d] → s.dieUp d = true → fld x.defn 16 3 = 0 → s.ctxDown x.defn = none → s.ctxUp x.defn = none →
        ∃ t l, exec (.collectiveChunk ctx p false 0 0) s = .next t ∧ t.out = s.out ++ l ∧
          l.length = fld x.defn 34 4 + 1 - fld x.defn 30 4 ∧ (t.ctx n).accs = [] ∧
          ∀ o ∈ l, ∃ k, o = .pkt k ∧ k.type = 0x0D ∧ k.ctx = n ∧ k.chunk = p.chunk ∧ k.dstDie = d ∧ k.data = p.data))

/-- The requester's side of the transport. The responder's side of the transport. -/
def Obligations.TransportCommands : Prop :=
  ((∀ (s : State) (c : CoreId) (slot : Fin 16) (x : XSlot), let i := 16 * c.key + slot.val
    s.xslot i = some x →
    (∀ p : Pkt, p.dstDev = s.devIndex → replySlot p = some i →
      ((x.pkt.tag ≠ p.tag ∨ x.pkt.t0 ≠ p.t0 ∨ x.pkt.dstDev ≠ p.srcDev) → exec (.transportReply p) s = .next s) ∧
      (x.pkt.tag = p.tag → x.pkt.t0 = p.t0 → x.pkt.dstDev = p.srcDev →
        (p.type ≠ 0x0B → keptType x.pkt.type = false → ∃ t, exec (.transportReply p) s = .next t ∧ t.xslot i = none ∧
          EntersDie s t (i / 16 / 288) p ∧ t = { s with xport := t.xport, out := t.out }) ∧
        (p.type ≠ 0x0B → keptType x.pkt.type = true → ∃ t, exec (.transportReply p) s = .next t ∧ t.xslot i = none ∧
          EntersDie s t (i / 16 / 288) p ∧ t.xport.acks = s.xport.acks ++ [(p.srcDev, i / 16, p.tag % 256, s.now)]) ∧
        (p.type = 0x0B → p.aux = 8 → exec (.transportReply p) s = .next (s.setXslot i (some { x with
          retries := x.retries + 1
          retryAt := some (s.now + 1000 * min 64 (2 ^ x.retries)) }))))) ∧
    (x.retryAt = none → x.sentAt + x.timeout ≤ s.now →
      (x.attempts < 3 → s.xport.acks = [] → ∃ t, exec (.transportTimeout c slot) s = .next t ∧
        t.out = s.out ++ [.pkt { x.pkt with xack := none }] ∧
        t.xslot i = some { x with
          attempts := x.attempts + 1
          sentAt := s.now } ∧
        t.rfld R.fabXportStats 0 32 = min (2 ^ 32 - 1) (s.rfld R.fabXportStats 0 32 + 1)) ∧
      (3 ≤ x.attempts → ∃ t, exec (.transportTimeout c slot) s = .next t ∧ t.xslot i = none ∧
        EntersDie s t (i / 16 / 288) (x.pkt.reply 0x0B (if keptType x.pkt.type then 2 else 3) [] []))) ∧
    (∀ at_, x.retryAt = some at_ → at_ ≤ s.now → s.xport.acks = [] → ∃ t, exec (.retryLaterResend c slot) s = .next t ∧
      t.out = s.out ++ [.pkt { x.pkt with xack := none }] ∧ t.xslot i = some { x with
        sentAt := s.now
        retryAt := none } ∧ t.regs = s.regs)) ∧
  (∀ (s : State) (d : Die) (dev row col tag t0 : Nat), row < 16 → col < 18 →
    s.xport.acks = [(dev, posKey d.val row col, tag, t0)] → t0 + 1000 ≤ s.now →
    ∃ t p, exec (.xackTimer d dev) s = .next t ∧ t.xport.acks = [] ∧ t.out = s.out ++ [.pkt p] ∧ p.type = 0x18 ∧ p.dstDev = dev ∧
      p.srcDie = d.val ∧ p.data.take 4 = natToBytes 4 (2 ^ 31 + d.val * 2 ^ 17 + row * 2 ^ 13 + col * 2 ^ 8 + tag % 256))) ∧
  ((∀ (s : State) (p : Pkt) (o : Nat), s.replayOwner p.srcDev = some o → p.srcDev ≠ s.devIndex →
    let core := srcCore p
    let fresh : REntry := REntry.mk p.srcDev core p.tag p.t0 none s.now
    (keptType p.type = true → p.dstDev = s.devIndex → p.xack = none →
      (s.rtable o = [] → ∀ up, s.replayUp p.srcDev o = some up →
        (atOrBefore p.t0 up = true → exec (.replayTableLookup p) s = .next (s.emit (.pkt (p.reply 0x0B 2 [] [])))) ∧
        (atOrBefore p.t0 up = false → ∃ t, exec (.replayTableLookup p) s = .next t ∧ t.rtable o = [fresh] ∧
          t.out = s.out ++ [.pkt (s.toPhysical p)])) ∧
      (2048 ≤ (s.rtable o).length → (∀ e ∈ s.rtable o, e.matches p core p.srcDev = false) →
        ∀ up, s.replayUp p.srcDev o = some up → atOrBefore p.t0 up = false → exec (.replayTableLookup p) s =
          .next ((s.count R.fabReplayStatus 32 32).emit (.pkt (p.reply 0x0B 8 [] [])))) ∧
      (∀ r, s.rtable o = [{ fresh with reply := some r }] → ∃ t, exec (.replayTableLookup p) s = .next t ∧
        t.out = s.out ++ [.pkt r] ∧ t.rtable o = s.rtable o ∧
        t.rfld R.fabReplayStats 32 32 = min (2 ^ 32 - 1) (s.rfld R.fabReplayStats 32 32 + 1))) ∧
    (s.rtable o = [fresh] →
      (∀ r : Pkt, r.dstDev = p.srcDev → r.dstDie = p.srcDie → r.dstRow = p.srcRow → r.dstCol = p.srcCol → r.tag = p.tag →
        r.t0 = p.t0 → ∃ t, exec (.replayTableStore r) s = .next t ∧ t.out = s.out ++ [.pkt r] ∧
          t.rtable o = [{ fresh with reply := some { r with data := r.data.take 8 } }]) ∧
      (p.type = 0x18 → p.xack = some (core, p.tag) → p.data = List.replicate 32 0#8 →
        ∃ t, exec (.xack p) s = .next t ∧ t.rtable o = [] ∧ t.out = s.out))) ∧
  (∀ (s : State) (st : Fin 4) (e : REntry), s.rtable (20 + st.val) = [e] → e.touched + 2 * s.xportT ≤ s.now →
    ∃ t, exec (.replayEntryExpire st 0) s = .next t ∧ t.rtable (20 + st.val) = [] ∧
      t.rfld R.fabReplayStats 0 32 = min (2 ^ 32 - 1) (s.rfld R.fabReplayStats 0 32 + 1)))

/-- R323. -/
def Obligations.DieDownOutcome : Prop :=
  ∀ (s : State) (p : Pkt) (i : Nat) (x : XSlot), p.dstDev = s.devIndex → replySlot p = some i → s.xslot i = some x →
    x.pkt.tag = p.tag → x.pkt.t0 = p.t0 → x.pkt.dstDev = p.srcDev → p.type = 0x0B → p.aux = 1 →
      (x.attempts ≤ 1 ∨ x.pkt.type ∉ [PT.memWr, PT.cput, PT.msg, PT.memAtom] → ∃ t, exec (.transportReply p) s = .next t ∧
        t.xslot i = none ∧ EntersDie s t (i / 16 / 288) p) ∧
      (2 ≤ x.attempts → x.pkt.type ∈ [PT.memWr, PT.cput, PT.msg, PT.memAtom] → ∃ (t : State) (r : Pkt),
        exec (.transportReply p) s = .next t ∧ t.xslot i = none ∧ EntersDie s t (i / 16 / 288) r ∧ r.type = 0x0B ∧ r.aux = 2)

/-- R328 to R334; each codeword and message as a command of its own. -/
def Obligations.HostLinkCommands : Prop :=
  ∀ (s : State) (tag : BitVec 12),
    (s.hifUp = true →
      (s.host.nakSent = false → ∀ seq chk nak ack a b c, chk.crcOk = false ∨ chk.lost = true →
        exec (.nogarCodeword seq chk nak ack a b c) s = .next (({ s with host := { s.host with
          nakSent := true, owed := SMap.set (fun _ => 0) s.host.owed 4 1 } } : State).emit (.nogarCtl true s.host.rxSeq))) ∧
      (∀ (seq ack : BitVec 12) (chk : NogarCheck) (a b c : BitVec 8) (m : Nat × HostMsg), seq.toNat = s.host.rxSeq →
        chk.crcOk = true → chk.lost = false → s.host.sent = [m] → ack.toNat = s.host.acked → s.host.replayAt = none →
        s.host.msgs = [] →
        ∃ t, exec (.nogarCodeword seq chk false ack a b c) s = .next t ∧ t.host.rxSeq = (s.host.rxSeq + 1) % 4096 ∧
          t.host.sent = [] ∧ t.host.acked = (s.host.acked + 1) % 4096 ∧ t.host.nakSent = false ∧ t.out = s.out ∧
          t.hifOwes 0 = s.hifOwes 0 + chk.req ∧ t.hifOwes 1 = s.hifOwes 1 + chk.rsp ∧ t.hifOwes 2 = s.hifOwes 2 + chk.snp ∧
          (chk.reserved = 0 → t.regs = s.regs) ∧ t.rfld R.hifLinkErr 48 16 = (if chk.reserved = 0 then s.rfld R.hifLinkErr 48 16
            else min (2 ^ 16 - 1) (s.rfld R.hifLinkErr 48 16 + chk.reserved))) ∧
      (∀ t0 m rest, s.host.sent = (t0, m) :: rest → t0 + 2000 ≤ s.now →
        (s.host.replayAt = none → ∃ t, exec .nogarReplayTimeout s = .next t ∧ t.hifState = 3 ∧
          t.out = s.out ++ .nogarCtl false s.host.acked :: s.host.sent.zipIdx.map (fun (x, i) =>
            .nogarAgain ((s.host.acked + i) % 4096) x.2.type x.2.tag x.2.addr x.2.status x.2.data) ∧
          t.host.replayAt = some s.now ∧ t.host.sent = s.host.sent.map (fun x => (s.now, x.2)) ∧
          t.rfld R.hifLinkErr 16 16 = min (2 ^ 16 - 1) (s.rfld R.hifLinkErr 16 16 + 1)) ∧
        (∀ a, s.host.replayAt = some a → a + 20000 ≤ s.now → ∃ t, exec .nogarReplayTimeout s = .next t ∧ t.hifState = 4 ∧
          t.out = s.out ∧ t.host.replayAt = none ∧ t.host.retrainAt = some s.now ∧
          t.rfld R.hifLinkErr 0 16 = min (2 ^ 16 - 1) (s.rfld R.hifLinkErr 0 16 + 1)))) ∧
    (s.hifUp = false → s.host.sent = [] → s.host.msgs = [] → ∀ lanes,
      ∃ t, exec (.nogarRetrainDone lanes) s = .next t ∧ t.out = s.out ∧
        t.hifState = (if lanes < 8 then 0 else 2) ∧ t.hifWidth = (if lanes < 8 then 2 else if lanes < 16 then 1 else 0)) ∧
    (∀ r : HostReq, SMap.get (fun _ => none) s.host.reqs tag.toNat = some r → r.use = .cmap → s.hifUp = false →
      max r.since (s.host.retrainAt.getD s.now) + 1000000 ≤ s.now → s.host.waiting = [] →
      ∃ t, exec (.hostRequestHoldTimeout tag) s = .next t ∧ SMap.get (fun _ => none) t.host.reqs tag.toNat = none ∧
        t = { s with host := t.host }) ∧
    (∀ line : BitVec 46,
      (s.lineOwned line.toNat = true → ∃ t, exec (.snpInv tag line) s = .next t ∧ t.out = s.out ∧
        t.host = { s.host with snoops := s.host.snoops ++ [4096 * line.toNat + tag.toNat] }) ∧
      (s.lineOwned line.toNat = false → HostOpen s → (∀ n, n < 256 → bit (s.reg (R.hifDbl n)) 0 = false) →
        ∃ t, exec (.snpInv tag line) s = .next t ∧ t.out = s.out ++ [.nogar 0x22 tag.toNat (64 * line.toNat) 0 []] ∧
          t.hostLine line.toNat = none ∧
          t.rfld R.hifHlcStats 32 32 = min (2 ^ 32 - 1) (s.rfld R.hifHlcStats 32 32 + 1))) ∧
    (SMap.get (fun _ => none) s.host.reqs tag.toNat = none → ∀ st line, exec (.nogarData tag st line) s = .next s ∧
      exec (.nogarCmp tag st) s = .next s) ∧
    (∀ (r : HostReq) (x : HostPkt), SMap.get (fun _ => none) s.host.reqs tag.toNat = some r → s.host.pkts = [x] → x.left = 1 →
      x.code = 0 → x.got = [] → x.poison = [] → x.pkt.hc = false → s.host.waiting = [] →
      (r.use = .read x.id 0 → x.pkt.type = 0x01 → x.pkt.addr % 64 + x.pkt.aux % 256 + 1 ≤ 64 → ∀ line : List Byte, line.length = 64 →
        ∃ t, exec (.nogarData tag 0 line) s = .next t ∧ t.host.pkts = [] ∧ SMap.get (fun _ => none) t.host.reqs tag.toNat = none ∧
          t.out = s.out ++ [.pkt (x.pkt.reply 0x04 0 ((line.drop (x.pkt.addr % 64)).take (x.pkt.aux % 256 + 1)) [])]) ∧
      (r.use = .write x.id 0 → x.pkt.type = 0x02 → ∃ t, exec (.nogarCmp tag 0) s = .next t ∧ t.host.pkts = [] ∧
        SMap.get (fun _ => none) t.host.reqs tag.toNat = none ∧ t.out = s.out ++ [.pkt (x.pkt.reply 0x05 0 [] [])]))

/-- R335 and R337; what a held device does is the model's choice (log entry 47). -/
def Obligations.HostAccesses : Prop :=
  ∀ s : State,
    (∀ (tag : BitVec 12) (addr : BitVec 39) (len : Fin 64), let a := addr.toNat
      HostOpen s → s.hostWaits = false →
      (s.capacity < a + (len.val + 1) → ∃ t, exec (.dmRd tag addr len .ok) s = .next t ∧
        t.out = s.out ++ [.nogar 0x20 tag.toNat a 2 []] ∧ t.mem = s.mem ∧
        t.rfld R.hifLinkErr 32 16 = min (2 ^ 16 - 1) (s.rfld R.hifLinkErr 32 16 + 1)) ∧
      (a + (len.val + 1) ≤ s.capacity → s.stackOut a = false → s.channelHeld a = false → s.lineBad (a / 64) = false →
        ∃ t, exec (.dmRd tag addr len .ok) s = .next t ∧
          t.out = s.out ++ [.nogar 0x20 tag.toNat a 0 (Mem.bytes s.mem.bytes a (len.val + 1))] ∧ t = { s with host := t.host, out := t.out }) ∧
      (a + (len.val + 1) ≤ s.capacity → s.stackOut a = false → s.channelHeld a = true → exec (.dmRd tag addr len .ok) s =
        .next { s with mem := { s.mem with held := s.mem.held ++ [.dmRd tag.toNat a (len.val + 1) .ok] } })) ∧
    (∀ (addr : BitVec 39) (d : List Byte), let a := addr.toNat
      s.hostWaits = false →
      (s.capacity < a + d.length → exec (.dmWr addr d .ok) s = .next (s.count R.hifLinkErr 32 16)) ∧
      (a + d.length ≤ s.capacity → s.stackOut a = false → s.channelHeld a = false → a % 64 = 0 → d.length = 64 →
        ∃ t, exec (.dmWr addr d .ok) s = .next t ∧ t.out = s.out ∧ t.regs = s.regs ∧ t.cores = s.cores ∧
          (∀ j, j < 64 → Mem.byte t.mem.bytes (a + j) = nth 0 d j) ∧
          ∀ x, x < a ∨ a + 64 ≤ x → Mem.byte t.mem.bytes x = Mem.byte s.mem.bytes x)) ∧
    (∀ (tag : BitVec 12) (off : BitVec 24) (len : Fin 64) (v : Word),
      (s.therm.cold.isSome = true → exec (.crRd tag off len) s = .next s ∧ exec (.crWr off len v) s = .next s) ∧
      (s.therm.cold = none → s.hostWaits = false →
        (off.toNat % 8 = 0 → exec (.crWr off 7 v) s = .next (s.regWrite off.toNat v) ∧ (HostOpen s →
          ∃ t, exec (.crRd tag off 7) s = .next t ∧ t.regs = s.regs ∧ t.cores = s.cores ∧
            t.out = s.out ++ [.nogar 0x20 tag.toNat off.toNat 0 (wordBytes (s.regRead off.toNat))])) ∧
        (accessOk off.toNat (len.val + 1) = false → exec (.crWr off len v) s = .next (s.count R.hifLinkErr 48 16) ∧ (HostOpen s →
          ∃ t, exec (.crRd tag off len) s = .next t ∧ t.regs = (s.count R.hifLinkErr 48 16).regs ∧
            t.out = s.out ++ [.nogar 0x20 tag.toNat off.toNat 0 (List.replicate (len.val + 1) 0)])))) ∧
    (∀ (tag : BitVec 12) (addr : BitVec 39) (off : BitVec 24) (len : Fin 64) (d : List Byte) (v : Word),
      let waits := fun (i : Instr) (r : HeldReq) =>
        exec i s = .next { s with mem := { s.mem with held := s.mem.held ++ [r] } }
      s.hostWaits = true →
        waits (.dmRd tag addr len .ok) (.dmRd tag.toNat addr.toNat (len.val + 1) .ok) ∧
        waits (.dmWr addr d .ok) (.dmWr addr.toNat d .ok) ∧
        (s.therm.cold = none → waits (.crRd tag off len) (.crRd tag.toNat off.toNat (len.val + 1)) ∧
          waits (.crWr off len v) (.crWr off.toNat (len.val + 1) v)))

/-- R339 to R344. -/
def Obligations.RingCommands : Prop :=
  (∀ (s : State) (q : Fin 256) (v : Word), let old := s.reg (R.hifSqCfg q.val)
    v &&& ~~~ (mask 62 2 ||| mask 48 5 ||| mask 40 8 ||| mask 32 6 ||| mask 16 8 ||| mask 0 4) = 0 →
    (bit old 63 = false → bit v 63 = false → exec (.hifSqCfgWrite q v) s = .next (s.setReg (R.hifSqCfg q.val) v)) ∧
    (bit old 63 = false → bit v 63 = true → ∃ t, exec (.hifSqCfgWrite q v) s = .next t ∧ t = { s with regs := t.regs } ∧
      t.reg (R.hifSqCfg q.val) = v ∧ t.sqState q.val = 1 ∧ t.sqHead q.val = s.sqHead q.val) ∧
    (bit old 63 = true → bit v 63 = true → exec (.hifSqCfgWrite q v) s = .next s) ∧
    (bit old 63 = true → bit v 63 = false → ∀ e, (s.sq q.val).fetched = [e] → e.ring = q.val →
      ∃ t, exec (.hifSqCfgWrite q v) s = .next t ∧ bit (t.reg (R.hifSqCfg q.val)) 63 = false ∧ (t.sq q.val).fetched = [] ∧
        t.sqState q.val = (if ((s.sq q.val).started.filter fun x => decide (x.index ≠ e.index)).isEmpty then 0 else 3) ∧
        t.host.compls = s.host.compls ++ [Sys2Proof.Machine.Compl.mk e.ring e.index e.job 0x0A (e.w 1) 0 e.nocqe s.now])) ∧
  (∀ (s : State) (n tag : Nat), (∀ q, q < 256 → s.checkTail q = s) → HostOpen s → s.freeTag = some tag →
    ((rangeFrom s.host.turn 256).map (· % 256)).find? s.canFetch = some n →
      ∃ t, exec .sqFetch s = .next t ∧ (t.sq n).fetching = true ∧ (t.sq n).fetched = (s.sq n).fetched ∧
        t.out = s.out ++ [.nogar 0x02 tag (fld (s.reg (R.hifSqBase n)) 12 40 * 2 ^ 12 +
          64 * (s.sqHead n % ringSize (s.reg (R.hifSqCfg n)))) 0 []] ∧ t.host.turn = (n + 1) % 256 ∧
        t.rfld (R.hifCqStatus (s.cqOf n)) 32 17 = (s.rfld (R.hifCqStatus (s.cqOf n)) 32 17 + 1) % 2 ^ 17) ∧
  ∀ (s : State) (n : Fin 256) (tag : Nat), HostOpen s → s.freeTag = some tag →
    (∀ v : Word, v &&& ~~~ (mask 6 46 ||| mask 0 1) = 0 →
      (bit (s.reg (R.hifDbl n.val)) 0 = false → bit v 0 = true → ∃ t, exec (.hifDblWrite n v) s = .next t ∧
        t.reg (R.hifDbl n.val) = v ∧ t.out = s.out ++ [.nogar 0x01 tag (fld v 6 46 * 64) 0 []]) ∧
      (bit v 0 = false → ∃ t, exec (.hifDblWrite n v) s = .next t ∧ t.reg (R.hifDbl n.val) = v ∧ t.out = s.out ∧
        bit (t.reg (R.hifDblStatus n.val)) 32 = false)) ∧
    (∀ t0, SMap.get (fun _ => none) s.host.rereadAt n.val = some t0 → t0 ≤ s.now → bit (s.reg (R.hifDbl n.val)) 0 = true →
      ∃ t, exec (.doorbellRereadRetry n) s = .next t ∧ SMap.get (fun _ => none) t.host.rereadAt n.val = none ∧
        t.out = s.out ++ [.nogar 0x01 tag (fld (s.reg (R.hifDbl n.val)) 6 46 * 64) 0 []] ∧
        t.rfld (R.hifDblStatus n.val) 0 32 = min (2 ^ 32 - 1) (s.rfld (R.hifDblStatus n.val) 0 32 + 1))

/-- R345 to R349. -/
def Obligations.SubmissionCommands : Prop :=
  (∀ (s : State) (q : Fin 256) (e : SqEntry),
    (FrontAlone s q.val 0x08 e → ∃ t, exec (.nop q) s = .next t ∧ EntryEnds s t e 0 (BitVec.ofNat 64 s.now) ∧
      t = { s with host := t.host }) ∧
    (FrontAlone s q.val 0x05 e → s.fw.pausing = none → ∃ t, exec (.faultReply q) s = .next t ∧ EntryEnds s t e 0 0 ∧
      (s.mmu.faults = [] → t.rfld R.mmuFaultStatus 48 16 = min (2 ^ 16 - 1) (s.rfld R.mmuFaultStatus 48 16 + 1)) ∧
      ∀ f, s.mmu.faults = [f] → f.id = fld (e.w 2) 0 32 → t.mmu.faults = []) ∧
    (FrontAlone s q.val 0x06 e → s.mmu.invs.length < 16 → ∃ t, exec (.invalidate q) s = .next t ∧
      (t.sq q.val).fetched = [] ∧ (t.sq q.val).started = [e] ∧ t.host.compls = s.host.compls ∧
      (∃ i, t.mmu.invs = s.mmu.invs ++ [i] ∧ i.job = e.job ∧ i.scope = fld (e.w 2) 62 2 ∧ i.entry = some (q.val, e.index)) ∧
      t.cores = s.cores ∧ t.mem = s.mem ∧ t.out = s.out) ∧
    (let a := (e.w 2).toNat
     let b := (e.w 3).toNat
     FrontAlone s q.val 0x02 e → bit (e.w 0) 24 = false → bit (e.w 0) 25 = false → e.w 4 = 64 → a % 64 = 0 → b % 64 = 0 →
      s.stackOut a = false → s.stackOut b = false → s.copyHeld e = false → s.lineBad (a / 64) = false →
      ∃ t, exec (.copy q [] [] [] []) s = .next t ∧ EntryEnds s t e 0 0 ∧ t.cores = s.cores ∧
        (∀ j, j < 64 → Mem.byte t.mem.bytes (b + j) = Mem.byte s.mem.bytes (a + j)) ∧
        ∀ x, x < b ∨ b + 64 ≤ x → Mem.byte t.mem.bytes x = Mem.byte s.mem.bytes x)) ∧
  ∀ (s : State) (d : Die) (e : SqEntry) (k : Nat), s.host.launches = [] → s.host.kills = [] →
    (∀ (tabs : List (Nat × List Byte)) (ecc : List (Nat × LineRead)) (prog args : List Byte) (s1 s2 : State), s.dieEntry d.val 0x01 = some e →
      s.launchCores e = [k] → (s.coreAt k).rs.halted = true → (s.coreAt k).rs ≠ .fenced →
      let n := (e.w 4).toNat
      let va := (e.w 3).toNat
      let m := fld (e.w 6) 0 16
      State.jobBytes ⟨tabs, ecc⟩ d.val e.job (n / 64 + 2) va n (s.unqueue e) = (s1, .inl prog) →
      State.jobBytes ⟨tabs, ecc⟩ d.val e.job (m / 64 + 2) (e.w 5).toNat m s1 = (s2, .inl args) → (s2.coreAt k).rs ≠ .fenced →
      ∃ t, exec (.launch d tabs ecc) s = .next t ∧ (t.coreAt k).rs = .running ∧ (t.coreAt k).ctl.pc.toNat = e.startPc ∧
        (t.coreAt k).job = BitVec.ofNat 64 e.job ∧ (t.coreAt k).pstore = Mem.write (s2.coreAt k).pstore 0 prog ∧
        (∀ j, j ≠ k → t.coreAt j = s2.coreAt j) ∧ ∃ l, t.host.launches = s2.host.launches ++ [l] ∧ l.cores = [k]) ∧
    (s.dieEntry d.val 0x07 = some e → e.dies = [d.val] → s.jobCores d.val e.job = [k] → s.mmu.faults = [] →
      ((s.coreAt k).engine 6).slots = [] → (s.sq e.ring).fetched = [] → (s.sq e.ring).started = [e] →
      ∃ t, exec (.jobKill d) s = .next t ∧ (t.coreAt k).rs.halted = true ∧
        (∀ n, n < 7 → ((t.coreAt k).engine n).queue = [] ∧ ((t.coreAt k).engine n).run = none ∧ ((t.coreAt k).engine n).active = []) ∧
        (∀ j, j ≠ k → t.coreAt j = s.coreAt j) ∧ EntryEnds s t e 0 0)

/-- R348 to R355. -/
def Obligations.CompletionsAndEvents : Prop :=
  ∀ (s : State) (tag : Nat), HostOpen s → s.freeTag = some tag →
    (∀ c : Compl, let q := s.cqOf c.ring
      let tail := s.rfld (R.hifCqStatus q) 0 32
      let size := ringSize (s.reg (R.hifCqCfg q))
      c.ring < 256 → s.host.launches = [] → s.host.kills = [] → s.host.compls = [c] → s.dataOut c.ring c.index = false →
      bit (s.reg (R.hifCqCfg q)) 63 = true → (c.nocqe = true → c.status ≠ 0) → (s.sq c.ring).fetched = [] → s.sqState c.ring ≠ 3 →
      ∃ t, exec .completionEntryWrite s = .next t ∧ t.host.compls = [] ∧
        t.rfld (R.hifCqStatus q) 0 32 = (tail + 1) % 2 ^ 32 ∧
        t.rfld (R.hifCqStatus q) 32 17 = s.rfld (R.hifCqStatus q) 32 17 - 1 ∧
        t.out = s.out ++ [.nogar 0x05 tag (fld (s.reg (R.hifCqBase q)) 12 40 * 2 ^ 12 + 32 * (tail % size)) 0
          (c.bytes (decide (tail / size % 2 = 0)))]) ∧
    (∀ (ev : Event) (rest : List Event), let r := s.eventRing ev.code
      let cfg := s.reg (R.hifEqCfg r)
      let tail := s.rfld (R.hifEqStatus r) 0 32
      let seq := (s.host.evSeq + 1) % 2 ^ 32
      s.sends = true → s.host.events = ev :: rest → ev.detail.length ≤ 16 →
      (bit cfg 63 = false → ∃ t, exec .eventEntryWrite s = .next t ∧ t.host.events = rest ∧ t.host.evSeq = seq ∧ t.out = s.out ∧
        t.rfld (R.hifEqStatus r) 32 32 = min (2 ^ 32 - 1) (s.rfld (R.hifEqStatus r) 32 32 + 1)) ∧
      (bit cfg 63 = true → SMap.get (fun _ => 0) s.host.eqLost r = 0 → idxAhead tail (s.dblWord cfg) < ringSize cfg →
        ∃ t, exec .eventEntryWrite s = .next t ∧ t.host.events = rest ∧ t.host.evSeq = seq ∧
          t.rfld (R.hifEqStatus r) 0 32 = (tail + 1) % 2 ^ 32 ∧
          t.out = s.out ++ [.nogar 0x05 tag (fld (s.reg (R.hifEqBase r)) 12 40 * 2 ^ 12 + 32 * (tail % ringSize cfg)) 0
            (natToBytes 8 ((decide (tail / ringSize cfg % 2 = 0)).toNat * 2 ^ 63 + ev.code * 2 ^ 32 + seq) ++ natToBytes 8 ev.time ++
              ev.detail ++ List.replicate (16 - ev.detail.length) 0#8)])) ∧
    ∀ v : Fin 256, let ctl := s.reg (R.hirqVecCtl v.val)
      (s.vecDue v.val = true → bit ctl 63 = false → ∃ t, exec (.vectorTimerExpire v) s = .next t ∧ (t.vec v.val).count = 0 ∧
        t.out = s.out ++ [.nogar 0x08 tag (s.reg (R.hirqVecAddr v.val)).toNat 0 (natToBytes 4 (fld ctl 0 32))]) ∧
      (s.vecDue v.val = true → bit ctl 63 = true → s.irqPend v.val = false → ∃ t, exec (.vectorTimerExpire v) s = .next t ∧
        (t.vec v.val).count = 0 ∧ t.irqPend v.val = true ∧ t.out = s.out ∧
        t.rfld R.hirqStats 32 32 = min (2 ^ 32 - 1) (s.rfld R.hirqStats 32 32 + 1)) ∧
      ∀ val : Word, val &&& ~~~ (mask 63 1 ||| mask 48 12 ||| mask 40 8 ||| mask 0 32) = 0 → ∃ t, exec (.hirqVecCtlWrite v val) s = .next t ∧
        t.reg (R.hirqVecCtl v.val) = val ∧ (s.irqPend v.val = true → bit val 63 = false → t.irqPend v.val = false ∧
          t.out = s.out ++ [.nogar 0x08 tag (s.reg (R.hirqVecAddr v.val)).toNat 0 (natToBytes 4 (fld val 0 32))])

/-- R356 to R360. -/
def Obligations.ConfigurationSwap : Prop :=
  ∀ s : State,
    let swapped := fun t : State => t.epoch = !s.epoch ∧ t.swapState = 2 ∧ (t.reg R.cfgSwapLast).toNat = s.now % 2 ^ 64 ∧
      t.host.swapStart = some s.now ∧ t.host.swapAt = none ∧ t.mem = s.mem ∧ t.cores = s.cores ∧ t.out = s.out ∧
      ∀ off, isRws off = true → t.reg off = s.shadowReg off ∧ t.shadowReg off = s.reg off
    (s.swapState = 0 → s.warm = false → (∃ t, exec .cfgSwapNow s = .next t ∧ swapped t) ∧
      ∀ at_ : BitVec 62, s.now % 2 ^ 62 ≤ at_.toNat → ∃ t, exec (.cfgSwapAtTime at_) s = .next t ∧ t.swapState = 1 ∧
        t.host.swapAt = some at_.toNat ∧ t.epoch = s.epoch ∧ t.shadow = s.shadow) ∧
    (∀ t0, s.swapState = 1 → s.host.swapAt = some t0 → t0 ≤ s.now % 2 ^ 62 → s.held = true → s.warm = false →
      ∃ t, exec .swapTimeReached s = .next t ∧ swapped t) ∧
    (s.swapState = 1 → ∃ t, exec .cfgSwapCancel s = .next t ∧ t.swapState = 0 ∧ t.host.swapAt = none ∧ t.epoch = s.epoch ∧
      t.shadow = s.shadow ∧ t.host.events.map (·.code) = s.host.events.map (·.code) ++ [0x0A04]) ∧
    (s.swapState ≠ 1 → exec .cfgSwapCancel s = .next (s.count R.cfgSwapStatus 48 16)) ∧
    (∀ t0, s.host.swapStart = some t0 → (∀ n, n < 64 → s.shadowReg (R.colCtx n) = s.reg (R.colCtx n)) →
      ∃ t, exec .swapTransitionEnd s = .next t ∧ t.swapState = 0 ∧ t.host.swapStart = none ∧ t.epoch = s.epoch ∧
        t.host.events.map (·.code) = s.host.events.map (·.code) ++ [0x0A03]) ∧
    exec (.cfgCopy false) s = .next s ∧
    (s.swapState ≠ 0 → exec (.cfgCopy true) s = .next (s.count R.cfgSwapStatus 32 16)) ∧
    (s.swapState = 0 → ∃ t, exec (.cfgCopy true) s = .next t ∧ t.swapState = 3 ∧
      ∀ off, isRws off = true → t.shadowReg off = s.reg off ∧ t.reg off = s.reg off) ∧
    (s.swapState = 3 → ∃ t, exec .cfgCopyDone s = .next t ∧ t.swapState = 0 ∧ t.shadow = s.shadow)

/-- R6 to R10; what reserved bits do is free (log entry 8). -/
def Obligations.RegisterWrites : Prop :=
  ∀ (s : State) (v : Word), s.therm.cold = none →
    (∀ off r, Regs.find off = some r → r.access = .rws → off % 8 = 0 → ¬ (0x500000 ≤ off ∧ off < 0xD00000) → isRws off = true →
      (s.swapState ≠ 0 → exec (.rwsRegisterWrite off 8 false v) s = .next (s.count R.cfgSwapStatus 32 16)) ∧
      (s.swapState = 0 → v &&& ~~~ r.mask = 0 → off ≠ R.thmLimits → ∃ t, exec (.rwsRegisterWrite off 8 false v) s = .next t ∧
        t.shadowReg off = v ∧ (∀ o, o ≠ off → t.shadowReg o = s.shadowReg o) ∧ t = { s with shadow := t.shadow })) ∧
    (∀ off, off % 8 = 0 → ¬ (0x500000 ≤ off ∧ off < 0xD00000) →
      (Regs.find off = none ∨ ∃ r, Regs.find off = some r ∧ (r.access = .ro ∨ r.access = .rov)) →
        exec (.registerWrite off 8 false v) s = .next s) ∧
    (∀ x ∈ ([(R.cfgView, 0x1), (R.clkTimeCtl, 0x3), (R.memRetireThresh, 0xFF), (R.hifEvtRoute0, 0x7777777777777777)] : List (Nat × Word)),
      (v &&& ~~~ x.2 = 0 → exec (.registerWrite x.1 8 false v) s = .next (s.setReg x.1 v)) ∧
      (v &&& ~~~ x.2 ≠ 0 → ∃ t, exec (.registerWrite x.1 8 false v) s = .next t ∧ t.reg x.1 &&& ~~~ x.2 = 0 ∧
        ∀ o, o ≠ x.1 → t.reg o = s.reg o)) ∧
    (∀ hi : Bool, v.toNat < 2 ^ 32 → v &&& ~~~ 0x77777777#64 = 0 → s.reg R.hifEvtRoute0 &&& ~~~ 0x7777777777777777#64 = 0 →
      exec (.registerWrite R.hifEvtRoute0 4 hi v) s =
        .next (s.setReg R.hifEvtRoute0 (setFld (s.reg R.hifEvtRoute0) (if hi then 32 else 0) 32 v.toNat)))

/-- R366 to R372: frames carry what waits, and an accepted frame is acknowledged by the next (log entry 86). -/
def Obligations.BolminLinkCommands : Prop :=
  ∀ s : State, s.bol.streams = [] → (∀ n, n < 256 → s.streamState n ≠ 1) →
    (bit (s.reg R.bolCtl) 0 = false → s.bolState = 0 → ∃ t, exec (.bolCtlWrite 1) s = .next t ∧ t.reg R.bolCtl = 1 ∧
      t.out = s.out ++ (if bit (s.reg R.bolLinkStatus) 8 then [.bolTrain bolCapability] else []) ∧
      t.bolState = if bit (s.reg R.bolLinkStatus) 8 then 1 else 6) ∧
    (bit (s.reg R.bolCtl) 0 = true → ∃ t, exec (.bolCtlWrite 0) s = .next t ∧ t.reg R.bolCtl = 0 ∧ t.out = s.out ∧
      t.bolState = 0 ∧ t.bol = s.bol.fresh) ∧
    (s.bolState ≠ 0 → ∃ t, exec .bclkLoss s = .next t ∧ t.bolState = 6 ∧ bit (t.reg R.bolLinkStatus) 8 = false ∧ t.bol = s.bol.fresh) ∧
    (∀ since, since + 1000000 ≤ s.now → bit (s.reg R.bolLinkStatus) 8 = false → bit (s.reg R.bolCtl) 0 = true → s.bolState = 6 →
      ∃ t, exec (.bclkGood since) s = .next t ∧ t.bolState = 1 ∧ bit (t.reg R.bolLinkStatus) 8 = true ∧
        t.out = s.out ++ [.bolTrain bolCapability]) ∧
    (s.bolState = 1 → ∀ (ver st : BitVec 8) (cr : BitVec 24) (id : BitVec 48) (lanes : Nat),
      exec (.bolTrainFrame false ver st cr id lanes) s = .next (s.count R.bolLinkErr 32 16) ∧
      (ver ≠ 1 → ∃ t, exec (.bolTrainFrame true ver st cr id lanes) s = .next t ∧ t.bolState = 5 ∧
        t.host.events.map (·.code) = s.host.events.map (·.code) ++ [0x0B04]) ∧
      (ver = 1 → 16 ≤ lanes → ∃ t, exec (.bolTrainFrame true ver st cr id lanes) s = .next t ∧ t.bolState = 2 ∧
        t.rfld R.bolLinkStatus 4 2 = (if 32 ≤ lanes then 0 else 1) ∧ t.bol = { s.bol.fresh with lcr := cr.toNat } ∧
        t.host.events.map (·.code) = s.host.events.map (·.code) ++ [0x0B01])) ∧
    (s.bolState = 2 →
      (s.bol.nakSent = false →
        let nak := fun t : State => Host.Outcome.next (({ t with
          bol := { s.bol with
            nakSent := true
            fills := 0 } } : State).emit (.bolFrame none true s.bol.ack ⟨[], 0, []⟩))
        ∀ seq fill n ack lcr, exec (.bolFrame seq ⟨false, 0⟩ fill n ack lcr) s = nak (s.count R.bolLinkErr 32 16) ∧
          ∀ fec, 0 < fec → exec (.bolFrame seq ⟨true, fec⟩ fill n ack lcr) s = nak (s.countBy R.bolLinkErr 48 16 fec)) ∧
      (∀ (f : BolSent) (seq ack : BitVec 12) (lcr : BitVec 24), s.bol.frames = [f] → ack.toNat = f.seq → f.note = [] →
        seq.toNat = s.bol.rxSeq → s.bol.replayAt = none → s.bol.queue = [] → s.bol.cur = [] → s.bol.owed = 0 →
        ∃ t, exec (.bolFrame seq ⟨true, 0⟩ false false ack lcr) s = .next t ∧ t.regs = s.regs ∧
          t.out = s.out ++ [.bolFrame none false s.bol.rxSeq ⟨[], 0, []⟩] ∧
          t.bol = { s.bol with
            frames := []
            rxSeq := (s.bol.rxSeq + 1) % 4096
            nakSent := false
            lcr := s.bol.lcr + lcr.toNat
            fills := 0 }) ∧
      (∀ f : BolSent, s.bol.frames = [f] → f.sent + 2000 ≤ s.now → s.bol.fills < 4095 →
        (s.bol.replayAt = none → ∃ t, exec .bolReplayTimeout s = .next t ∧ t.bolState = 3 ∧
          t.out = s.out ++ [.bolFrame (some f.seq) false s.bol.ack f.frame] ∧
          t.bol.frames = [{ f with sent := s.now }] ∧ t.bol.replayAt = some s.now ∧
          t.rfld R.bolLinkErr 16 16 = min (2 ^ 16 - 1) (s.rfld R.bolLinkErr 16 16 + 1)) ∧
        (∀ a, s.bol.replayAt = some a → a + 20000 ≤ s.now → ∃ t, exec .bolReplayTimeout s = .next t ∧ t.bolState = 4 ∧
          t.out = s.out ∧ t.bol.retrainAt = some s.now ∧
          t.rfld R.bolLinkErr 0 16 = min (2 ^ 16 - 1) (s.rfld R.bolLinkErr 0 16 + 1))) ∧
      ∃ t, exec .bolCmdRetrain s = .next t ∧ t.bolState = 4 ∧ t.bol.retrainAt = some s.now ∧ t.out = s.out ∧
        t.rfld R.bolLinkErr 0 16 = min (2 ^ 16 - 1) (s.rfld R.bolLinkErr 0 16 + 1)) ∧
    (∀ t0 lanes, s.bolState = 4 → s.bol.retrainAt = some t0 → s.now ≤ t0 + 1500000 → 16 ≤ lanes → s.bol.frames = [] →
      s.bol.work = false → ∃ t, exec (.bolRetrainDone lanes) s = .next t ∧ t.bolState = 2 ∧ t.rfld R.bolLinkStatus 4 2 = (if 32 ≤ lanes then 0 else 1) ∧
        t.out = s.out) ∧
    (1 ≤ s.bolState → s.bolState ≤ 5 → ∃ t, exec .bolLossOfSignal s = .next t ∧ t.bolState = 6 ∧ t.bol = s.bol.fresh)

/-- R371 to R382. -/
def Obligations.BolminStreamCommands : Prop :=
  ∀ (s : State) (stream : Fin 256), let n := stream.val
    let x := s.stream n
    let size := s.streamSize n
    let base := s.reg (R.bolStreamBase n)
    let ctrl := s.reg (R.bolStreamCtrl n)
    let ring := fun c => fld base 12 40 * 2 ^ 12 + c % size
    let c0 := fld ctrl 6 46 * 64
    let ready := s.bolState = 2 ∧ s.bol.work = false ∧ s.bol.frames.length < 256 ∧ s.bol.fills < 4095
    let frame := fun f : BolFrame => Out.bolFrame (some s.bol.txSeq) false s.bol.ack f
    (ready → s.isEgress n = false → ∀ (err : Bool) (utag : BitVec 24) (d : List Byte), 1 ≤ d.length → d.length ≤ 64 →
      (s.streamState n = 1 → x.part = none → 2 ≤ x.credit → 192 ≤ size → size % 64 = 0 → x.fill % 64 = 0 → bit base 63 = false →
        let a := ring (x.fill + 64)
        s.inRange a 64 = true → s.stackOut a = false → s.channelHeld a = false →
        ∃ t, exec (.sdata stream true true false err utag d) s = .next t ∧
          t.out = s.out ++ [frame ⟨[], 1, []⟩] ∧ (∀ j, j < d.length → Mem.byte t.mem.bytes (a + j) = nth 0 d j) ∧
          (∀ b, b < a ∨ a + 64 ≤ b → Mem.byte t.mem.bytes b = Mem.byte s.mem.bytes b) ∧
          t.stream n = { x with
            credit := x.credit - 2
            fill := x.fill + 128
            ready := x.ready ++ [InRec.mk x.fill utag.toNat err d.length 0] }) ∧
      (s.streamState n = 0 → x.opened = false → ∃ t, exec (.sdata stream true true false err utag d) s = .next t ∧
        t.out = s.out ++ [frame ⟨[], 1, []⟩] ∧ t.mem = s.mem ∧ t.stream n = x ∧
        t.rfld R.bolStreamErr 0 32 = min (2 ^ 32 - 1) (s.rfld R.bolStreamErr 0 32 + 1))) ∧
    (s.bolUp = true → s.isEgress n = true →
      (s.streamState n = 1 → ∀ cr : BitVec 32, exec (.scredit stream cr) s = .next (s.setStream n { x with credit := x.credit + cr.toNat })) ∧
      exec (.sclose stream) s = .next (s.setStream n { x with credit := 0 })) ∧
    (∀ r : InRec, s.streamBusy n = false → s.streamState n = 1 → x.ready = [r] → r.stage = 0 → r.start % 64 = 0 → size % 64 = 0 →
      64 ≤ size → bit base 63 = false → bit ctrl 63 = false → fld (s.reg (R.bolStreamCfg n)) 38 2 = 0 →
      let a := ring r.start
      let tail := r.start + 64 + (r.len + 63) / 64 * 64
      s.inRange a 64 = true → s.stackOut a = false → s.mem.repairing = [] → c0 + 64 ≤ s.capacity → s.stackOut c0 = false → s.stackOut (c0 + 16) = false →
      (∀ l, s.lineBad l = false) → ∃ t, exec (.ingressRecordCommit stream) s = .next t ∧ t.out = s.out ∧
        (t.stream n).ready = [] ∧ (t.stream n).tail = tail ∧ (t.stream n).done = x.done + 1 ∧
        Mem.nat t.mem.bytes c0 8 = tail % 2 ^ 64 ∧ Mem.nat t.mem.bytes (c0 + 16) 8 = (x.done + 1) % 2 ^ 64 ∧
        (a + 64 ≤ c0 ∨ c0 + 64 ≤ a → ∀ j, j < 64 → Mem.byte t.mem.bytes (a + j) = nth 0 r.header j)) ∧
    (s.streamState n = 1 → s.pollDue n = true → bit ctrl 63 = true → ∀ w : Word,
      (s.isEgress n = false → ready → s.bol.queue = [] → x.part = none → 128 * x.credit < size → w.toNat ≤ x.tail →
        let units := (size - (x.fill - w.toNat) - 64 * x.credit) / 64
        (units ≠ 0 → ∃ t, exec (.ingressPoll stream 0 w .ok) s = .next t ∧
          t.out = s.out ++ [frame ⟨[bolHdr 2 n 0 0 0 units], 0, []⟩] ∧
          t.stream n = { x with
            head := w.toNat
            polled := s.now
            credit := x.credit + units }) ∧
        exec (.ingressPoll stream 1 w .ok) s = .next (s.setStream n { x with polled := s.now })) ∧
      (s.isEgress n = true → x.fill = x.tail → x.tail ≤ w.toNat → w.toNat ≤ x.head + size →
        (∃ t, exec (.egressPoll stream 0 w .ok) s = .next t ∧ t.out = s.out ∧ t.stream n = { x with
          tail := w.toNat
          polled := s.now }) ∧
        ∃ t, exec (.egressPoll stream 1 w .ok) s = .next t ∧ t.streamState n = 3)) ∧
    (∀ host : List Byte, let w := bytesWord (host.take 8)
      let len := fld w 0 24
      s.streamState n = 1 → s.isEgress n = true → ready → s.bol.queue = [] → s.bol.curNote = [] → x.fill + 128 ≤ x.tail → host.length = 128 → 1 ≤ len → len ≤ 64 →
      bit w 32 = false → x.again = false → 2 ≤ x.credit → 1 ≤ s.bol.lcr → bit base 63 = true →
      
        let f : BolFrame := ⟨[bolHdr 1 n 12 len (fld w 40 24) 0], 0, fillTo 64 ((host.drop 64).take len)⟩
        ∃ t, exec (.egressRecordSend stream host [] []) s = .next t ∧ t.bol.lcr = s.bol.lcr - 1 ∧ t.out = s.out ++ [frame f] ∧
          t.bol.frames = s.bol.frames ++ [⟨s.bol.txSeq, s.now, f, [.record n (x.fill + 128)]⟩] ∧ t.stream n = { x with
            fill := x.fill + 128
            credit := x.credit - 2 }) ∧
    ∀ (v w0 w1 w2 : Word), v &&& ~~~ (mask 62 2 ||| mask 48 6 ||| mask 38 10 ||| mask 24 8 ||| mask 16 3 ||| mask 8 8) = 0 →
      let old := s.reg (R.bolStreamCfg n)
      (bit old 63 = true → bit v 63 = true → exec (.bolStreamCfgWrite stream v [w0, w1, w2]) s = .next s) ∧
      (bit old 63 = false → bit v 63 = false → exec (.bolStreamCfgWrite stream v [w0, w1, w2]) s = .next (s.setReg (R.bolStreamCfg n) v)) ∧
      (bit old 63 = false → bit v 63 = true → bit v 62 = false → bit ctrl 63 = true → s.bolUp = false →
        ∃ t, exec (.bolStreamCfgWrite stream v [w0, w1, w2]) s = .next t ∧ t.streamState n = 1 ∧ t.out = s.out ∧
          t.reg (R.bolStreamCfg n) = v ∧ t.stream n = { Stream.reset with
            tail := w0.toNat
            head := w1.toNat
            done := w2.toNat
            fill := w0.toNat
            opened := true
            polled := s.now })

/-- R391 to R402 and R407 to R409. -/
def Obligations.RingsAndChannels : Prop :=
  (∀ (s : State) (addr : BitVec 32), let a := addr.toNat
    let v := s.ring a
    ringOk a = true → v.failed = false → s.opt.search = none →
    (v.locked = true → ∀ err : Int, ∃ t, exec (.lockLost addr err) s = .next t ∧
      t.ring a = { v with
        locked := false
        err := err } ∧ (∀ b, b ≠ a → t.ring b = s.ring b) ∧
      t.rfld R.optLockStats 32 32 = min (2 ^ 32 - 1) (s.rfld R.optLockStats 32 32 + 1)) ∧
    (v.locked = false → ∀ sp : BitVec 16, ∃ t, exec (.ringRelock addr sp) s = .next t ∧
      t.ring a = { v with
        locked := true
        err := 0
        set := sp.toNat } ∧ (∀ b, b ≠ a → t.ring b = s.ring b) ∧
      t.rfld R.optLockStats 0 32 = min (2 ^ 32 - 1) (s.rfld R.optLockStats 0 32 + 1))) ∧
  (∀ (s : State) (w : Stop) (g : Fin 8), (∀ x ∈ s.opt.rings, x.2.locked = true ∧ x.2.failed = false) → (w.val, g.val) ∈ s.opt.lost →
    ∃ t, exec (.waveguideReturn w g) s = .next t ∧ t.opt = { s.opt with lost := s.opt.lost.erase (w.val, g.val) } ∧
      bit (t.reg (R.baseStopStatus w.val)) (16 + g.val) = false ∧ t.out = s.out) ∧
  (∀ (s : State) (p : Port) (word : Word), let l := fld word 57 5
    let w := fld word 52 5
    let g := fld word 62 2
    (bit word 51 = true → bit word 50 = false → l < 16 → w < 18 → ∃ t, exec (.alignmentBlockMgmt p word) s = .next t ∧
      t.laneWave p.val l = w ∧ t.laneGen p.val = g ∧
      t.out = s.out ++ [.align p.val (g * 2 ^ 62 + l * 2 ^ 57 + w * 2 ^ 52 + 2 ^ 50 + t.marginWord p.val)]) ∧
    (bit word 51 = false → bit word 50 = true → s.opt.moves = [(p.val, l, w)] → ∃ t, exec (.alignmentBlockMgmt p word) s = .next t ∧
      t.laneWave p.val l = w ∧ t.laneGen p.val = g ∧ t.opt.moves = [] ∧ t.out = s.out)) ∧
  (∀ (s : State) (chan : BitVec 32), let a := chan.toNat
    chanOk a = true → s.held = true →
    (bit (s.reg R.optRecalCtl) 63 = true → s.opt.window ≠ s.now / (s.rfld R.optRecalCtl 0 32 * 1000000000) → s.opt.recal = [] →
      s.srcSwitching a = false → s.opt.search = none →
      (s.hasSpare a = true → ∃ t, exec (.recalWindow chan) s = .next t ∧ t.opt.recal = [a] ∧ t.opt.done = [a]) ∧
      (s.hasSpare a = false → ∃ t, exec (.recalWindow chan) s = .next t ∧ t.opt.recal = [] ∧ t.opt.done = [a] ∧ t.out = s.out ∧
        t.rfld R.optCalStats 48 16 = min (2 ^ 16 - 1) (s.rfld R.optCalStats 48 16 + 1))) ∧
    (∀ m : CalMeas,
      (s.opt.recal = [a] → ∃ t, exec (.channelRecalDone chan m m) s = .next t ∧ t.opt.recal = [] ∧
        (ringPlausible m.filt → ringPlausible m.mod → (t.ring a).set = m.filt.set ∧ (t.ring a).target = m.filt.target ∧
          (t.ring (modOf a)).set = m.mod.set) ∧
        (m.filt.peak < 50 → (t.ring a).set = (s.ring a).set)) ∧
      ∀ e, MgmtAlone s 0x0C03 [mask 0 64, 0, 0, 0, 0] e → (e.w 3).toNat = a → s.opt.recal = [] → s.srcSwitching a = false →
        s.hasSpare a = true → ∃ t, exec (.recal [(chan, m, m)]) s = .next t ∧ MgmtEnds s t e 0 1 ∧ t.opt.recal = [] ∧
          (ringPlausible m.filt → ringPlausible m.mod → (t.ring a).set = m.filt.set ∧ (t.ring a).target = m.filt.target)) ∧
    (∀ m : QualMeas, ∃ t, exec (.qualityFiguresUpdate [(chan, m)]) s = .next t ∧
      (m.inService = false ∨ -1000 ≤ m.power → t.out = s.out ∧ t.regs = s.regs) ∧
      (t.chan a).taps = (s.chan a).taps ∧ fld (t.chan a).qual 52 4 = m.man % 16 ∧ fld (t.chan a).qual 44 8 = m.exp % 256 ∧
      bit (t.chan a).qual 1 = m.lock ∧ bit (t.chan a).qual 0 = m.inService)) ∧
  (∀ (s : State) (val : Word), let a := s.rfld R.optRingSel 0 32
    let b := s.rfld R.optChSel 0 32
    (ringOk a = true → ∀ m : RingMeas, m.set = fld val 0 16 → m.target = fld val 16 16 →
      (ringPlausible m → ∃ t, exec (.optRingValWrite val m m) s = .next t ∧ t.ring a = RingVal.mk m.set m.target 0 true false) ∧
      (m.peak < 50 → ∃ t, exec (.optRingValWrite val m m) s = .next t ∧ t.ring a = s.ring a)) ∧
    (chanOk b = true → ∀ eye : Nat,
      (25 ≤ eye → 32 ≤ tap val 0 → (∀ i, 1 ≤ i → i < 8 → 2 * (tap val i).natAbs ≤ (tap val 0).natAbs) →
        ∃ t, exec (.optChTapsWrite val eye eye) s = .next t ∧ (t.chan b).taps = val) ∧
      (eye < 25 → ∃ t, exec (.optChTapsWrite val eye eye) s = .next t ∧ (t.chan b).taps = (s.chan b).taps)) ∧
    (val &&& ~~~ (mask 63 1 ||| mask 0 32) = 0 → bit val 63 = true → chanOk (fld val 0 32) = true →
      ∃ t, exec (.optEyeCtlWrite val) s = .next t ∧ t.opt = { s.opt with eye := some (fld val 0 32) } ∧
        t.reg R.optEyeCtl = val ∧ t.reg R.optEyeResult = 0) ∧
    (∀ c, s.opt.eye = some c → c ∉ s.opt.recal → ∀ eye w h, eye ≤ 100 → w ≤ 100 → h ≤ 100 →
      ∃ t, exec (.eyeScanDone eye w h) s = .next t ∧ t.opt.eye = none ∧
        t.reg R.optEyeResult = BitVec.ofNat 64 (2 ^ 63 + eye * 2 ^ 48 + w * 2 ^ 40 + h * 2 ^ 32))) ∧
  ∀ (s : State) (e : SqEntry),
    (MgmtAlone s 0x0C01 [mask 0 64, mask 0 64, 0, 0, 0] e → (e.w 3).toNat % 64 = 0 → s.calImage.length ≤ (e.w 4).toNat →
      ∃ t, exec .calSave s = .next t ∧ MgmtEnds s t e 0 (BitVec.ofNat 64 s.calImage.length) ∧ t.regs = s.regs ∧ t.opt = s.opt) ∧
    (MgmtAlone s 0x0C02 [mask 0 64, mask 0 64, 0, 0, 0] e → ∀ image, let d := fillData (e.w 4).toNat image
      (∀ st : Fin 3, st ≠ 0 → ∃ t, exec (.calRestore st image []) s = .next t ∧
        MgmtEnds s t e (if st = 1 then 0x06 else 0x07) 0 ∧ t.opt = s.opt) ∧
      (calOk d = false → ∃ t, exec (.calRestore 0 image []) s = .next t ∧ MgmtEnds s t e 0x0B 0 ∧ t.opt = s.opt) ∧
      (calOk d = true → leAt d 0 4 = 0 → ∃ t, exec (.calRestore 0 image []) s = .next t ∧ MgmtEnds s t e 0 0))

/-- R403 to R406; the cause that the start after a failure reports is free (log entry 39). -/
def Obligations.LaserSources : Prop :=
  ∀ (s : State) (n : Fin 44) (k : Nat), n.val ≠ k → k < 44 →
    let codes := fun t : State => t.host.events.map (·.code)
    let others := fun t : State => ∀ j, j < 44 → j ≠ n.val → j ≠ k → t.srcState j = s.srcState j
    ((∀ x ∈ s.opt.switches, x.old ≠ n.val) → s.held = true →
      let begun := fun (t : State) (failed : Bool) => others t ∧ t.srcState k = 1 ∧
        t.opt = { s.opt with switches := s.opt.switches ++ [LaserSwitch.mk n.val k s.now none failed] }
      let told := fun (t : State) (cause : Nat) => t.out = s.out ∧ t.srcState n.val = 2 ∧
        ∃ ev, t.host.events = s.host.events ++ [ev] ∧ ev.code = 0x0C05 ∧ ev.detail = b1 n.val ++ b1 k ++ b1 cause
      (s.standbyOf n.val = some k →
        (s.srcState n.val = 2 →
          (∀ cause : Fin 3, (cause = 1 → s.lowFor n.val = true) → (cause = 0 → 9 * s.rfld (R.optSrcStatus n.val) 32 16 ≤ 10 * s.rfld (R.optSrcStatus n.val) 16 16) →
            ∃ t, exec (.laserStandbyStart n cause) s = .next t ∧ begun t false ∧ told t cause.val) ∧
          (∃ t, exec (.optSrcCmdSwitch (BitVec.ofNat 6 n.val)) s = .next t ∧ begun t false ∧ told t 2) ∧
          ∀ e, MgmtAlone s 0x0C04 [mask 0 6, 0, 0, 0, 0] e → fld (e.w 3) 0 6 = n.val →
            ∃ t, exec .srcSwitch s = .next t ∧ MgmtEnds s t e 0 0 ∧ begun t false) ∧
        (s.srcState n.val = 2 ∨ s.srcState n.val = 3 → ∃ t, exec (.laserFailed n) s = .next t ∧ t.srcState n.val = 5 ∧ begun t true ∧
          codes t = codes s ++ [0x0C08, 0x0C05])) ∧
      (s.standbyOf n.val = none →
        let none_ := fun t : State => t.opt = s.opt ∧ t.regs = s.regs ∧ codes t = codes s ++ [0x0C07]
        (s.srcState n.val = 2 → (s.lowFor n.val = true → ∃ t, exec (.laserStandbyStart n 1) s = .next t ∧ none_ t) ∧
          ∃ t, exec (.optSrcCmdSwitch (BitVec.ofNat 6 n.val)) s = .next t ∧ none_ t) ∧
        (s.srcState n.val = 2 ∨ s.srcState n.val = 3 → ∃ t, exec (.laserFailed n) s = .next t ∧ t.srcState n.val = 5 ∧
          t.opt = s.opt ∧ codes t = codes s ++ [0x0C08, 0x0C07]))) ∧
    ∀ x : LaserSwitch, x.old = n.val → x.new = k →
      let set := fun y : LaserSwitch => s.opt.switches.map fun z => if z = x then y else z
      (s.opt.switches.find? (fun z => decide (z.old = n.val) && z.fade.isNone && !z.failed) = some x →
        ∃ t, exec (.crossfadeStart n) s = .next t ∧ t.opt = { s.opt with switches := set { x with fade := some s.now } } ∧
          others t ∧ t.srcState n.val = 3 ∧ t.srcState k = 3 ∧ t.out = s.out ∧ t.host = s.host) ∧
      (s.opt.switches.find? (fun z => decide (z.old = n.val)) = some x → s.srcState n.val = 2 ∨ s.srcState n.val = 3 →
        ∃ t, exec (.laserFailed n) s = .next t ∧ t.opt = { s.opt with switches := set { x with failed := true } } ∧
          others t ∧ t.srcState n.val = 5 ∧ t.srcState k = s.srcState k ∧ codes t = codes s ++ [0x0C08]) ∧
      (s.opt.switches.find? (fun z => decide (z.old = n.val) && (z.fade.isSome || z.failed)) = some x → s.held = true →
        s.fw.queue = [] → s.justTaken = false →
        ∃ t, exec (.laserSwitched n) s = .next t ∧ t.opt = { s.opt with switches := s.opt.switches.erase x } ∧
          others t ∧ t.srcState n.val = (if x.failed then 5 else 4) ∧ t.srcState k = 2 ∧
          t.rfld (R.optSrcStatus n.val) 8 6 = 0x3F ∧ t.rfld (R.optSrcStatus k) 8 6 = s.rfld (R.optSrcStatus n.val) 8 6 ∧
          (6, t.sourceMap) ∈ t.fw.defaults ∧ codes t = codes s ++ [0x0C06])

/-- R420, R423, R424 and R429 to R445. -/
def Obligations.StagCommands : Prop :=
  (∀ (s : State) (d : Die), let cores := s.coreLosses d.val
    let own := (s.dieIntc d.val).lost
    let seen := fun (x : State) k => SMap.get (fun _ => 0) x.stag.lostSeen k
    let last := SMap.get (fun _ => 0) s.stag.lostSent d.val
    (last = 0 ∨ last + 1000000 ≤ s.now) → (cores ≠ seen s (2 * d.val) ∨ own ≠ seen s (2 * d.val + 1)) →
      ∃ t, exec (.lostEventReport d) s = .next t ∧ seen t (2 * d.val) = cores ∧ seen t (2 * d.val + 1) = own ∧
        SMap.get (fun _ => 0) t.stag.lostSent d.val = s.now ∧ t.out = s.out ∧ t.regs = s.regs ∧
        t.life = ((s.ledgerBy 43 (cores - seen s (2 * d.val))).ledgerBy 44 (own - seen s (2 * d.val + 1))).life) ∧
  (∀ (s : State) (b : Bool),
    (∀ d : Die, ∃ t, exec (.firmwareTimerCompare (.die d) b) s = .next t ∧
      t.dieIntc d.val = (s.dieIntc d.val).edge (if b then 26 else 25) ∧ (∀ e, e ≠ d.val → t.dieIntc e = s.dieIntc e) ∧
      t = { s with dieCtl := t.dieCtl }) ∧
    ∀ u : Fin 4, ∃ t, exec (.firmwareTimerCompare (.stag u) b) s = .next t ∧
      (∀ v, t.stagIntc v = if v / 2 = u.val / 2 then (s.stagIntc v).edge (if b then 75 else 74) else s.stagIntc v) ∧
      t = { s with stagCtl := t.stagCtl }) ∧
  (∀ (s : State) (u : Fin 2), s.stagRuns u.val = true → ∃ t, exec (.stagWatchdogPrewarn u) s = .next t ∧
    (∀ v, t.stagIntc v = if v / 2 = u.val then (s.stagIntc v).edge 65 else s.stagIntc v) ∧ t = { s with stagCtl := t.stagCtl }) ∧
  (∀ (s : State) (u : Fin 2), let p := 1 - u.val
    StagsCalm s →
    (s.stagRuns u.val = true →
      (s.holder ≠ u.val → s.wdCount u.val < 3 → ∃ t, exec (.stagWatchdogReset u) s = .next t ∧ t.stagState u.val = 1 ∧
        t.holder = s.holder ∧ t.host.events = s.host.events ∧ t.out = s.out) ∧
      (s.holder ≠ u.val → 3 ≤ s.wdCount u.val → ∃ t, exec (.stagWatchdogReset u) s = .next t ∧ t.stagState u.val = 6 ∧
        t.holder = s.holder ∧ Reports s t 0x0E05 (b1 u.val ++ b1 1)) ∧
      (s.holder = u.val → s.overlap = false → s.stagState p = 3 → s.wdCount u.val < 3 →
        ∃ t, exec (.stagWatchdogReset u) s = .next t ∧ t.stagState u.val = 1 ∧ t.stagState p = 4 ∧ t.holder = p ∧
          t.reg R.mgtStagLast = BitVec.ofNat 64 s.now ∧ Reports s t 0x0E01 (b1 p ++ b1 0))) ∧
    (s.stagState u.val = 1 →
      (s.holder ≠ 3 → ∃ t, exec (.selftestEnd u true) s = .next t ∧ t.stagState u.val = 2 ∧ t.holder = s.holder ∧ t.host = s.host) ∧
      (s.holder = 3 → u = 0 → ∃ t, exec (.selftestEnd u true) s = .next t ∧ t.stagState u.val = 5 ∧ t.holder = u.val ∧
        Reports s t 0x0E01 (b1 u.val ++ b1 3)) ∧
      ∃ t, exec (.selftestEnd u false) s = .next t ∧ t.stagState u.val = 6 ∧ t.holder = s.holder ∧
        Reports s t 0x0E05 (b1 u.val ++ b1 0)) ∧
    (s.stagState u.val = 5 → ∃ t, exec (.recoveryEnd u) s = .next t ∧ t.stagState u.val = 4 ∧ t.holder = s.holder ∧
      t.host = s.host ∧ t.out = s.out) ∧
    (s.stagState u.val = 2 → s.held = true → s.holder ≠ u.val → ∃ t, exec (.stagInSync u) s = .next t ∧ t.stagState u.val = 3 ∧
      t.holder = s.holder ∧ Reports s t 0x0E03 (b1 u.val) ∧ (u = 0 → t.stag.holdoff = some s.now)) ∧
    (s.holder = u.val → s.stagState p = 3 →
      (∃ t, exec .mgtStagCmdHandover s = .next t ∧ t.stagState u.val = 3 ∧ t.stagState p = 4 ∧ t.holder = p ∧
        Reports s t 0x0E01 (b1 p ++ b1 1)) ∧
      ∃ t, exec .mgtStagCmdResetStandby s = .next t ∧ t.stagState p = 1 ∧ t.holder = u.val ∧ t.host = s.host ∧ t.out = s.out) ∧
    (s.holder = u.val → s.stagState u.val = 4 → s.stag.acked ≤ s.stag.mirror → ∀ dst code a b : Nat,
      let n := s.stag.mirror + 1
      (s.stagState p ≠ 3 → ∃ t, exec (.mirrorRecord (.message dst code a b) true) s = .next t ∧ t.stag.mirror = n ∧
        t.stag.held = [] ∧ t.out = s.out ++ [.mgmt dst code a b]) ∧
      (s.stagState p = 3 →
        (∃ t, exec (.mirrorRecord (.message dst code a b) true) s = .next t ∧ t.stag.mirror = n ∧
          t.stag.held = [(n, .message dst code a b)] ∧ t.out = s.out ++ [.mirror 1 n [], .mgmt dst code a b]) ∧
        ∃ t, exec (.mirrorRecord (.message dst code a b) false) s = .next t ∧ t.stagState p = 2 ∧ t.stag.held = [] ∧
          Reports s t 0x0E04 (b1 p ++ natToBytes 4 n) ∧ t.out = s.out ++ [.mirror 1 n [], .mgmt dst code a b])) ∧
    (s.overlap = true →
      (∀ claim : Bool, ∃ t, exec (.overlapHeartbeat u claim) s = .next t ∧ SMap.get (fun _ => 0) t.stag.beatRx u.val = s.now ∧
        t.host = s.host ∧ t.out = s.out ∧ (claim = false → t.regs = s.regs) ∧
        (claim = true → s.stagState u.val = 4 → t.stagState u.val = 3 ∧ (s.holder = u.val → t.holder = p))) ∧
      (s.stagRuns u.val = true → SMap.get (fun _ => 0) s.stag.beatTx u.val + 10000 ≤ s.now →
        ∃ t, exec (.heartbeatSend u) s = .next t ∧ t.regs = s.regs ∧
          t.out = s.out ++ [.heartbeat u.val (decide (s.stagState u.val = 4 ∧ s.holder = u.val))]) ∧
      (s.stagState u.val = 3 → SMap.get (fun _ => 0) s.stag.beatRx u.val + 50000 ≤ s.now →
        ∃ t, exec (.heartbeatTimeout u) s = .next t ∧ t.stagState u.val = 4 ∧ t.holder = u.val ∧
          Reports s t 0x0E01 (b1 u.val ++ b1 2)))) ∧
  (∀ (s : State), StagsCalm s →
    (s.stag.startWait = true → s.holder = 3 → s.stagState 1 = 2 → ∃ t, exec .stagAStartTimeout s = .next t ∧
      t.stagState 1 = 5 ∧ t.holder = 1 ∧ t.stag.startWait = false ∧ Reports s t 0x0E01 (b1 1 ++ b1 3)) ∧
    (∀ t0, s.stag.holdoff = some t0 → s.holder = 1 → s.stagState 0 = 3 → s.stagState 1 = 4 → t0 + 60000000000 ≤ s.now →
      ∃ t, exec .stagReturn s = .next t ∧ t.stagState 0 = 4 ∧ t.stagState 1 = 3 ∧ t.holder = 0 ∧ t.stag.holdoff = none ∧
        Reports s t 0x0E02 []) ∧
    (s.standby = none → ∀ i ∈ [Instr.mgtStagCmdHandover, Instr.mgtStagCmdResetStandby], ∃ t, exec i s = .next t ∧
      OnlyRegs s t [R.mgtStagStats] ∧ t.rfld R.mgtStagStats 24 8 = min 255 (s.rfld R.mgtStagStats 24 8 + 1))) ∧
  ∀ (s : State) (n dst code a b : Nat) (rest : List (Nat × StagOut)), s.stag.held = (n, .message dst code a b) :: rest →
    ∃ t, exec .mirrorAck s = .next t ∧ t.stag.held = rest ∧ t.regs = s.regs ∧
      t.out = s.out ++ (if n ≤ s.stag.acked then [] else [.mgmt dst code a b])

/-- R164, R448 to R459, R474, R485. -/
def Obligations.ResetCommands : Prop :=
  (∀ (s : State) (d : Die), Undisturbed s → s.running = true →
    (s.dieState d.val = 0 ∨ s.dieState d.val = 4 →
      (∃ t, exec (.dieReset d 1) s = .next t ∧ DieCleared s t d.val ∧ t.dieState d.val = 1 ∧ t.rfld (R.rstDieStatus d.val) 4 3 = 1 ∧
        (∀ e, e < 8 → e ≠ d.val → t.dieState e = s.dieState e)) ∧
      ∃ t, exec (.rstDieCmdHold d) s = .next t ∧ DieCleared s t d.val ∧ t.dieState d.val = 3 ∧
        (∀ e, e < 8 → e ≠ d.val → t.dieState e = s.dieState e)) ∧
    (s.dieState d.val = 0 → (∀ c : Fin 5, c = 2 ∨ c = 3 →
      (s.autoCount d.val < 3 → ∃ t, exec (.dieReset d c) s = .next t ∧ DieCleared s t d.val ∧ t.dieState d.val = 1 ∧
        t.rfld (R.rstDieStatus d.val) 4 3 = c.val ∧ t.rfld (R.rstDieStatus d.val) 8 4 = s.autoCount d.val + 1) ∧
      (3 ≤ s.autoCount d.val → ∃ t, exec (.dieReset d c) s = .next t ∧ DieCleared s t d.val ∧ t.dieState d.val = 4 ∧
        Reports s t 0x0F04 (b1 d.val ++ b1 c.val))) ∧
      ∃ t, exec (.dieReset d 4) s = .next t ∧ DieCleared s t d.val ∧ t.dieState d.val = 4 ∧ Reports s t 0x0F04 (b1 d.val ++ b1 4))) ∧
  (∀ (s : State) (d : Die),
    (s.dieState d.val = 3 → ∃ t, exec (.rstDieCmdRelease d) s = .next t ∧ t.dieState d.val = 2 ∧ OnlyRegs s t [R.rstDieStatus d.val]) ∧
    (s.dieState d.val = 1 ∨ s.dieState d.val = 2 → ∀ (cores : List CoreId) (v : Fin 101),
      (s.dieChecks d.val cores = true → s.fw.ext = [] → ∀ (x : List (Fin 272)) (y : List (Fin 270)),
        ∃ t, exec (.dieStartUpDone d cores { routers := [], deskew := some (x, y), avs := some v }) s = .next t ∧ t.dieState d.val = 0 ∧
          (∀ c ∈ cores, c.die = d → c.col.val = (t.spares d.val c.row.val).1 ∨ c.col.val = (t.spares d.val c.row.val).2) ∧
          t.rfld R.mgtAvs (8 * d.val) 8 = 50 + v.val ∧ Reports s t 0x0F03 (b1 d.val ++ b1 (s.rfld (R.rstDieStatus d.val) 4 3) ++ b1 0)) ∧
      ∀ x : DieTest, x.avs = some v → x.deskew = none ∨ x.routers ≠ [] →
        ∃ t, exec (.dieStartUpDone d cores x) s = .next t ∧ t.dieState d.val = 4 ∧
          t.host.events.map (·.code) = s.host.events.map (·.code) ++ [0x0F03, 0x0F04])) ∧
  (∀ (s : State) (c : CoreId) (cause : Fin 3), let d := c.die.val
    s.dieState d = 0 →
    ((s.coreAt c.key).rs ≠ .fenced → s.mmu.faults = [] → ∃ t, exec (.islandFence c false cause) s = .next t ∧
      (t.coreAt c.key).rs = .fenced ∧ (∀ k, k ≠ c.key → t.coreAt k = s.coreAt k) ∧ t.dieState d = 0 ∧
      t.rfld (R.rstDieStatus d) 48 9 = (s.rfld (R.rstDieStatus d) 48 9 + 1) % 512 ∧
      Reports s t 0x0F05 (b1 d ++ b1 c.row.val ++ b1 c.col.val ++ b1 0 ++ b1 cause.val)) ∧
    (cause ≠ 2 → s.running = true → s.autoCount d < 3 → ∃ t, exec (.islandFence c true cause) s = .next t ∧ t.dieState d = 1 ∧
      t.rfld (R.rstDieStatus d) 4 3 = 2)) ∧
  (∀ s : State,
    (s.warm = true → ∃ t, exec .rstCmdWarm s = .next t ∧ OnlyRegs s t [R.rstStatus] ∧ t.warm = true ∧
      t.rfld R.rstStatus 48 16 = min 65535 (s.rfld R.rstStatus 48 16 + 1)) ∧
    (s.running = true → Undisturbed s → ∃ t, exec .rstCmdWarm s = .next t ∧ t.warm = true ∧ t.pending = s.pending ∧
      (∀ d, d < 8 → t.dieState d = if 3 ≤ s.dieState d then s.dieState d else 1) ∧ t.bol = { s.bol.fresh with streams := [] } ∧
      t.mem.bytes = s.mem.bytes ∧ t.aligned = false ∧ (∀ d, d < 8 → t.rfld (R.dieMeshStatus d) 0 1 = 0) ∧
      (∀ off, warmClears off = true → off ≠ R.hifLinkStatus → (∀ d, d < 8 → off ≠ R.dieMeshStatus d) → t.reg off = Regs.initial off)) ∧
    (s.warm = true → (∀ d, d < 8 → s.dieState d ≠ 1 ∧ s.dieState d ≠ 2) → (∀ n, n < 64 → bit (s.reg (R.colCtx n)) 0 = false) →
      s.therm.swapWaits = false → ∃ t, exec .warmResetEnd s = .next t ∧ t.running = true ∧
        t.rfld R.rstStatus 32 16 = min 65535 (s.rfld R.rstStatus 32 16 + 1) ∧
        (s.timeSource ≠ 0 ∨ s.time.given = false → OnlyRegs s t [R.rstStatus]) ∧
        (s.timeSource = 0 → s.time.given = true → t.aligned = true)) ∧
    (s.therm.tripped = false → s.therm.cold = none →
      let heldAs := fun (t : State) c => t.therm.cold = some c ∧ t.pending = s.pending ∧ t.mem.bytes = [] ∧ t.holder = 3 ∧
        t.rfld R.rstStatus 0 2 = 0 ∧ (∀ d, d < 8 → t.dieState d = 1) ∧ (t.fw.slotA, t.fw.slotB, t.fw.boot) = (s.fw.slotA, s.fw.slotB, s.fw.boot)
      (∃ t, exec .rstCmdCold s = .next t ∧ heldAs t 3) ∧
      (bit (s.reg R.clkRefStatus) 0 = true → ∃ t, exec .refclkLoss s = .next t ∧ heldAs t 5 ∧ bit (t.reg R.clkRefStatus) 0 = false ∧
        t.rfld R.clkRefStatus 32 16 = min 65535 (s.rfld R.clkRefStatus 32 16 + 1))) ∧
    (∀ g, (1000000 ≤ g → ∃ t, exec (.refclkRestored g) s = .next t ∧ OnlyRegs s t [R.clkRefStatus] ∧ bit (t.reg R.clkRefStatus) 0 = true) ∧
      (g < 1000000 → exec (.refclkRestored g) s = .next s)) ∧
    (∀ (c : Nat) (su : StartUp), s.therm.cold = some c → c < 8 → s.pkg.pwrgood = true → s.pkg.vio = true →
      bit (s.reg R.clkRefStatus) 0 = true →
      (s.fw.boot.trial = false → s.fw.boot.arm = false → s.slotVerifies s.fw.boot.confirmed = true →
        ∃ t, exec (.coldReset su) s = .next t ∧ t.therm.cold = none ∧ t.therm.tripped = false ∧ t.running = decide (s.restoreWait = 0) ∧
          t.rfld R.rstCause 0 4 = c ∧ t.holder = 3 ∧ t.stagState 0 = 1 ∧ t.stagState 1 = 1 ∧ t.stag.startWait = true ∧
          t.pending = s.pending) ∧
      (s.slotVerifies false = false → s.slotVerifies true = false →
        ∃ t, exec (.coldReset su) s = .next t ∧ t.therm.cold = none ∧ t.phase = 7 ∧ t.holder = 3)))

/-- R460 to R471. -/
def Obligations.ThermalCommands : Prop :=
  (∀ (s : State) (i : Fin 2500) (v : Int), s.therm.tripped = false →
    (-320 ≤ v → v < 920 → s.sensorState i.val = 0 → ∃ t, exec (.sensorSample i v) s = .next t ∧ t.reading i.val = v ∧
      t.sensorState i.val = 0 ∧ (∀ off, off ≠ R.thmRead (i.val / 4) → t.reg off = s.reg off) ∧ t.out = s.out ∧ t.host = s.host) ∧
    (920 ≤ v → v ≤ 1200 → s.sensorState i.val = 0 → s.masked i.val = false → isReadout i.val = false → s.therm.cold = none →
      ∃ t, exec (.sensorSample i v) s = .next t ∧ t.therm.tripped = true ∧ t.therm.trip = some (i.val, v, s.now) ∧
        t.out.getLast? = some (.pin Pin.thermtrip false)) ∧
    (s.masked i.val = true → s.sensorState i.val = 0 →
      let broken := fun (t : State) st => t.sensorState i.val = st ∧ t.reading i.val = 1016 ∧
        Reports s t 0x0F02 (natToBytes 2 i.val ++ b1 st) ∧ t.therm.tripped = false
      (v < -320 ∨ 1200 < v → ∃ t, exec (.sensorSample i v) s = .next t ∧ broken t 2) ∧
      ((SMap.get (fun _ => (0, 0)) s.therm.raw i.val).2 + 4 * samplePeriod i.val < s.now →
        ∃ t, exec (.sensorSelfCheck i v false) s = .next t ∧ broken t 3) ∧
      (s.now ≤ (SMap.get (fun _ => (0, 0)) s.therm.raw i.val).2 + 4 * samplePeriod i.val → isReadout i.val = false →
        v < 60 ∨ 100 < v → ∃ t, exec (.sensorSelfCheck i v false) s = .next t ∧ broken t 1)) ∧
    (s.now ≤ (SMap.get (fun _ => (0, 0)) s.therm.raw i.val).2 + 4 * samplePeriod i.val → 60 ≤ v → v ≤ 100 →
      exec (.sensorSelfCheck i v false) s = .next s) ∧
    (∀ a, SMap.get (fun _ => none) s.therm.condAt i.val = some a → s.sensorState i.val ≠ 0 → a + 1000000000 ≤ s.now →
      (SMap.get (fun _ => (0, 0)) s.therm.raw i.val).1 = v → -2048 ≤ v → v < 2048 →
      ∃ t, exec (.sensorRecover i) s = .next t ∧ t.sensorState i.val = 0 ∧ t.reading i.val = v ∧
        SMap.get (fun _ => none) t.therm.condAt i.val = none ∧ t.out = s.out)) ∧
  (∀ (s : State) (n : Stack) (slots : Nat), let k := n.val
    let w := s.reg (R.thmEstCoef k)
    let v := s.reading (2432 + k) + signed (fld w 40 8) 8
    s.therm.tripped = false → SMap.get (fun _ => (0, 1)) s.therm.act k = (0, 1) →
    (fld w 0 16 = 4096 → 1 ≤ fld w 48 8 → s.masked (2432 + k) = false → s.masked (2444 + k) = false →
      s.sensorState (2432 + k) = 0 → s.sensorState (2444 + k) = 0 → -2048 ≤ v → v < 840 →
      ∃ t, exec (.hbmEstimateUpdate n 0 slots) s = .next t ∧ t.reading (2500 + k) = v ∧ t.out = s.out ∧ t.host = s.host) ∧
    (s.masked (2432 + k) = true → s.masked (2444 + k) = true → s.masked (2500 + k) = true →
      ∃ t, exec (.hbmEstimateUpdate n 0 slots) s = .next t ∧ t.reading (2500 + k) = 1016 ∧ t.therm.tripped = false)) ∧
  (let moved := fun (p : Nat) (e : Int) => if 0 < e then min 48 (p + min 8 ((e + 1) / 2).toNat) else if e < -16 then p - 1 else p;
    (∀ (s : State) (d : Die) (v : Int), let n := d.val
      let p' := moved (s.rfld (R.thmThrottle n) 0 6) (v - 8 * s.rfld R.thmLimits 0 8)
      let eff := max p' (min 48 (s.rfld R.thmPfloor (8 * n) 6))
      s.therm.tripped = false → s.therm.pstag = [] → s.hottest (dieSensors n ++ halfSensors (n / 4)) = some v →
        ∃ t, exec (.throttleLoop d) s = .next t ∧ t.rfld (R.thmThrottle n) 0 6 = p' ∧ t.rfld (R.thmThrottle n) 24 6 = eff ∧
          bit (t.reg R.thmStatus) (8 + n) = decide (0 < eff) ∧
          (∀ off, off ≠ R.thmThrottle n → off ≠ R.thmStatus → t.reg off = s.reg off) ∧ t.out = s.out) ∧
    ∀ (s : State) (k : Stack), let n := k.val
      let p' := moved (s.rfld (R.thmHbmThrottle n) 0 6) (s.reading (2500 + n) - 8 * s.rfld R.thmLimits 8 8)
      s.therm.tripped = false → s.masked (2500 + n) = false →
        ∃ t, exec (.hbmThrottleLoop k) s = .next t ∧ t.rfld (R.thmHbmThrottle n) 0 6 = p' ∧
          bit (t.reg R.thmStatus) (16 + n) = decide (0 < p') ∧
          (∀ off, off ≠ R.thmHbmThrottle n → off ≠ R.thmStatus → t.reg off = s.reg off) ∧ t.out = s.out) ∧
  ∀ (s : State),
    (∀ (n : Stack) (val : Word), val &&& ~~~ (mask 48 8 ||| mask 40 8 ||| mask 32 8 ||| mask 0 16) = 0 →
      (coefOk val = true → ∃ t, exec (.thmEstCoefWrite n val) s = .next t ∧ t.reg (R.thmEstCoef n.val) = val ∧
        OnlyRegs s t [R.thmEstCoef n.val]) ∧
      (coefOk val = false → ∃ t, exec (.thmEstCoefWrite n val) s = .next t ∧ OnlyRegs s t [R.thmStatus] ∧
        t.rfld R.thmStatus 48 16 = min 65535 (s.rfld R.thmStatus 48 16 + 1))) ∧
    (s.therm.tripped = true → s.therm.coolAt + 30000000000 ≤ s.now → s.rfld R.rstStatus 9 1 = 0 → s.therm.cold = none → s.allCool = true → s.pkg.jtag < 3 →
      ∃ t, exec .tripRestartWindowEnd s = .next t ∧ t.therm.cold = some 6 ∧ t.therm.trip = s.therm.trip ∧
        t.out = s.out ++ [.pin Pin.thermtrip true]) ∧
    ∀ level, ∃ t, exec (.thermtripNLevelChange level) s = .next t ∧ OnlyRegs s t [R.rstStatus] ∧ bit (t.reg R.rstStatus) 8 = level

/-- R487 to R505; package flash has no other write waiting, so the writes take effect at once (log entry 33). -/
def Obligations.FirmwareCommands : Prop :=
  (∀ (s : State) (e : SqEntry) (data : List Byte), let n := (e.w 4).toNat
    (MgmtAlone s 0x1001 [mask 0 64, mask 0 64, mask 0 64, mask 0 10, mask 0 64] e → (e.w 3).toNat % 64 = 0 → n ≤ 2 ^ 24 →
      (∀ st : Fin 3, st ≠ 0 → fld (e.w 6) 0 10 ≤ 512 → ∃ t, exec (.fwStage st data []) s = .next t ∧
        MgmtEnds s t e (if st = 1 then 0x06 else 0x07) 0 ∧ t.fw = s.fw) ∧
      (fld (e.w 6) 0 10 ≤ 512 → ∀ c, s.stageFault (fillData n data) = some c → ∃ t, exec (.fwStage 0 data []) s = .next t ∧
        MgmtEnds s t e 0x0B 0 ∧ t.fw = s.fw ∧ Reports s t 0x1002 (b1 c)) ∧
      (fld (e.w 6) 0 10 = 0 → s.stageFault (fillData n data) = none → s.fw.queue = [] → s.justTaken = false → ∃ t, exec (.fwStage 0 data []) s = .next t ∧
        t.host.mgmt = [] ∧ t.sq e.ring = s.sq e.ring ∧ t.phase = 1 ∧ t.fw.slotState s.fw.other = 0 ∧
        t.fw.staging = some (Staging.mk (fillData n data) (e.w 7).toNat (some (e.ring, e.index)) false) ∧
        t.fw.queue = [.slot s.fw.other (fillData n data)])) ∧
    (MgmtAlone s 0x1002 [mask 0 62, 0, 0, 0, 0] e → let may := s.fw.slotState s.fw.other = 1 ∧ s.phase ∈ [0, 2, 3]
      (may → ∃ t, exec .fwActivate s = .next t ∧ MgmtEnds s t e 0 0 ∧ t.phase = 3 ∧
        t.reg R.fwActTime = BitVec.ofNat 64 (2 ^ 63 + fld (e.w 3) 0 62)) ∧
      (¬ may → ∃ t, exec .fwActivate s = .next t ∧ MgmtEnds s t e 0x0B 0 ∧ t.fw = s.fw ∧ t.regs = s.regs)) ∧
    (MgmtAlone s 0x1003 [0, 0, 0, 0, 0] e →
      (bit (s.reg R.fwActTime) 63 = true → ∃ t, exec .fwCancel s = .next t ∧ MgmtEnds s t e 0 0 ∧ t.phase = 2 ∧ t.reg R.fwActTime = 0) ∧
      (bit (s.reg R.fwActTime) 63 = false → ∃ t, exec .fwCancel s = .next t ∧ MgmtEnds s t e 0x0B 0 ∧ t.fw = s.fw ∧ t.regs = s.regs)) ∧
    (MgmtAlone s 0x1004 [0, 0, 0, 0, 0] e → ∃ t, exec .fwHostOk s = .next t ∧ MgmtEnds s t e 0 0 ∧
      t.reg R.fwHealthConfirm = setBit (s.reg R.fwHealthConfirm) 1
        (bit (s.reg R.fwHealthConfirm) 1 || (s.fw.boot.trial && decide (s.now < (s.reg R.fwHealthDeadline).toNat))) ∧ t.fw = s.fw) ∧
    (MgmtAlone s 0x1005 [0, 0, 0, 0, 0] e →
      (s.phase = 5 → s.stagOut 0 = false → s.stagOut 1 = false → ∃ t, exec .fwFallback s = .next t ∧ MgmtEnds s t e 0 0 ∧
        t.fw.slotState s.fw.other = 3 ∧ t.fw.boot.trial = false) ∧
      (s.phase ≠ 5 → ∃ t, exec .fwFallback s = .next t ∧ MgmtEnds s t e 0x0B 0 ∧ t.fw = s.fw ∧ t.regs = s.regs)) ∧
    (MgmtAlone s 0x1006 [mask 0 64, mask 0 64, mask 0 1, 0, 0] e → n ≤ 0x100000 → s.fw.queue = [] → s.justTaken = false →
      (∀ l, parseDefaults (n + 1) (fillData n data) = some l → bit (e.w 5) 0 = false → ∃ t, exec (.defaultsWrite 0 data) s = .next t ∧
        MgmtEnds s t e 0 (BitVec.ofNat 64 l.length) ∧ (∀ x ∈ l, x.1 ≠ 4 → x ∈ t.fw.defaults) ∧
        (∀ x ∈ s.fw.defaults, x.1 ∉ l.map (·.1) → x ∈ t.fw.defaults) ∧ (∀ x ∈ t.fw.defaults, x ∈ l ∨ x ∈ s.fw.defaults)) ∧
      (parseDefaults (n + 1) (fillData n data) = none → ∃ t, exec (.defaultsWrite 0 data) s = .next t ∧ MgmtEnds s t e 0x0B 0 ∧
        t.fw = s.fw)) ∧
    (MgmtAlone s 0x1007 [mask 0 64, mask 0 64, 0, 0, 0] e → let k := (s.defaultRecords.flatMap defaultBytes).length
      (k ≤ n → ∃ t, exec .defaultsRead s = .next t ∧ MgmtEnds s t e 0 (BitVec.ofNat 64 k) ∧ t.fw = s.fw) ∧
      (n < k → ∃ t, exec .defaultsRead s = .next t ∧ MgmtEnds s t e 0x0B 0 ∧ t.fw = s.fw)) ∧
    (s.fw.queue = [] → s.justTaken = false → let d := fillData 256 data
      (MgmtAlone s 0x1008 [mask 0 64, 0, 0, 0, 0] e →
        (ownerOk s.fw.ownerKey d = true → ∃ t, exec (.ownerEnrol 0 data) s = .next t ∧ MgmtEnds s t e 0 0 ∧
          t.fw.ownerKey = (if zeroAt d 8 128 then [] else d) ∧ (zeroAt d 8 128 = true → t.fw.policy = [] ∧ t.fw.ext = [])) ∧
        (ownerOk s.fw.ownerKey d = false → ∃ t, exec (.ownerEnrol 0 data) s = .next t ∧ MgmtEnds s t e 0x0B 0 ∧ t.fw = s.fw)) ∧
      (MgmtAlone s 0x1009 [mask 0 64, 0, 0, 0, 0] e → s.phase < 4 →
        let ok := policyOk s.fw.ownerKey s.fw.policy d = true ∧ policyMin d ≤ imgSecver (s.fw.slotData s.fw.boot.confirmed)
        ∃ t, exec (.ownerPolicy 0 data) s = .next t ∧ MgmtEnds s t e (if ok then 0 else 0x0B) 0 ∧
          t.fw.policy = (if ok then d else s.fw.policy) ∧ t.fw.ownerKey = s.fw.ownerKey)) ∧
    (MgmtAlone s 0x100A [mask 0 64, mask 0 64, 0, 0, 0] e → n ≤ 0xC0000 → s.phase < 4 → s.fw.queue = [] → s.justTaken = false →
      let ok := extOk s.fw.ownerKey s.minVersion (fillData n data) = true
      ∃ t, exec (.ownerExt 0 data) s = .next t ∧ MgmtEnds s t e (if ok then 0 else 0x0B) 0 ∧
        t.fw.ext = (if ok then fillData n data else s.fw.ext) ∧ t.fw.reload = (if ok then s.upDies else s.fw.reload)) ∧
    (MgmtAlone s 0x100B [mask 0 64, mask 0 64, mask 0 64, 0, 0] e →
      (∀ r, s.quote (fillData 64 data) = some r → r.length ≤ (e.w 5).toNat → ∃ t, exec (.quote 0 data) s = .next t ∧
        MgmtEnds s t e 0 (BitVec.ofNat 64 r.length)) ∧
      (s.quote (fillData 64 data) = none → ∃ t, exec (.quote 0 data) s = .next t ∧ MgmtEnds s t e 0x0B 0)) ∧
    (MgmtAlone s 0x100C [mask 0 64, mask 0 64, 0, 0, 0] e → let k := Config.certChain.length
      ∃ t, exec .certRead s = .next t ∧ MgmtEnds s t e (if k ≤ n then 0 else 0x0B) (if k ≤ n then BitVec.ofNat 64 k else 0))) ∧
  (∀ (s : State) (h : ChainHead) (k : Nat) (data : List Byte), k < h.total → s.held = true →
    (s.chainBusy = true → k ≠ 0 → ∃ t, exec (.chainTransferBlock (.received h k data)) s = .next t ∧
      t = s.emit (.chainAck h.id k false)) ∧
    (s.chainBusy = false → 2 ≤ h.total → s.fw.rx = none →
      (∃ t, exec (.chainTransferBlock (.received h k data)) s = .next t ∧ t.out = s.out ++ [.chainAck h.id k true] ∧
        t.fw.rx = some (ChainRx.mk h [(k, fillData 4096 data)]) ∧ t.regs = s.regs) ∧
      ∃ t, exec (.chainInFrame h k data true) s = .next t ∧ t.out = s.out ∧ t.regs = s.regs ∧
        t.fw.rx = some (ChainRx.mk { h with wire := true } [(k, fillData 4096 data)])) ∧
    exec (.chainInFrame h k data false) s = .next s) ∧
  (∀ (s : State) (x : ChainTx), s.fw.tx = some x →
    let broken := fun (t : State) => t.fw = { s.fw with tx := none } ∧
      Reports s t 0x1003 (natToBytes 2 x.head.pos ++ natToBytes 2 (nth x.head.pos x.head.list 0 % 512))
    (∃ t, exec (.chainTransferBlock (.acked false)) s = .next t ∧ broken t) ∧
    (x.time + 1000000000 ≤ s.now → ∃ t, exec .chainAckTimeout s = .next t ∧ broken t) ∧
    (s.now < x.time + 1000000000 → exec .chainAckTimeout s = .next s) ∧
    (x.head.total ≤ x.sent + 1 → ∃ t, exec (.chainTransferBlock (.acked true)) s = .next t ∧ t.fw = { s.fw with tx := none } ∧
      t.out = s.out ∧ t.rfld R.fwChainStatus 0 13 = (x.sent + 1) % 8192) ∧
    (x.sent + 1 < x.head.total → bit (s.reg R.fabStatus) 0 = true → ∃ t, exec (.chainTransferBlock (.acked true)) s = .next t ∧
      t.out = s.out ++ [.chain (nth x.head.pos x.head.list 0 % 512) x.head (x.sent + 1) 0 (imgBlock x.image (x.sent + 1))] ∧
      t.fw.tx = some { x with
        sent := x.sent + 1
        time := s.now })) ∧
  (∀ (s : State) (x : ChainRx), s.fw.rx = some x → x.head.wire = true →
    (∃ t, exec (.chainInPassEnd true) s = .next t ∧ t.fw = { s.fw with rx := none } ∧ Reports s t 0x1002 (b1 4)) ∧
    exec (.chainInPassEnd false) s = .next s) ∧
  (∀ (s : State) (x : Staging), s.fw.staging = some x → x.written = true → x.entry = none → let b := s.fw.other
    (∃ t, exec (.stagingDone true) s = .next t ∧ t.fw.staging = none ∧ t.fw.slotState b = 1 ∧
      t.phase = (if x.atTime = 0 then 2 else 3) ∧ Reports s t 0x1001 (b1 b.toNat ++ natToBytes 4 (imgSecver x.image)) ∧
      (x.atTime ≠ 0 → t.reg R.fwActTime = BitVec.ofNat 64 (2 ^ 63 + x.atTime % 2 ^ 62))) ∧
    ∃ t, exec (.stagingDone false) s = .next t ∧ t.fw.staging = none ∧ t.fw.slotState b = 0 ∧ t.phase = 0 ∧ Reports s t 0x1002 (b1 3)) ∧
  (∀ (s : State) (d : Die), let mine := fun k : Nat => k / 288 = d.val
    (d.val ∈ s.fw.reload → s.fw.pausing = none → s.dieUp d.val = true →
      ∃ t, exec (.dieControllerReload d) s = .next t ∧ t = { s with fw := t.fw, cores := t.cores } ∧
        t.fw = { s.fw with pausing := some { die := d.val, since := s.now, late := [] } } ∧
        (∀ k, ¬ mine k → t.coreAt k = s.coreAt k) ∧
        ∀ k, mine k → let c := s.coreAt k
          let c' := t.coreAt k
          c.rs ≠ .fenced → c.pause = none → c.stopping = false →
            c'.pause = some (c.rs, c.stall) ∧ c'.rs = (if c.rs.halted then c.rs else .haltedCtl) ∧
            (∀ n, n < 6 → (c'.engine n).stop = true) ∧ c'.engine 6 = c.engine 6 ∧
            (c'.g, c'.cnt, c'.ctl.pc, c'.ctl.preds, c'.mail, c'.scratch) = (c.g, c.cnt, c.ctl.pc, c.ctl.preds, c.mail, c.scratch)) ∧
    ∀ x : Reload, s.fw.pausing = some x → x.die = d.val → x.late = [] →
      ∃ t, exec (.dieControllerReload d) s = .next t ∧ t.fw.pausing = none ∧ t.mem = s.mem ∧
        t.fw.reload = s.fw.reload.filter (fun y => decide (y ≠ d.val) && s.dieUp y) ∧
        (∀ k, ¬ mine k → t.coreAt k = s.coreAt k) ∧
        ∀ k, mine k → let c := s.coreAt k
          let c' := t.coreAt k
          ∀ rs stall, c.pause = some (rs, stall) → c.stopping = false →
            c'.pause = none ∧ c'.rs = rs ∧ c'.stall = stall ∧ (∀ n, n < 6 → (c'.engine n).stop = false) ∧
            (c'.g, c'.cnt, c'.ctl, c'.mail, c'.scratch) = (c.g, c.cnt, c.ctl, c.mail, c.scratch)) ∧
  ∀ (s : State), s.held = true → let b := s.fw.other
    (s.phase = 5 → s.now < (s.reg R.fwHealthDeadline).toNat → s.fw.policy = [] → ∃ t, exec .healthConfirm s = .next t ∧
      t.phase = 0 ∧ t.fw.boot.confirmed = b ∧ t.fw.boot.trial = false ∧ t.fw.slotState b = 2 ∧ t.fw.slotState (!b) = 1 ∧
      bit (t.reg R.fwHealthConfirm) 0 = true ∧ Reports s t 0x1005 (b1 b.toNat)) ∧
    (s.phase ∈ [4, 5] → (s.reg R.fwHealthDeadline).toNat ≤ s.now → s.stagOut 0 = false → s.stagOut 1 = false →
      ∃ t, exec .healthWindowEnd s = .next t ∧ t.fw.boot.trial = false ∧ t.fw.slotState b = 3 ∧ t.mem = s.mem)

/-- R512 to R521, R529 and R530. -/
def Obligations.LedgerAndDebug : Prop :=
  (∀ (s : State), ∃ t, exec (.ledgerSecond []) s = .next t ∧ t.life.second = s.life.second + 1 ∧ t.out = s.out ∧ t.host = s.host ∧
    SMap.get (fun _ => 0) t.life.life 0 = min (2 ^ 64 - 1) (SMap.get (fun _ => 0) s.life.life 0 + 1)) ∧
  (∀ (s : State),
    (s.held = true → s.life.apart = false → s.hourEnd + 10000000 ≤ s.now → ∃ t, exec .hourWindowClose s = .next t ∧
      t.life.hour = s.life.hourNext ∧ t.life.hourNext = [] ∧ t.life.hourSeq = s.life.hourSeq + 1 ∧ t.life.life = s.life.life ∧
      t.reg R.lifeHourStart = BitVec.ofNat 64 s.hourEnd ∧ bit (t.reg R.lifeStatus) 31 = true ∧
      ∃ r, t.fw.queue = s.fw.queue ++ [.ledger false s.life.hourSeq r] ∧ r.length = 4096 ∧ bytesToNat ((r.drop 8).take 8) = s.life.hourSeq % 2 ^ 64) ∧
    (s.now < s.hourEnd + 10000000 → exec .hourWindowClose s = .next s) ∧
    (s.held = true → s.life.apart = false → s.dayEnd + 10000000 ≤ s.now → ∃ t, exec .dayWindowClose s = .next t ∧
      t.life.day = s.life.dayNext ∧ t.life.dayNext = [] ∧ t.life.daySeq = s.life.daySeq + 1 ∧ t.life.life = s.life.life ∧
      t.reg R.lifeDayStart = BitVec.ofNat 64 s.dayEnd ∧ bit (t.reg R.lifeStatus) 31 = true ∧
      ∃ r, t.fw.queue = s.fw.queue ++ [.ledger true s.life.daySeq r] ∧ r.length = 4096) ∧
    (s.now < s.dayEnd + 10000000 → exec .dayWindowClose s = .next s)) ∧
  (∀ (s : State) (e : SqEntry),
    (MgmtAlone s 0x1101 [mask 0 64, mask 0 64, mask 0 2, mask 0 64, 0] e →
      let l := (((s.ledgerLog (fld (e.w 5) 0 2)).filter fun r => decide ((e.w 6).toNat ≤ r.seq)).take ((e.w 4).toNat / 4096)).flatMap (·.bytes)
      ((e.w 3).toNat % 64 = 0 → ∃ t, exec .ledgerRead s = .next t ∧ MgmtEnds s t e 0 (BitVec.ofNat 64 l.length) ∧ t.life = s.life) ∧
      ((e.w 3).toNat % 64 ≠ 0 → ∃ t, exec .ledgerRead s = .next t ∧ MgmtEnds s t e 0x0B 0 ∧ t.life = s.life)) ∧
    (MgmtAlone s 0x1102 [mask 0 64, mask 0 64, 0, 0, 0] e →
      ((e.w 3).toNat % 64 = 0 → 4096 ≤ (e.w 4).toNat → ∃ t, exec .ledgerSnapshot s = .next t ∧ MgmtEnds s t e 0 4096 ∧ t.life = s.life) ∧
      ((e.w 4).toNat < 4096 → ∃ t, exec .ledgerSnapshot s = .next t ∧ MgmtEnds s t e 0x0B 0 ∧ t.life = s.life))) ∧
  (∀ (s : State), s.held = true →
    (∀ b d, s.fw.queue = [.slot b d] → ∃ t, exec (.flashOpComplete true true) s = .next t ∧ t.fw.queue = [] ∧ t.fw.slotData b = d ∧
      t.fw.slotData (!b) = s.fw.slotData (!b) ∧ t.fw.boot = s.fw.boot) ∧
    (∀ (e : SqEntry) d, s.fw.queue = [.owner e.ring e.index 1 d] → (s.sq e.ring).fetched = [] → (s.sq e.ring).started = [e] →
      (∃ t, exec (.flashOpComplete false true) s = .next t ∧ EntryEnds s t e 0 0 ∧ t.fw.queue = [] ∧ t.fw.policy = d) ∧
      ∃ t, exec (.flashOpComplete false false) s = .next t ∧ EntryEnds s t e 0x0B 0 ∧ t.fw = { s.fw with queue := [] }) ∧
    (∀ day n r, s.fw.queue = [.ledger day n r] →
      (∃ t, exec (.flashOpComplete false true) s = .next t ∧ t.fw.queue = [] ∧ bit (t.reg R.lifeStatus) 31 = false ∧
        ∃ x ∈ (if day then t.life.dayLog else t.life.hourLog), x.seq = n ∧ x.bytes = r) ∧
      ∃ t, exec (.flashOpComplete false false) s = .next t ∧ t.fw = s.fw ∧
        t.host.events.map (·.code) = s.host.events.map (·.code) ++ [0x1101] ∧
        t.life.hourLog = s.life.hourLog ∧ t.life.dayLog = s.life.dayLog)) ∧
  ∀ (s : State) (val : Word),
    (val &&& ~~~ 0x800000000000FF1F = 0 →
      (s.rfld R.dbgTraceCtl 63 1 = 0 → bit val 63 = true → s.sramOwner = 0 → ∃ t, exec (.dbgTraceCtlWrite val) s = .next t ∧
        t.reg R.dbgTraceCtl = val ∧ t.sramOwner = 1 ∧ t.pkg.tracing = true ∧ bit (t.reg R.dbgSramStatus) 16 = false) ∧
      (s.rfld R.dbgTraceCtl 63 1 = 0 → bit val 63 = true → s.sramOwner = 2 → ∃ t, exec (.dbgTraceCtlWrite val) s = .next t ∧
        t.reg R.dbgTraceCtl = val ∧ t.sramOwner = 2 ∧ t.pkg = s.pkg ∧ bit (t.reg R.dbgSramStatus) 8 = true) ∧
      (bit val 63 = false → s.sramOwner = 1 → ∃ t, exec (.dbgTraceCtlWrite val) s = .next t ∧ t.sramOwner = 0 ∧
        t.pkg = { s.pkg with tracing := false })) ∧
    (val &&& ~~~ 0x800000000000001F = 0 →
      (s.rfld R.dbgHistCtl 63 1 = 0 → bit val 63 = true → s.sramOwner = 0 → ∃ t, exec (.dbgHistCtlWrite val) s = .next t ∧
        t.reg R.dbgHistCtl = val ∧ t.sramOwner = 2 ∧ t.pkg = s.pkg) ∧
      (s.rfld R.dbgHistCtl 63 1 = 0 → bit val 63 = true → s.sramOwner = 1 → ∃ t, exec (.dbgHistCtlWrite val) s = .next t ∧
        t.sramOwner = 1 ∧ t.pkg = s.pkg ∧ bit (t.reg R.dbgSramStatus) 9 = true) ∧
      (bit val 63 = false → s.sramOwner = 2 → ∃ t, exec (.dbgHistCtlWrite val) s = .next t ∧ t.sramOwner = 0 ∧ t.pkg = s.pkg)) ∧
    (s.sramOwner = 1 → s.pkg.tracing = true → bit (s.reg R.dbgTraceCtl) 11 = true → bit (s.reg R.dbgSramStatus) 16 = false →
      ∃ t, exec .traceTrigger s = .next t ∧ t.pkg.traceLeft = 1024 ∧ bit (t.reg R.dbgSramStatus) 16 = true ∧
        (let n := Pin.gpio (s.rfld R.dbgTraceCtl 12 3)
        t.out = s.out ++ (if bit (s.reg R.dbgTraceCtl) 15 = true ∧ s.pkg.jtag < 3 then [.pin n true, .pin n false] else []))) ∧
    (bit (s.reg R.dbgSramStatus) 16 = true → s.pkg.traceLeft = 0 → ∃ t, exec .traceStop s = .next t ∧
      t = { s with pkg := { s.pkg with tracing := false } })

/-- R298, R448, R449, R542 to R554. -/
def Obligations.PackageAndJtag : Prop :=
  (∀ (s : State) (straps : Nat),
    (s.pkg.vio = false → ∃ t, exec (.vioInRange straps) s = .next t ∧ t.pkg = { s.pkg with
        vio := true
        straps := straps } ∧ t.reg R.mgtBoard = boardWord straps ∧ OnlyRegs { s with pkg := t.pkg } t [R.mgtBoard, R.rstStatus]) ∧
    (s.pkg.vio = true → exec (.vioInRange straps) s = .next s) ∧
    (s.pkg.vio = true → s.pkg.pwrgood = false → ∃ t, exec (.pwrgoodRise straps) s = .next t ∧ t.pkg.pwrgood = true ∧ t.pkg.rose = true ∧
      t.therm.cold = s.therm.cold.map (fun _ => 1) ∧ t.reg R.mgtBoard = boardWord straps) ∧
    (s.therm.cold = none →
      let heldAs := fun (t : State) => t.therm.cold = some 2 ∧ t.pending = s.pending ∧ t.mem.bytes = [] ∧ t.fw.slotA = s.fw.slotA ∧ t.fw.slotB = s.fw.slotB
      (s.pkg.pwrgood = true → ∃ t, exec .pwrgoodFall s = .next t ∧ heldAs t ∧ t.pkg.pwrgood = false ∧ t.pkg.resetN = s.pkg.resetN) ∧
      (s.pkg.resetN = false → ∃ t, exec .resetNAssert s = .next t ∧ heldAs t ∧ t.pkg.resetN = true ∧ t.pkg.pwrgood = s.pkg.pwrgood)) ∧
    (s.pkg.vio = true → ∃ t, exec .vioRemoved s = .next t ∧ t.pkg.vio = false ∧ t.pkg.pwrgood = false ∧ t.therm.trip = none ∧
      t.therm.tripped = false ∧ t.reg (R.thmAonMask 0) = Regs.initial (R.thmAonMask 0) ∧
      t.reg (R.thmAonMask 1) = Regs.initial (R.thmAonMask 1) ∧ t.fw.slotA = s.fw.slotA ∧ t.fw.slotB = s.fw.slotB)) ∧
  (∀ (s : State) (edge : Nat), s.pkg.vio = true →
    (∀ t0, s.pkg.pulse = some t0 → t0 ≤ edge → edge < t0 + 90000 → ∃ t, exec (.syncInPulse edge) s = .next t ∧
      OnlyRegs s t [R.mgtSyncStatus] ∧ t.rfld R.mgtSyncStatus 32 32 = min (2 ^ 32 - 1) (s.rfld R.mgtSyncStatus 32 32 + 1)) ∧
    (s.pkg.pulse = none → s.therm.cold = none → s.phase ≠ 7 → bit (s.reg R.fwActTime) 63 = false →
      (s.timeSource ≠ 2 → ∃ t, exec (.syncInPulse edge) s = .next t ∧ t.pkg = { s.pkg with pulse := some edge } ∧ t.time = s.time ∧
        t.rfld R.mgtSyncStatus 0 32 = min (2 ^ 32 - 1) (s.rfld R.mgtSyncStatus 0 32 + 1) ∧
        (∀ u, u < 4 → t.stagIntc u = (s.stagIntc u).edge 69) ∧
        t.out = s.out ++ (if s.rfld R.mgtSyncCtl 16 2 = 0 ∧ s.pkg.jtag < 3 then [.pin Pin.syncOut true, .pin Pin.syncOut false] else [])) ∧
      (∀ n, s.timeSource = 2 → s.aligned = true → 0 < s.syncPeriod → edge = n * s.syncPeriod + s.rfld R.mgtSyncCtl 0 16 →
        ∃ t, exec (.syncInPulse edge) s = .next t ∧ t.time = { s.time with lastCorr := s.now })) ∧
    (s.rfld R.mgtSyncCtl 16 2 = 1 → 100000 ≤ s.syncPeriod → s.syncPeriod ≤ 1000000000 →
      let m := s.now / s.syncPeriod * s.syncPeriod
      (s.pkg.made ≠ some m → s.timeSource ≠ 2 → s.now ≤ m + 10 → s.pkg.jtag < 3 → ∃ t, exec .syncOutGenerate s = .next t ∧ t.pkg = { s.pkg with made := some m } ∧
        t.out = s.out ++ [.pin Pin.syncOut true, .pin Pin.syncOut false]) ∧
      (s.pkg.made = some m ∨ s.timeSource = 2 ∨ m + 10 < s.now → exec .syncOutGenerate s = .next s))) ∧
  (∀ (s : State),
    (∀ (i : Fin 18) (high : Bool), SMap.get (fun _ => 0) s.pkg.rails i.val = 1 → ∃ t, exec (.railMonitorSample [(i, high)]) s = .next t ∧
      bit (t.reg R.mgtRailStatus) i.val = true ∧ Reports s t 0x1301 (b1 i.val ++ b1 high.toNat) ∧ bit (t.reg R.mgtAlertPend) 3 = true) ∧
    (∃ t, exec (.railMonitorSample []) s = .next t ∧ t.regs = s.regs ∧ t.host = s.host ∧ t.out = s.out ∧
      ∀ i, i < 18 → SMap.get (fun _ => 0) t.pkg.rails i = 0) ∧
    (s.pkg.vio = true → s.pkg.alert = true → ∃ t, exec .alertResponse s = .next t ∧ t.pkg = { s.pkg with alert := false } ∧
      t.regs = s.regs ∧ t.out = s.out ++ [.smbus (b1 (s.rfld R.mgtBoard 16 7))] ++ (if s.pkg.jtag < 3 then [.pin Pin.alert true] else [])) ∧
    (s.pkg.alert = false → exec .alertResponse s = .next s) ∧
    ∀ val, val &&& ~~~ 0x3F = 0 → ∃ t, exec (.mgtAlertPendWrite val) s = .next t ∧
      t.reg R.mgtAlertPend = s.reg R.mgtAlertPend &&& ~~~ val ∧
      t.pkg.alert = (s.pkg.alert && decide (t.rfld R.mgtAlertPend 0 6 &&& t.rfld R.mgtAlertEn 0 6 ≠ 0))) ∧
  ∀ (s : State), s.pkg.jtag < 3 → s.therm.tripped = false →
    (∃ t, exec .bypass s = .next t ∧ t.pkg = { s.pkg with jtag := 0 } ∧ t.out = s.out ++ [.jtag 1 0]) ∧
    (∃ t, exec .idcode s = .next t ∧ t.pkg = { s.pkg with jtag := 1 } ∧
      t.out = s.out ++ [.jtag 32 (2 ^ 28 + 0x9240 * 2 ^ 12 + Config.jedec.toNat * 2 + 1)]) ∧
    (∀ (pins w : Word), ∃ t, exec (.samplePreload pins (some w)) s = .next t ∧ t.pkg = { s.pkg with
        jtag := 2
        boundary := w } ∧ t.out = s.out ++ [.jtag 28 (fld pins 0 28)]) ∧
    (∀ x ∈ [(Instr.extest, 3), (Instr.clamp, 4)], ∃ t, exec x.1 s = .next t ∧ t.pkg = { s.pkg with jtag := x.2 } ∧
      t.out = s.out ++ (rangeFrom 5 11).map fun p => .pin p (bit s.pkg.boundary p)) ∧
    ∃ t, exec .highz s = .next t ∧ t.pkg = { s.pkg with jtag := 5 } ∧ t.out = s.out ++ (rangeFrom 5 11).map .float

/-- R443, R472, R485, R503 to R506, R522, R551 and R552. -/
def Obligations.MctpCommands : Prop :=
  (∀ (s : State), s.pkg.vio = true →
    (∀ (op : Fin 4) (eid : Byte),
      (op.val < 2 → eid ≠ 0 → eid ≠ 255 → ∃ t, exec (.setEndpointId op eid) s = .next t ∧
        t = { s with
          pkg := { s.pkg with eid := eid.toNat }
          out := s.out ++ [.smbus [0, 0, 1, 0, 0, eid, 0]] }) ∧
      (2 ≤ op.val ∨ eid = 0 ∨ eid = 255 → exec (.setEndpointId op eid) s = .next (s.emit (.smbus [0, 0, 1, 2])))) ∧
    exec .getEndpointId s = .next (s.emit (.smbus ([0, 0, 2, 0] ++ b1 s.pkg.eid ++ [0, 0]))) ∧
    (∀ type : Byte,
      (type ∈ [0xFF, 0, 0x7F] → ∃ (t : State) (v : List Byte), exec (.getMctpVersionSupport type) s = .next t ∧ v.length = 4 ∧
        t.out = s.out ++ [.smbus ([0, 0, 4, 0, 1] ++ v)]) ∧
      (type ∉ [0xFF, 0, 0x7F] → exec (.getMctpVersionSupport type) s = .next (s.emit (.smbus [0, 0, 4, 0x80])))) ∧
    exec .getMessageTypeSupport s = .next (s.emit (.smbus [0, 0, 5, 0, 1, 0x7F])) ∧
    (∃ (t : State) (v : List Byte), exec (.getVendorDefinedMsgSupport 0) s = .next t ∧ v.length = 2 ∧
      t.out = s.out ++ [.smbus ([0, 0, 6, 0, 0xFF, 1] ++ vendorBytes ++ v)]) ∧
    ∀ sel : Byte, sel ≠ 0 → exec (.getVendorDefinedMsgSupport sel) s = .next (s.emit (.smbus [0, 0, 6, 2]))) ∧
  (∀ (s : State), s.pkg.vio = true →
    let ans := fun (cmd code : Byte) (d : List Byte) => Out.smbus ([0x7F] ++ vendorBytes ++ [cmd, code] ++ d)
    (s.mctpOff = true → ∀ (req : List Byte) (kind item idx : Byte) (seq : BitVec 32) (off len : BitVec 16),
      ∀ x ∈ [(Instr.mctpQuote req, (1 : Byte)), (.mctpCertificate off len, 2), (.mctpMeasurement idx, 3),
        (.mctpLedgerRecord kind seq off len, 4), (.mctpLedgerItem kind item, 5), (.recoveryData seq req, 8), (.recoveryCommit seq, 9),
        (.holderClaim idx, 0x0B)], exec x.1 s = .next (s.emit (ans x.2 3 []))) ∧
    (s.mctpOff = false →
      (∀ req, (∀ r, s.quote req = some r → exec (.mctpQuote req) s = .next (s.emit (ans 1 0 r))) ∧
        (s.quote req = none → exec (.mctpQuote req) s = .next (s.emit (ans 1 (if bit (s.reg R.secStatus) 0 then 2 else 1) [])))) ∧
      (∀ off len : BitVec 16,
        (len.toNat ≤ 1097 → off.toNat + len.toNat ≤ Config.certChain.length → exec (.mctpCertificate off len) s =
          .next (s.emit (ans 2 0 ((Config.certChain.drop off.toNat).take len.toNat)))) ∧
        (1097 < len.toNat ∨ Config.certChain.length < off.toNat + len.toNat → exec (.mctpCertificate off len) s = .next (s.emit (ans 2 2 [])))) ∧
      (∀ idx : Byte, exec (.mctpMeasurement idx) s =
        .next (s.emit (if idx.toNat ≤ 6 then ans 3 0 (s.measurement idx.toNat) else ans 3 2 []))) ∧
      (∀ (kind : Byte) (seq : BitVec 32) (off len : BitVec 16), let l := s.ledgerLog kind.toNat
        (∀ r, l.find? (fun r => decide (r.seq = seq.toNat)) = some r → len.toNat ≤ 1097 → exec (.mctpLedgerRecord kind seq off len) s =
          .next (s.emit (ans 4 0 ((r.bytes.drop off.toNat).take len.toNat)))) ∧
        ((∀ r ∈ l, r.seq ≠ seq.toNat) → exec (.mctpLedgerRecord kind seq off len) s = .next (s.emit (ans 4 0 [])))) ∧
      (∀ window item : Byte,
        (window.toNat ≤ 2 → item.toNat < 176 → item.toNat < 53 ∨ 64 ≤ item.toNat → exec (.mctpLedgerItem window item) s =
          .next (s.emit (ans 5 0 (natToBytes 8 (s.lifeItem window.toNat item.toNat))))) ∧
        (2 < window.toNat ∨ 176 ≤ item.toNat → exec (.mctpLedgerItem window item) s = .next (s.emit (ans 5 0 [])))) ∧
      (∀ (off : BitVec 32) (data : List Byte),
        (s.phase ≠ 7 → exec (.recoveryData off data) s = .next (s.emit (ans 8 3 []))) ∧
        (s.phase = 7 → data ≠ [] → data.length ≤ 1024 → off.toNat + data.length ≤ 2 ^ 24 →
          ∃ t, exec (.recoveryData off data) s = .next t ∧ t.out = s.out ++ [ans 8 0 []] ∧
            ∀ i, SMap.get (fun _ => 0) t.fw.recovery i =
              if off.toNat ≤ i ∧ i < off.toNat + data.length then nth 0 data (i - off.toNat) else SMap.get (fun _ => 0) s.fw.recovery i)) ∧
      (∀ total : BitVec 32, s.phase = 7 → total.toNat ≤ 2 ^ 24 →
        let d := (rangeFrom 0 total.toNat).map fun i => SMap.get (fun _ => 0) s.fw.recovery i
        (imageFault s.minVersion d = none → bootInForce s.fw.copies = s.fw.boot → ∃ t, exec (.recoveryCommit total) s = .next t ∧ t.fw.slotA = d ∧ t.fw.boot.confirmed = false ∧
          t.fw.boot.stateA = 2 ∧ t.therm.cold = some 7 ∧ t.out = s.out ++ [ans 9 0 []]) ∧
        (∀ c, imageFault s.minVersion d = some c → ∃ t, exec (.recoveryCommit total) s = .next t ∧ t.fw = s.fw ∧
          t.out = s.out ++ [ans 9 1 []])) ∧
      (∀ stag : Byte, let u := stag.toNat
        (s.overlap = false → exec (.holderClaim stag) s = .next (s.emit (ans 0x0B 3 []))) ∧
        (s.overlap = true → u < 2 → s.stagState u = 3 → s.fw.tx = none → ∃ t, exec (.holderClaim stag) s = .next t ∧
          t.stagState u = 4 ∧ t.holder = u ∧ Reports s t 0x0E01 (b1 u ++ b1 1) ∧ t.out = s.out ++ [ans 0x0B 0 []]))) ∧
    (∀ n v at_, s.therm.trip = some (n, v, at_) → s.pkg.alert = false → ∃ t, exec .tripRead s = .next t ∧
      bit (t.reg R.mgtAlertPend) 0 = false ∧ t.therm = s.therm ∧
      t.out = s.out ++ [ans 6 0 (b1 s.therm.tripState ++ [0] ++ natToBytes 2 n ++ natToBytes 2 (v % 65536).toNat ++ [0, 0] ++ natToBytes 8 at_)]) ∧
    (∀ (entry valid : Byte) (idx : BitVec 16), let e := entry.toNat
      (e ≤ 7 → idx.toNat < 2512 → ∃ t, exec (.aonMaskWrite entry valid idx) s = .next t ∧ OnlyRegs { s with out := t.out } t [R.thmAonMask (e / 4)] ∧
        t.rfld (R.thmAonMask (e / 4)) (16 * (e % 4)) 16 = valid.toNat % 2 * 32768 + idx.toNat ∧ t.out = s.out ++ [ans 7 0 []]) ∧
      (7 < e ∨ 2512 ≤ idx.toNat → exec (.aonMaskWrite entry valid idx) s = .next (s.emit (ans 7 2 [])))) ∧
    exec .mctpStatus s = .next (s.emit (ans 0x0A 0 (b1 s.phase ++ b1 s.holder ++ b1 (s.stagState 0) ++ b1 (s.stagState 1) ++
      b1 (s.rfld R.rstStatus 0 2) ++ b1 s.therm.tripped.toNat ++ b1 (s.rfld R.thmStatus 8 8) ++ b1 (s.rfld R.mgtAlertPend 0 6) ++
      natToBytes 8 s.now))))
end

