-- ==== Sys2Proof/Laws/SMap.lean ====
section
/-!
SUPPORT. Sparse tables and byte memories: what a read finds after a write, and that every write keeps the
canonical form.
-/

namespace Sys2Proof.Machine

variable {α : Type}

theorem SMap.get_put_same (d : Nat → α) (m : SMap α) (k : Nat) (v : α) : SMap.get d (SMap.put m k v) k = v := by
  induction m with
  | nil => simp [SMap.put, SMap.get]
  | cons x t ih =>
    obtain ⟨k', v'⟩ := x
    by_cases h1 : k < k'
    · simp [SMap.put, h1, SMap.get]
    · by_cases h2 : k = k'
      · simp [SMap.put, h2, SMap.get]
      · simp [SMap.put, h1, h2, SMap.get, ih]

theorem SMap.get_put_other (d : Nat → α) (m : SMap α) {k j : Nat} (v : α) (h : j ≠ k) :
    SMap.get d (SMap.put m k v) j = SMap.get d m j := by
  induction m with
  | nil => simp [SMap.put, SMap.get, h]
  | cons x t ih =>
    obtain ⟨k', v'⟩ := x
    by_cases h1 : k < k'
    · simp [SMap.put, h1, SMap.get, h]
    · by_cases h2 : k = k'
      · subst h2
        simp [SMap.put, SMap.get, h]
      · simp only [SMap.put, h1, h2, if_false, SMap.get, ih]

theorem SMap.get_del_other (d : Nat → α) (m : SMap α) {k j : Nat} (h : j ≠ k) :
    SMap.get d (SMap.del m k) j = SMap.get d m j := by
  induction m with
  | nil => simp [SMap.del]
  | cons x t ih =>
    obtain ⟨k', v'⟩ := x
    by_cases h2 : k = k'
    · subst h2
      simp only [SMap.del, if_true, SMap.get, h, if_false, ih]
    · simp only [SMap.del, h2, if_false, SMap.get, ih]

/-- A read at another key after a write. -/
@[simp] theorem SMap.get_set_other [DecidableEq α] (d : Nat → α) (m : SMap α) {k j : Nat} (v : α) (h : j ≠ k) :
    SMap.get d (SMap.set d m k v) j = SMap.get d m j := by
  unfold SMap.set
  split
  · exact SMap.get_del_other d m h
  · exact SMap.get_put_other d m v h

/-! The canonical form. -/

theorem SMap.wfFrom_weaken [DecidableEq α] (d : Nat → α) (m : SMap α) {a b : Nat} (h : a ≤ b)
    (w : SMap.wfFrom d b m = true) : SMap.wfFrom d a m = true := by
  cases m with
  | nil => rfl
  | cons x t =>
    obtain ⟨k, v⟩ := x
    simp only [SMap.wfFrom, Bool.and_eq_true, decide_eq_true_eq] at w ⊢
    exact ⟨⟨by omega, w.1.2⟩, w.2⟩

/-- A key below every entry holds the default. -/
theorem SMap.wfFrom_get_low [DecidableEq α] (d : Nat → α) (m : SMap α) {lo k : Nat} (h : k < lo)
    (w : SMap.wfFrom d lo m = true) : SMap.get d m k = d k := by
  induction m generalizing lo with
  | nil => rfl
  | cons x t ih =>
    obtain ⟨k', v⟩ := x
    simp only [SMap.wfFrom, Bool.and_eq_true, decide_eq_true_eq] at w
    have hne : k ≠ k' := by omega
    simp only [SMap.get, hne, if_false]
    exact ih (by omega) w.2

theorem SMap.wfFrom_del [DecidableEq α] (d : Nat → α) (m : SMap α) (k lo : Nat)
    (w : SMap.wfFrom d lo m = true) : SMap.wfFrom d lo (SMap.del m k) = true := by
  induction m generalizing lo with
  | nil => exact w
  | cons x t ih =>
    obtain ⟨k', v⟩ := x
    have w' := w
    simp only [SMap.wfFrom, Bool.and_eq_true, decide_eq_true_eq] at w'
    by_cases h : k = k'
    · simp only [SMap.del, if_pos h]
      exact SMap.wfFrom_weaken d _ (Nat.le_succ_of_le w'.1.1) (ih _ w'.2)
    · simp only [SMap.del, h, if_false, SMap.wfFrom, Bool.and_eq_true, decide_eq_true_eq]
      exact ⟨w'.1, ih _ w'.2⟩

theorem SMap.wfFrom_put [DecidableEq α] (d : Nat → α) (m : SMap α) {k lo : Nat} {v : α} (hv : v ≠ d k)
    (hk : lo ≤ k) (w : SMap.wfFrom d lo m = true) : SMap.wfFrom d lo (SMap.put m k v) = true := by
  induction m generalizing lo with
  | nil => simp [SMap.put, SMap.wfFrom, hv, hk]
  | cons x t ih =>
    obtain ⟨k', v'⟩ := x
    have w' := w
    simp only [SMap.wfFrom, Bool.and_eq_true, decide_eq_true_eq, Bool.not_eq_true', decide_eq_false_iff_not] at w'
    by_cases h1 : k < k'
    · simp only [SMap.put, h1, if_true, SMap.wfFrom, Bool.and_eq_true, decide_eq_true_eq, Bool.not_eq_true',
        decide_eq_false_iff_not]
      exact ⟨⟨hk, hv⟩, ⟨by omega, w'.1.2⟩, w'.2⟩
    · by_cases h2 : k = k'
      · subst h2
        simp only [SMap.put, Nat.lt_irrefl, if_false, if_true, SMap.wfFrom, Bool.and_eq_true, decide_eq_true_eq,
          Bool.not_eq_true', decide_eq_false_iff_not]
        exact ⟨⟨hk, hv⟩, w'.2⟩
      · simp only [SMap.put, h1, h2, if_false, SMap.wfFrom, Bool.and_eq_true, decide_eq_true_eq, Bool.not_eq_true',
          decide_eq_false_iff_not]
        exact ⟨w'.1, ih (by omega) w'.2⟩

/-- A write keeps the canonical form. -/
theorem SMap.wf_set [DecidableEq α] (d : Nat → α) (m : SMap α) (k : Nat) (v : α)
    (w : SMap.wf d m = true) : SMap.wf d (SMap.set d m k v) = true := by
  unfold SMap.set
  split
  · exact SMap.wfFrom_del d m k 0 w
  · rename_i h
    exact SMap.wfFrom_put d m h (Nat.zero_le k) w

theorem SMap.get_del_same (d : Nat → α) (m : SMap α) (k : Nat) : SMap.get d (SMap.del m k) k = d k := by
  induction m with
  | nil => rfl
  | cons x t ih =>
    obtain ⟨k', v⟩ := x
    by_cases h : k = k'
    · simp only [SMap.del, h, if_true]
      rw [← h]
      exact ih
    · simp only [SMap.del, h, if_false, SMap.get]
      exact ih

/-- A read at the key of a write. -/
@[simp] theorem SMap.get_set_same [DecidableEq α] (d : Nat → α) (m : SMap α) (k : Nat) (v : α) :
    SMap.get d (SMap.set d m k v) k = v := by
  unfold SMap.set
  split
  · rename_i h
    rw [h]
    exact SMap.get_del_same d m k
  · exact SMap.get_put_same d m k v

/-! Byte memories. -/

theorem Mem.setByte_wf (m : SMap Byte) (a : Nat) (b : Byte) (w : Memory.wf m = true) :
    Memory.wf (Mem.setByte m a b) = true := SMap.wf_set _ m a b w

/-- A write of a list of bytes keeps the canonical form. -/
theorem Mem.write_wf (l : List Byte) (m : SMap Byte) (a : Nat) (w : Memory.wf m = true) :
    Memory.wf (Mem.write m a l) = true := by
  induction l generalizing m a with
  | nil => exact w
  | cons b t ih => exact ih _ _ (Mem.setByte_wf m a b w)

theorem Mem.setNat_wf (m : SMap Byte) (a n v : Nat) (w : Memory.wf m = true) :
    Memory.wf (Mem.setNat m a n v) = true := Mem.write_wf _ m a w

/-- A byte outside the written range reads as before. -/
theorem Mem.byte_write_other (l : List Byte) (m : SMap Byte) {a x : Nat} (h : x < a ∨ a + l.length ≤ x) :
    Mem.byte (Mem.write m a l) x = Mem.byte m x := by
  induction l generalizing m a with
  | nil => rfl
  | cons b t ih =>
    simp only [List.length_cons] at h
    have hne : x ≠ a := by omega
    rw [Mem.write, ih _ (by omega)]
    exact SMap.get_set_other memDefault m b hne

/-- The bytes written read back. -/
theorem Mem.byte_write_same (l : List Byte) (m : SMap Byte) (a i : Nat) (h : i < l.length) : Mem.byte (Mem.write m a l) (a + i) = l[i] := by
  induction l generalizing m a i with
  | nil => simp at h
  | cons b t ih =>
    cases i with
    | zero =>
      rw [Mem.write, Mem.byte_write_other t _ (by omega)]
      exact SMap.get_set_same memDefault m a b
    | succ j =>
      have h' : j < t.length := by simpa using h
      have := ih (Mem.setByte m a b) (a + 1) j h'
      rw [Mem.write]
      simpa [Nat.add_assoc, Nat.add_comm 1 j] using this

end Sys2Proof.Machine
end

