-- ==== Sys2Proof/Laws/State.lean ====
section
/-!
SUPPORT. What each update of the state leaves in each field, and what the named reads find after it.
-/

namespace Sys2Proof.Machine

variable (s : State)

/-! `State.setReg`. -/

@[simp] theorem State.setReg_pending (off : Nat) (v : Word) : (s.setReg off v).pending = s.pending := rfl
@[simp] theorem State.setReg_free (off : Nat) (v : Word) : (s.setReg off v).free = s.free := rfl
@[simp] theorem State.setReg_time (off : Nat) (v : Word) : (s.setReg off v).time = s.time := rfl
@[simp] theorem State.setReg_cores (off : Nat) (v : Word) : (s.setReg off v).cores = s.cores := rfl
@[simp] theorem State.setReg_regs (off : Nat) (v : Word) : (s.setReg off v).regs = SMap.set Regs.initial s.regs off v := rfl
@[simp] theorem State.setReg_shadow (off : Nat) (v : Word) : (s.setReg off v).shadow = s.shadow := rfl
@[simp] theorem State.setReg_mem (off : Nat) (v : Word) : (s.setReg off v).mem = s.mem := rfl
@[simp] theorem State.setReg_routers (off : Nat) (v : Word) : (s.setReg off v).routers = s.routers := rfl
@[simp] theorem State.setReg_mesh (off : Nat) (v : Word) : (s.setReg off v).mesh = s.mesh := rfl
@[simp] theorem State.setReg_base (off : Nat) (v : Word) : (s.setReg off v).base = s.base := rfl
@[simp] theorem State.setReg_mmu (off : Nat) (v : Word) : (s.setReg off v).mmu = s.mmu := rfl
@[simp] theorem State.setReg_fab (off : Nat) (v : Word) : (s.setReg off v).fab = s.fab := rfl
@[simp] theorem State.setReg_xport (off : Nat) (v : Word) : (s.setReg off v).xport = s.xport := rfl
@[simp] theorem State.setReg_host (off : Nat) (v : Word) : (s.setReg off v).host = s.host := rfl
@[simp] theorem State.setReg_life (off : Nat) (v : Word) : (s.setReg off v).life = s.life := rfl
@[simp] theorem State.setReg_opt (off : Nat) (v : Word) : (s.setReg off v).opt = s.opt := rfl
@[simp] theorem State.setReg_stag (off : Nat) (v : Word) : (s.setReg off v).stag = s.stag := rfl
@[simp] theorem State.setReg_therm (off : Nat) (v : Word) : (s.setReg off v).therm = s.therm := rfl
@[simp] theorem State.setReg_fw (off : Nat) (v : Word) : (s.setReg off v).fw = s.fw := rfl
@[simp] theorem State.setReg_pkg (off : Nat) (v : Word) : (s.setReg off v).pkg = s.pkg := rfl
@[simp] theorem State.setReg_bol (off : Nat) (v : Word) : (s.setReg off v).bol = s.bol := rfl
@[simp] theorem State.setReg_dieCtl (off : Nat) (v : Word) : (s.setReg off v).dieCtl = s.dieCtl := rfl
@[simp] theorem State.setReg_stagCtl (off : Nat) (v : Word) : (s.setReg off v).stagCtl = s.stagCtl := rfl
@[simp] theorem State.setReg_out (off : Nat) (v : Word) : (s.setReg off v).out = s.out := rfl

/-! `State.setRfld`. -/

@[simp] theorem State.setRfld_pending (off lo len v : Nat) : (s.setRfld off lo len v).pending = s.pending := rfl
@[simp] theorem State.setRfld_free (off lo len v : Nat) : (s.setRfld off lo len v).free = s.free := rfl
@[simp] theorem State.setRfld_time (off lo len v : Nat) : (s.setRfld off lo len v).time = s.time := rfl
@[simp] theorem State.setRfld_cores (off lo len v : Nat) : (s.setRfld off lo len v).cores = s.cores := rfl
@[simp] theorem State.setRfld_regs (off lo len v : Nat) : (s.setRfld off lo len v).regs = SMap.set Regs.initial s.regs off (setFld (s.reg off) lo len v) := rfl
@[simp] theorem State.setRfld_shadow (off lo len v : Nat) : (s.setRfld off lo len v).shadow = s.shadow := rfl
@[simp] theorem State.setRfld_mem (off lo len v : Nat) : (s.setRfld off lo len v).mem = s.mem := rfl
@[simp] theorem State.setRfld_routers (off lo len v : Nat) : (s.setRfld off lo len v).routers = s.routers := rfl
@[simp] theorem State.setRfld_mesh (off lo len v : Nat) : (s.setRfld off lo len v).mesh = s.mesh := rfl
@[simp] theorem State.setRfld_base (off lo len v : Nat) : (s.setRfld off lo len v).base = s.base := rfl
@[simp] theorem State.setRfld_mmu (off lo len v : Nat) : (s.setRfld off lo len v).mmu = s.mmu := rfl
@[simp] theorem State.setRfld_fab (off lo len v : Nat) : (s.setRfld off lo len v).fab = s.fab := rfl
@[simp] theorem State.setRfld_xport (off lo len v : Nat) : (s.setRfld off lo len v).xport = s.xport := rfl
@[simp] theorem State.setRfld_host (off lo len v : Nat) : (s.setRfld off lo len v).host = s.host := rfl
@[simp] theorem State.setRfld_life (off lo len v : Nat) : (s.setRfld off lo len v).life = s.life := rfl
@[simp] theorem State.setRfld_opt (off lo len v : Nat) : (s.setRfld off lo len v).opt = s.opt := rfl
@[simp] theorem State.setRfld_stag (off lo len v : Nat) : (s.setRfld off lo len v).stag = s.stag := rfl
@[simp] theorem State.setRfld_therm (off lo len v : Nat) : (s.setRfld off lo len v).therm = s.therm := rfl
@[simp] theorem State.setRfld_fw (off lo len v : Nat) : (s.setRfld off lo len v).fw = s.fw := rfl
@[simp] theorem State.setRfld_pkg (off lo len v : Nat) : (s.setRfld off lo len v).pkg = s.pkg := rfl
@[simp] theorem State.setRfld_bol (off lo len v : Nat) : (s.setRfld off lo len v).bol = s.bol := rfl
@[simp] theorem State.setRfld_dieCtl (off lo len v : Nat) : (s.setRfld off lo len v).dieCtl = s.dieCtl := rfl
@[simp] theorem State.setRfld_stagCtl (off lo len v : Nat) : (s.setRfld off lo len v).stagCtl = s.stagCtl := rfl
@[simp] theorem State.setRfld_out (off lo len v : Nat) : (s.setRfld off lo len v).out = s.out := rfl

/-! `State.count`. -/

@[simp] theorem State.count_pending (off lo len : Nat) : (s.count off lo len).pending = s.pending := rfl
@[simp] theorem State.count_free (off lo len : Nat) : (s.count off lo len).free = s.free := rfl
@[simp] theorem State.count_time (off lo len : Nat) : (s.count off lo len).time = s.time := rfl
@[simp] theorem State.count_cores (off lo len : Nat) : (s.count off lo len).cores = s.cores := rfl
@[simp] theorem State.count_regs (off lo len : Nat) : (s.count off lo len).regs = SMap.set Regs.initial s.regs off (satInc (s.reg off) lo len) := rfl
@[simp] theorem State.count_shadow (off lo len : Nat) : (s.count off lo len).shadow = s.shadow := rfl
@[simp] theorem State.count_mem (off lo len : Nat) : (s.count off lo len).mem = s.mem := rfl
@[simp] theorem State.count_routers (off lo len : Nat) : (s.count off lo len).routers = s.routers := rfl
@[simp] theorem State.count_mesh (off lo len : Nat) : (s.count off lo len).mesh = s.mesh := rfl
@[simp] theorem State.count_base (off lo len : Nat) : (s.count off lo len).base = s.base := rfl
@[simp] theorem State.count_mmu (off lo len : Nat) : (s.count off lo len).mmu = s.mmu := rfl
@[simp] theorem State.count_fab (off lo len : Nat) : (s.count off lo len).fab = s.fab := rfl
@[simp] theorem State.count_xport (off lo len : Nat) : (s.count off lo len).xport = s.xport := rfl
@[simp] theorem State.count_host (off lo len : Nat) : (s.count off lo len).host = s.host := rfl
@[simp] theorem State.count_life (off lo len : Nat) : (s.count off lo len).life = s.life := rfl
@[simp] theorem State.count_opt (off lo len : Nat) : (s.count off lo len).opt = s.opt := rfl
@[simp] theorem State.count_stag (off lo len : Nat) : (s.count off lo len).stag = s.stag := rfl
@[simp] theorem State.count_therm (off lo len : Nat) : (s.count off lo len).therm = s.therm := rfl
@[simp] theorem State.count_fw (off lo len : Nat) : (s.count off lo len).fw = s.fw := rfl
@[simp] theorem State.count_pkg (off lo len : Nat) : (s.count off lo len).pkg = s.pkg := rfl
@[simp] theorem State.count_bol (off lo len : Nat) : (s.count off lo len).bol = s.bol := rfl
@[simp] theorem State.count_dieCtl (off lo len : Nat) : (s.count off lo len).dieCtl = s.dieCtl := rfl
@[simp] theorem State.count_stagCtl (off lo len : Nat) : (s.count off lo len).stagCtl = s.stagCtl := rfl
@[simp] theorem State.count_out (off lo len : Nat) : (s.count off lo len).out = s.out := rfl

/-! `State.emit`. -/

@[simp] theorem State.emit_pending (o : Out) : (s.emit o).pending = s.pending := rfl
@[simp] theorem State.emit_free (o : Out) : (s.emit o).free = s.free := rfl
@[simp] theorem State.emit_time (o : Out) : (s.emit o).time = s.time := rfl
@[simp] theorem State.emit_cores (o : Out) : (s.emit o).cores = s.cores := rfl
@[simp] theorem State.emit_regs (o : Out) : (s.emit o).regs = s.regs := rfl
@[simp] theorem State.emit_shadow (o : Out) : (s.emit o).shadow = s.shadow := rfl
@[simp] theorem State.emit_mem (o : Out) : (s.emit o).mem = s.mem := rfl
@[simp] theorem State.emit_routers (o : Out) : (s.emit o).routers = s.routers := rfl
@[simp] theorem State.emit_mesh (o : Out) : (s.emit o).mesh = s.mesh := rfl
@[simp] theorem State.emit_base (o : Out) : (s.emit o).base = s.base := rfl
@[simp] theorem State.emit_mmu (o : Out) : (s.emit o).mmu = s.mmu := rfl
@[simp] theorem State.emit_fab (o : Out) : (s.emit o).fab = s.fab := rfl
@[simp] theorem State.emit_xport (o : Out) : (s.emit o).xport = s.xport := rfl
@[simp] theorem State.emit_host (o : Out) : (s.emit o).host = s.host := rfl
@[simp] theorem State.emit_life (o : Out) : (s.emit o).life = s.life := rfl
@[simp] theorem State.emit_opt (o : Out) : (s.emit o).opt = s.opt := rfl
@[simp] theorem State.emit_stag (o : Out) : (s.emit o).stag = s.stag := rfl
@[simp] theorem State.emit_therm (o : Out) : (s.emit o).therm = s.therm := rfl
@[simp] theorem State.emit_fw (o : Out) : (s.emit o).fw = s.fw := rfl
@[simp] theorem State.emit_pkg (o : Out) : (s.emit o).pkg = s.pkg := rfl
@[simp] theorem State.emit_bol (o : Out) : (s.emit o).bol = s.bol := rfl
@[simp] theorem State.emit_dieCtl (o : Out) : (s.emit o).dieCtl = s.dieCtl := rfl
@[simp] theorem State.emit_stagCtl (o : Out) : (s.emit o).stagCtl = s.stagCtl := rfl
@[simp] theorem State.emit_out (o : Out) : (s.emit o).out = s.out ++ [o] := rfl

/-! `State.emits`. -/

@[simp] theorem State.emits_pending (l : List Out) : (s.emits l).pending = s.pending := rfl
@[simp] theorem State.emits_free (l : List Out) : (s.emits l).free = s.free := rfl
@[simp] theorem State.emits_time (l : List Out) : (s.emits l).time = s.time := rfl
@[simp] theorem State.emits_cores (l : List Out) : (s.emits l).cores = s.cores := rfl
@[simp] theorem State.emits_regs (l : List Out) : (s.emits l).regs = s.regs := rfl
@[simp] theorem State.emits_shadow (l : List Out) : (s.emits l).shadow = s.shadow := rfl
@[simp] theorem State.emits_mem (l : List Out) : (s.emits l).mem = s.mem := rfl
@[simp] theorem State.emits_routers (l : List Out) : (s.emits l).routers = s.routers := rfl
@[simp] theorem State.emits_mesh (l : List Out) : (s.emits l).mesh = s.mesh := rfl
@[simp] theorem State.emits_base (l : List Out) : (s.emits l).base = s.base := rfl
@[simp] theorem State.emits_mmu (l : List Out) : (s.emits l).mmu = s.mmu := rfl
@[simp] theorem State.emits_fab (l : List Out) : (s.emits l).fab = s.fab := rfl
@[simp] theorem State.emits_xport (l : List Out) : (s.emits l).xport = s.xport := rfl
@[simp] theorem State.emits_host (l : List Out) : (s.emits l).host = s.host := rfl
@[simp] theorem State.emits_life (l : List Out) : (s.emits l).life = s.life := rfl
@[simp] theorem State.emits_opt (l : List Out) : (s.emits l).opt = s.opt := rfl
@[simp] theorem State.emits_stag (l : List Out) : (s.emits l).stag = s.stag := rfl
@[simp] theorem State.emits_therm (l : List Out) : (s.emits l).therm = s.therm := rfl
@[simp] theorem State.emits_fw (l : List Out) : (s.emits l).fw = s.fw := rfl
@[simp] theorem State.emits_pkg (l : List Out) : (s.emits l).pkg = s.pkg := rfl
@[simp] theorem State.emits_bol (l : List Out) : (s.emits l).bol = s.bol := rfl
@[simp] theorem State.emits_dieCtl (l : List Out) : (s.emits l).dieCtl = s.dieCtl := rfl
@[simp] theorem State.emits_stagCtl (l : List Out) : (s.emits l).stagCtl = s.stagCtl := rfl
@[simp] theorem State.emits_out (l : List Out) : (s.emits l).out = s.out ++ l := rfl

/-! `State.event`. -/

@[simp] theorem State.event_pending (code : Nat) (detail : List Byte) : (s.event code detail).pending = s.pending := rfl
@[simp] theorem State.event_free (code : Nat) (detail : List Byte) : (s.event code detail).free = s.free := rfl
@[simp] theorem State.event_time (code : Nat) (detail : List Byte) : (s.event code detail).time = s.time := rfl
@[simp] theorem State.event_cores (code : Nat) (detail : List Byte) : (s.event code detail).cores = s.cores := rfl
@[simp] theorem State.event_regs (code : Nat) (detail : List Byte) : (s.event code detail).regs = s.regs := rfl
@[simp] theorem State.event_shadow (code : Nat) (detail : List Byte) : (s.event code detail).shadow = s.shadow := rfl
@[simp] theorem State.event_mem (code : Nat) (detail : List Byte) : (s.event code detail).mem = s.mem := rfl
@[simp] theorem State.event_routers (code : Nat) (detail : List Byte) : (s.event code detail).routers = s.routers := rfl
@[simp] theorem State.event_mesh (code : Nat) (detail : List Byte) : (s.event code detail).mesh = s.mesh := rfl
@[simp] theorem State.event_base (code : Nat) (detail : List Byte) : (s.event code detail).base = s.base := rfl
@[simp] theorem State.event_mmu (code : Nat) (detail : List Byte) : (s.event code detail).mmu = s.mmu := rfl
@[simp] theorem State.event_fab (code : Nat) (detail : List Byte) : (s.event code detail).fab = s.fab := rfl
@[simp] theorem State.event_xport (code : Nat) (detail : List Byte) : (s.event code detail).xport = s.xport := rfl
@[simp] theorem State.event_host (code : Nat) (detail : List Byte) : (s.event code detail).host = { s.host with events := s.host.events ++ [{ code := code, detail := detail, time := s.now }] } := rfl
@[simp] theorem State.event_life (code : Nat) (detail : List Byte) : (s.event code detail).life = s.life := rfl
@[simp] theorem State.event_opt (code : Nat) (detail : List Byte) : (s.event code detail).opt = s.opt := rfl
@[simp] theorem State.event_stag (code : Nat) (detail : List Byte) : (s.event code detail).stag = s.stag := rfl
@[simp] theorem State.event_therm (code : Nat) (detail : List Byte) : (s.event code detail).therm = s.therm := rfl
@[simp] theorem State.event_fw (code : Nat) (detail : List Byte) : (s.event code detail).fw = s.fw := rfl
@[simp] theorem State.event_pkg (code : Nat) (detail : List Byte) : (s.event code detail).pkg = s.pkg := rfl
@[simp] theorem State.event_bol (code : Nat) (detail : List Byte) : (s.event code detail).bol = s.bol := rfl
@[simp] theorem State.event_dieCtl (code : Nat) (detail : List Byte) : (s.event code detail).dieCtl = s.dieCtl := rfl
@[simp] theorem State.event_stagCtl (code : Nat) (detail : List Byte) : (s.event code detail).stagCtl = s.stagCtl := rfl
@[simp] theorem State.event_out (code : Nat) (detail : List Byte) : (s.event code detail).out = s.out := rfl

/-! `State.drew`. -/

@[simp] theorem State.drew_pending (n : Nat) : (s.drew n).pending = s.pending := rfl
@[simp] theorem State.drew_free (n : Nat) : (s.drew n).free = s.free + n := rfl
@[simp] theorem State.drew_time (n : Nat) : (s.drew n).time = s.time := rfl
@[simp] theorem State.drew_cores (n : Nat) : (s.drew n).cores = s.cores := rfl
@[simp] theorem State.drew_regs (n : Nat) : (s.drew n).regs = s.regs := rfl
@[simp] theorem State.drew_shadow (n : Nat) : (s.drew n).shadow = s.shadow := rfl
@[simp] theorem State.drew_mem (n : Nat) : (s.drew n).mem = s.mem := rfl
@[simp] theorem State.drew_routers (n : Nat) : (s.drew n).routers = s.routers := rfl
@[simp] theorem State.drew_mesh (n : Nat) : (s.drew n).mesh = s.mesh := rfl
@[simp] theorem State.drew_base (n : Nat) : (s.drew n).base = s.base := rfl
@[simp] theorem State.drew_mmu (n : Nat) : (s.drew n).mmu = s.mmu := rfl
@[simp] theorem State.drew_fab (n : Nat) : (s.drew n).fab = s.fab := rfl
@[simp] theorem State.drew_xport (n : Nat) : (s.drew n).xport = s.xport := rfl
@[simp] theorem State.drew_host (n : Nat) : (s.drew n).host = s.host := rfl
@[simp] theorem State.drew_life (n : Nat) : (s.drew n).life = s.life := rfl
@[simp] theorem State.drew_opt (n : Nat) : (s.drew n).opt = s.opt := rfl
@[simp] theorem State.drew_stag (n : Nat) : (s.drew n).stag = s.stag := rfl
@[simp] theorem State.drew_therm (n : Nat) : (s.drew n).therm = s.therm := rfl
@[simp] theorem State.drew_fw (n : Nat) : (s.drew n).fw = s.fw := rfl
@[simp] theorem State.drew_pkg (n : Nat) : (s.drew n).pkg = s.pkg := rfl
@[simp] theorem State.drew_bol (n : Nat) : (s.drew n).bol = s.bol := rfl
@[simp] theorem State.drew_dieCtl (n : Nat) : (s.drew n).dieCtl = s.dieCtl := rfl
@[simp] theorem State.drew_stagCtl (n : Nat) : (s.drew n).stagCtl = s.stagCtl := rfl
@[simp] theorem State.drew_out (n : Nat) : (s.drew n).out = s.out := rfl

/-! `State.setCore`. -/

@[simp] theorem State.setCore_pending (k : Nat) (c : Core) : (s.setCore k c).pending = s.pending := rfl
@[simp] theorem State.setCore_free (k : Nat) (c : Core) : (s.setCore k c).free = s.free := rfl
@[simp] theorem State.setCore_time (k : Nat) (c : Core) : (s.setCore k c).time = s.time := rfl
@[simp] theorem State.setCore_cores (k : Nat) (c : Core) : (s.setCore k c).cores = SMap.set Core.initial s.cores k c := rfl
@[simp] theorem State.setCore_regs (k : Nat) (c : Core) : (s.setCore k c).regs = s.regs := rfl
@[simp] theorem State.setCore_shadow (k : Nat) (c : Core) : (s.setCore k c).shadow = s.shadow := rfl
@[simp] theorem State.setCore_mem (k : Nat) (c : Core) : (s.setCore k c).mem = s.mem := rfl
@[simp] theorem State.setCore_routers (k : Nat) (c : Core) : (s.setCore k c).routers = s.routers := rfl
@[simp] theorem State.setCore_mesh (k : Nat) (c : Core) : (s.setCore k c).mesh = s.mesh := rfl
@[simp] theorem State.setCore_base (k : Nat) (c : Core) : (s.setCore k c).base = s.base := rfl
@[simp] theorem State.setCore_mmu (k : Nat) (c : Core) : (s.setCore k c).mmu = s.mmu := rfl
@[simp] theorem State.setCore_fab (k : Nat) (c : Core) : (s.setCore k c).fab = s.fab := rfl
@[simp] theorem State.setCore_xport (k : Nat) (c : Core) : (s.setCore k c).xport = s.xport := rfl
@[simp] theorem State.setCore_host (k : Nat) (c : Core) : (s.setCore k c).host = s.host := rfl
@[simp] theorem State.setCore_life (k : Nat) (c : Core) : (s.setCore k c).life = s.life := rfl
@[simp] theorem State.setCore_opt (k : Nat) (c : Core) : (s.setCore k c).opt = s.opt := rfl
@[simp] theorem State.setCore_stag (k : Nat) (c : Core) : (s.setCore k c).stag = s.stag := rfl
@[simp] theorem State.setCore_therm (k : Nat) (c : Core) : (s.setCore k c).therm = s.therm := rfl
@[simp] theorem State.setCore_fw (k : Nat) (c : Core) : (s.setCore k c).fw = s.fw := rfl
@[simp] theorem State.setCore_pkg (k : Nat) (c : Core) : (s.setCore k c).pkg = s.pkg := rfl
@[simp] theorem State.setCore_bol (k : Nat) (c : Core) : (s.setCore k c).bol = s.bol := rfl
@[simp] theorem State.setCore_dieCtl (k : Nat) (c : Core) : (s.setCore k c).dieCtl = s.dieCtl := rfl
@[simp] theorem State.setCore_stagCtl (k : Nat) (c : Core) : (s.setCore k c).stagCtl = s.stagCtl := rfl
@[simp] theorem State.setCore_out (k : Nat) (c : Core) : (s.setCore k c).out = s.out := rfl

/-! `State.setDieIntc`. -/

@[simp] theorem State.setDieIntc_pending (d : Nat) (c : IntCtl) : (s.setDieIntc d c).pending = s.pending := rfl
@[simp] theorem State.setDieIntc_free (d : Nat) (c : IntCtl) : (s.setDieIntc d c).free = s.free := rfl
@[simp] theorem State.setDieIntc_time (d : Nat) (c : IntCtl) : (s.setDieIntc d c).time = s.time := rfl
@[simp] theorem State.setDieIntc_cores (d : Nat) (c : IntCtl) : (s.setDieIntc d c).cores = s.cores := rfl
@[simp] theorem State.setDieIntc_regs (d : Nat) (c : IntCtl) : (s.setDieIntc d c).regs = s.regs := rfl
@[simp] theorem State.setDieIntc_shadow (d : Nat) (c : IntCtl) : (s.setDieIntc d c).shadow = s.shadow := rfl
@[simp] theorem State.setDieIntc_mem (d : Nat) (c : IntCtl) : (s.setDieIntc d c).mem = s.mem := rfl
@[simp] theorem State.setDieIntc_routers (d : Nat) (c : IntCtl) : (s.setDieIntc d c).routers = s.routers := rfl
@[simp] theorem State.setDieIntc_mesh (d : Nat) (c : IntCtl) : (s.setDieIntc d c).mesh = s.mesh := rfl
@[simp] theorem State.setDieIntc_base (d : Nat) (c : IntCtl) : (s.setDieIntc d c).base = s.base := rfl
@[simp] theorem State.setDieIntc_mmu (d : Nat) (c : IntCtl) : (s.setDieIntc d c).mmu = s.mmu := rfl
@[simp] theorem State.setDieIntc_fab (d : Nat) (c : IntCtl) : (s.setDieIntc d c).fab = s.fab := rfl
@[simp] theorem State.setDieIntc_xport (d : Nat) (c : IntCtl) : (s.setDieIntc d c).xport = s.xport := rfl
@[simp] theorem State.setDieIntc_host (d : Nat) (c : IntCtl) : (s.setDieIntc d c).host = s.host := rfl
@[simp] theorem State.setDieIntc_life (d : Nat) (c : IntCtl) : (s.setDieIntc d c).life = s.life := rfl
@[simp] theorem State.setDieIntc_opt (d : Nat) (c : IntCtl) : (s.setDieIntc d c).opt = s.opt := rfl
@[simp] theorem State.setDieIntc_stag (d : Nat) (c : IntCtl) : (s.setDieIntc d c).stag = s.stag := rfl
@[simp] theorem State.setDieIntc_therm (d : Nat) (c : IntCtl) : (s.setDieIntc d c).therm = s.therm := rfl
@[simp] theorem State.setDieIntc_fw (d : Nat) (c : IntCtl) : (s.setDieIntc d c).fw = s.fw := rfl
@[simp] theorem State.setDieIntc_pkg (d : Nat) (c : IntCtl) : (s.setDieIntc d c).pkg = s.pkg := rfl
@[simp] theorem State.setDieIntc_bol (d : Nat) (c : IntCtl) : (s.setDieIntc d c).bol = s.bol := rfl
@[simp] theorem State.setDieIntc_dieCtl (d : Nat) (c : IntCtl) : (s.setDieIntc d c).dieCtl = SMap.set (fun _ => IntCtl.reset) s.dieCtl d c := rfl
@[simp] theorem State.setDieIntc_stagCtl (d : Nat) (c : IntCtl) : (s.setDieIntc d c).stagCtl = s.stagCtl := rfl
@[simp] theorem State.setDieIntc_out (d : Nat) (c : IntCtl) : (s.setDieIntc d c).out = s.out := rfl

/-! `State.setStagIntc`. -/

@[simp] theorem State.setStagIntc_pending (u : Nat) (c : IntCtl) : (s.setStagIntc u c).pending = s.pending := rfl
@[simp] theorem State.setStagIntc_free (u : Nat) (c : IntCtl) : (s.setStagIntc u c).free = s.free := rfl
@[simp] theorem State.setStagIntc_time (u : Nat) (c : IntCtl) : (s.setStagIntc u c).time = s.time := rfl
@[simp] theorem State.setStagIntc_cores (u : Nat) (c : IntCtl) : (s.setStagIntc u c).cores = s.cores := rfl
@[simp] theorem State.setStagIntc_regs (u : Nat) (c : IntCtl) : (s.setStagIntc u c).regs = s.regs := rfl
@[simp] theorem State.setStagIntc_shadow (u : Nat) (c : IntCtl) : (s.setStagIntc u c).shadow = s.shadow := rfl
@[simp] theorem State.setStagIntc_mem (u : Nat) (c : IntCtl) : (s.setStagIntc u c).mem = s.mem := rfl
@[simp] theorem State.setStagIntc_routers (u : Nat) (c : IntCtl) : (s.setStagIntc u c).routers = s.routers := rfl
@[simp] theorem State.setStagIntc_mesh (u : Nat) (c : IntCtl) : (s.setStagIntc u c).mesh = s.mesh := rfl
@[simp] theorem State.setStagIntc_base (u : Nat) (c : IntCtl) : (s.setStagIntc u c).base = s.base := rfl
@[simp] theorem State.setStagIntc_mmu (u : Nat) (c : IntCtl) : (s.setStagIntc u c).mmu = s.mmu := rfl
@[simp] theorem State.setStagIntc_fab (u : Nat) (c : IntCtl) : (s.setStagIntc u c).fab = s.fab := rfl
@[simp] theorem State.setStagIntc_xport (u : Nat) (c : IntCtl) : (s.setStagIntc u c).xport = s.xport := rfl
@[simp] theorem State.setStagIntc_host (u : Nat) (c : IntCtl) : (s.setStagIntc u c).host = s.host := rfl
@[simp] theorem State.setStagIntc_life (u : Nat) (c : IntCtl) : (s.setStagIntc u c).life = s.life := rfl
@[simp] theorem State.setStagIntc_opt (u : Nat) (c : IntCtl) : (s.setStagIntc u c).opt = s.opt := rfl
@[simp] theorem State.setStagIntc_stag (u : Nat) (c : IntCtl) : (s.setStagIntc u c).stag = s.stag := rfl
@[simp] theorem State.setStagIntc_therm (u : Nat) (c : IntCtl) : (s.setStagIntc u c).therm = s.therm := rfl
@[simp] theorem State.setStagIntc_fw (u : Nat) (c : IntCtl) : (s.setStagIntc u c).fw = s.fw := rfl
@[simp] theorem State.setStagIntc_pkg (u : Nat) (c : IntCtl) : (s.setStagIntc u c).pkg = s.pkg := rfl
@[simp] theorem State.setStagIntc_bol (u : Nat) (c : IntCtl) : (s.setStagIntc u c).bol = s.bol := rfl
@[simp] theorem State.setStagIntc_dieCtl (u : Nat) (c : IntCtl) : (s.setStagIntc u c).dieCtl = s.dieCtl := rfl
@[simp] theorem State.setStagIntc_stagCtl (u : Nat) (c : IntCtl) : (s.setStagIntc u c).stagCtl = SMap.set (fun _ => IntCtl.reset) s.stagCtl u c := rfl
@[simp] theorem State.setStagIntc_out (u : Nat) (c : IntCtl) : (s.setStagIntc u c).out = s.out := rfl

/-! `State.ledgerBy`. -/

@[simp] theorem State.ledgerBy_pending (i n : Nat) : (s.ledgerBy i n).pending = s.pending := rfl
@[simp] theorem State.ledgerBy_free (i n : Nat) : (s.ledgerBy i n).free = s.free := rfl
@[simp] theorem State.ledgerBy_time (i n : Nat) : (s.ledgerBy i n).time = s.time := rfl
@[simp] theorem State.ledgerBy_cores (i n : Nat) : (s.ledgerBy i n).cores = s.cores := rfl
@[simp] theorem State.ledgerBy_regs (i n : Nat) : (s.ledgerBy i n).regs = s.regs := rfl
@[simp] theorem State.ledgerBy_shadow (i n : Nat) : (s.ledgerBy i n).shadow = s.shadow := rfl
@[simp] theorem State.ledgerBy_mem (i n : Nat) : (s.ledgerBy i n).mem = s.mem := rfl
@[simp] theorem State.ledgerBy_routers (i n : Nat) : (s.ledgerBy i n).routers = s.routers := rfl
@[simp] theorem State.ledgerBy_mesh (i n : Nat) : (s.ledgerBy i n).mesh = s.mesh := rfl
@[simp] theorem State.ledgerBy_base (i n : Nat) : (s.ledgerBy i n).base = s.base := rfl
@[simp] theorem State.ledgerBy_mmu (i n : Nat) : (s.ledgerBy i n).mmu = s.mmu := rfl
@[simp] theorem State.ledgerBy_fab (i n : Nat) : (s.ledgerBy i n).fab = s.fab := rfl
@[simp] theorem State.ledgerBy_xport (i n : Nat) : (s.ledgerBy i n).xport = s.xport := rfl
@[simp] theorem State.ledgerBy_host (i n : Nat) : (s.ledgerBy i n).host = s.host := rfl
@[simp] theorem State.ledgerBy_life (i n : Nat) : (s.ledgerBy i n).life = s.life.add s.now (s.reg R.lifeHourStart).toNat (s.reg R.lifeDayStart).toNat i n := rfl
@[simp] theorem State.ledgerBy_opt (i n : Nat) : (s.ledgerBy i n).opt = s.opt := rfl
@[simp] theorem State.ledgerBy_stag (i n : Nat) : (s.ledgerBy i n).stag = s.stag := rfl
@[simp] theorem State.ledgerBy_therm (i n : Nat) : (s.ledgerBy i n).therm = s.therm := rfl
@[simp] theorem State.ledgerBy_fw (i n : Nat) : (s.ledgerBy i n).fw = s.fw := rfl
@[simp] theorem State.ledgerBy_pkg (i n : Nat) : (s.ledgerBy i n).pkg = s.pkg := rfl
@[simp] theorem State.ledgerBy_bol (i n : Nat) : (s.ledgerBy i n).bol = s.bol := rfl
@[simp] theorem State.ledgerBy_dieCtl (i n : Nat) : (s.ledgerBy i n).dieCtl = s.dieCtl := rfl
@[simp] theorem State.ledgerBy_stagCtl (i n : Nat) : (s.ledgerBy i n).stagCtl = s.stagCtl := rfl
@[simp] theorem State.ledgerBy_out (i n : Nat) : (s.ledgerBy i n).out = s.out := rfl

/-! Reads. -/

@[simp] theorem State.reg_setReg_same (off : Nat) (v : Word) : (s.setReg off v).reg off = v := by
  simp [State.reg]

@[simp] theorem State.reg_setReg_other {off o : Nat} (v : Word) (h : o ≠ off) : (s.setReg off v).reg o = s.reg o := by
  simp [State.reg, h]

@[simp] theorem State.coreAt_setCore_same (k : Nat) (c : Core) : (s.setCore k c).coreAt k = c := by
  simp [State.coreAt]

@[simp] theorem State.coreAt_setCore_other {k j : Nat} (c : Core) (h : j ≠ k) : (s.setCore k c).coreAt j = s.coreAt j := by
  simp [State.coreAt, h]

@[simp] theorem State.onKey_eq (k : Nat) (f : CoreEnv → Core → Core) :
    s.onKey k f = s.setCore k (f (s.envAt k) (s.coreAt k)) := rfl

@[simp] theorem State.onCore_eq (c : CoreId) (f : CoreEnv → Core → Core) :
    s.onCore c f = s.setCore c.key (f (s.envAt c.key) (s.coreAt c.key)) := rfl

@[simp] theorem State.dieIntc_setDieIntc_same (d : Nat) (c : IntCtl) : (s.setDieIntc d c).dieIntc d = c := by
  simp [State.dieIntc]

@[simp] theorem State.stagIntc_setStagIntc_same (u : Nat) (c : IntCtl) : (s.setStagIntc u c).stagIntc u = c := by
  simp [State.stagIntc]

/-! Operations that a condition may leave without effect. -/

theorem State.drive_out (pin : Nat) (level : Bool) :
    (s.drive pin level).out = s.out ∨ (s.drive pin level).out = s.out ++ [.pin pin level] := by
  unfold State.drive
  split
  · exact .inl rfl
  · exact .inr rfl

end Sys2Proof.Machine
end

