-- ==== Sys2Proof/Laws/Bits.lean ====
section
/-!
SUPPORT. What fields, bits and saturating counts of a word read after they are written, and the same of registers.
-/

namespace Sys2Proof.Machine

theorem fld_testBit (w : Word) (lo len i : Nat) : (fld w lo len).testBit i = (decide (i < len) && w.getLsbD (lo + i)) := by
  unfold fld
  rw [Nat.testBit_mod_two_pow, Nat.testBit_div_two_pow, BitVec.testBit_toNat, Nat.add_comm]

theorem bit_getLsbD (w : Word) (i : Nat) : bit w i = w.getLsbD i := rfl

theorem mask_getLsbD (lo len i : Nat) :
    (mask lo len).getLsbD i = (decide (i < 64) && (decide (lo ≤ i) && decide (i < lo + len))) := by
  unfold mask
  rw [BitVec.getLsbD_ofNat, Nat.testBit_mul_two_pow, Nat.testBit_two_pow_sub_one]
  congr 1
  by_cases h : lo ≤ i
  · simp [h]
    omega
  · simp [h]

theorem setFld_getLsbD (w : Word) (lo len v i : Nat) :
    (setFld w lo len v).getLsbD i = if lo ≤ i ∧ i < lo + len then decide (i < 64) && v.testBit (i - lo) else w.getLsbD i := by
  unfold setFld
  rw [BitVec.getLsbD_or, BitVec.getLsbD_and, BitVec.getLsbD_not, mask_getLsbD, BitVec.getLsbD_ofNat, Nat.testBit_mul_two_pow,
    Nat.testBit_mod_two_pow]
  by_cases h64 : i < 64
  · by_cases h1 : lo ≤ i
    · by_cases h2 : i < lo + len
      · have : i - lo < len := by omega
        simp [h1, h2, h64, this]
      · have : ¬ i - lo < len := by omega
        simp [h1, h2, h64, this]
    · simp [h1, h64]
  · have : w.getLsbD i = false := BitVec.getLsbD_of_ge _ _ (by omega)
    simp [h64, this]

/-- The field that was written. -/
theorem fld_setFld_same (w : Word) {lo len : Nat} (v : Nat) (h : lo + len ≤ 64) : fld (setFld w lo len v) lo len = v % 2 ^ len := by
  apply Nat.eq_of_testBit_eq
  intro i
  rw [fld_testBit, setFld_getLsbD, Nat.testBit_mod_two_pow]
  by_cases hi : i < len
  · have : lo ≤ lo + i ∧ lo + i < lo + len := by omega
    have h2 : lo + i < 64 := by omega
    simp [hi, this, h2]
  · simp [hi]

/-- A field apart from the one written. -/
theorem fld_setFld_other (w : Word) {lo len a n : Nat} (v : Nat) (h : a + n ≤ lo ∨ lo + len ≤ a) :
    fld (setFld w lo len v) a n = fld w a n := by
  apply Nat.eq_of_testBit_eq
  intro i
  rw [fld_testBit, fld_testBit, setFld_getLsbD]
  by_cases hi : i < n
  · have : ¬ (lo ≤ a + i ∧ a + i < lo + len) := by omega
    rw [if_neg this]
  · simp [hi]

theorem bit_setFld_other (w : Word) {lo len i : Nat} (v : Nat) (h : i < lo ∨ lo + len ≤ i) : bit (setFld w lo len v) i = bit w i := by
  rw [bit_getLsbD, bit_getLsbD, setFld_getLsbD, if_neg (by omega)]

theorem bit_setBit_same (w : Word) {i : Nat} (b : Bool) (h : i < 64) : bit (setBit w i b) i = b := by
  rw [bit_getLsbD, setBit, setFld_getLsbD, if_pos (by omega)]
  cases b <;> simp [h]

theorem bit_setBit_other (w : Word) {i j : Nat} (b : Bool) (h : j ≠ i) : bit (setBit w i b) j = bit w j :=
  bit_setFld_other w _ (by omega)

/-- A saturating count of a field. -/
theorem fld_satInc_same (w : Word) {lo len : Nat} (h : lo + len ≤ 64) :
    fld (satInc w lo len) lo len = min (2 ^ len - 1) (fld w lo len + 1) := by
  rw [satInc, fld_setFld_same w _ h, Nat.mod_eq_of_lt]
  have : 0 < 2 ^ len := Nat.two_pow_pos len
  omega

theorem fld_satInc_other (w : Word) {lo len a n : Nat} (h : a + n ≤ lo ∨ lo + len ≤ a) : fld (satInc w lo len) a n = fld w a n :=
  fld_setFld_other w _ h

/-! Fields of registers. -/

variable (s : State)

theorem State.rfld_setReg_same (off lo len : Nat) (v : Word) : (s.setReg off v).rfld off lo len = fld v lo len := by
  simp [State.rfld]

theorem State.rfld_setReg_other {off o : Nat} (lo len : Nat) (v : Word) (h : o ≠ off) :
    (s.setReg off v).rfld o lo len = s.rfld o lo len := by
  simp [State.rfld, h]

theorem State.reg_setRfld_other {off o : Nat} (lo len v : Nat) (h : o ≠ off) : (s.setRfld off lo len v).reg o = s.reg o := by
  simp [State.setRfld, h]

theorem State.rfld_setRfld_same (off : Nat) {lo len : Nat} (v : Nat) (h : lo + len ≤ 64) :
    (s.setRfld off lo len v).rfld off lo len = v % 2 ^ len := by
  simp [State.setRfld, State.rfld, fld_setFld_same _ _ h]

theorem State.rfld_setRfld_field (off : Nat) {lo len a n : Nat} (v : Nat) (h : a + n ≤ lo ∨ lo + len ≤ a) :
    (s.setRfld off lo len v).rfld off a n = s.rfld off a n := by
  simp [State.setRfld, State.rfld, fld_setFld_other _ _ h]

theorem State.rfld_setRfld_other {off o : Nat} (lo len a n v : Nat) (h : o ≠ off) :
    (s.setRfld off lo len v).rfld o a n = s.rfld o a n := by
  simp [State.setRfld, State.rfld, h]

theorem State.rfld_count_same (off : Nat) {lo len : Nat} (h : lo + len ≤ 64) :
    (s.count off lo len).rfld off lo len = min (2 ^ len - 1) (s.rfld off lo len + 1) := by
  simp [State.count, State.rfld, fld_satInc_same _ h]

theorem State.rfld_count_field (off : Nat) {lo len a n : Nat} (h : a + n ≤ lo ∨ lo + len ≤ a) :
    (s.count off lo len).rfld off a n = s.rfld off a n := by
  simp [State.count, State.rfld, fld_satInc_other _ h]

theorem State.reg_count_other {off o : Nat} (lo len : Nat) (h : o ≠ off) : (s.count off lo len).reg o = s.reg o := by
  simp [State.count, h]

end Sys2Proof.Machine
end

