-- ==== Sys2Proof/Laws/Core.lean ====
section
/-!
SUPPORT. What issuing an instruction does, and what register, predicate and pc updates of a core leave.
-/

namespace Sys2Proof.Machine

/-! Registers and predicates (R30). -/

@[simp] theorem Core.rg_zero (c : Core) : c.rg 0#5 = 0#64 := if_pos rfl

@[simp] theorem Core.pr_zero (c : Core) : c.pr 0#3 = true := if_pos rfl

theorem Core.rg_setG_same (c : Core) (r : Reg) (v : Word) : (c.setG r v).rg r = if r = 0 then 0 else v := by
  by_cases h : r = 0
  · subst h
    rfl
  · simp only [Core.rg, Core.setG, if_neg h, SMap.get_set_same]

theorem Core.rg_setG_other (c : Core) {r q : Reg} (v : Word) (h : q ≠ r) : (c.setG r v).rg q = c.rg q := by
  by_cases h0 : r = 0
  · simp only [Core.setG, if_pos h0]
  · have hn : q.toNat ≠ r.toNat := fun e => h (BitVec.eq_of_toNat_eq e)
    simp only [Core.rg, Core.setG, if_neg h0, SMap.get_set_other _ _ _ hn]

/-- A register write changes the register table only. -/
theorem Core.setG_eq (c : Core) (r : Reg) (v : Word) : c.setG r v = { c with g := (c.setG r v).g } := by
  unfold Core.setG
  split <;> rfl

@[simp] theorem Core.setG_ctl (c : Core) (r : Reg) (v : Word) : (c.setG r v).ctl = c.ctl := by
  unfold Core.setG
  split <;> rfl

/-- A predicate write changes the predicates only. -/
theorem Core.setP_eq (c : Core) (p : PReg) (b : Bool) :
    c.setP p b = { c with ctl := { c.ctl with preds := (c.setP p b).ctl.preds } } := by
  unfold Core.setP
  split <;> rfl

/-- A predicate's place in the seven bits. -/
theorem predBit (p q : PReg) (hp : p ≠ 0) (hq : q ≠ 0) :
    (BitVec.ofNat 7 (2 ^ (p.toNat - 1))).getLsbD (q.toNat - 1) = decide (p = q) := by
  revert p q
  decide

theorem Core.pr_setP (c : Core) (p q : PReg) (b : Bool) :
    (c.setP p b).pr q = if q = 0 then true else if p = q then b else c.pr q := by
  by_cases h0 : p = 0
  · subst h0
    by_cases hq : q = 0
    · simp only [if_pos hq, Core.pr]
    · have h : (0 : PReg) ≠ q := fun e => hq e.symm
      simp only [Core.setP, if_true, if_neg hq, if_neg h]
  · by_cases hq : q = 0
    · simp only [if_pos hq, Core.pr]
    · have hlt : q.toNat - 1 < 7 := by
        have := q.isLt
        omega
      simp only [Core.pr, Core.setP, if_neg h0, if_neg hq]
      cases b
      · simp only [Bool.false_eq_true, if_false, BitVec.getLsbD_and, BitVec.getLsbD_not, predBit p q h0 hq, hlt,
          decide_true, Bool.true_and]
        by_cases e : p = q
        · rw [if_pos e, decide_eq_true e]
          simp
        · rw [if_neg e, decide_eq_false e]
          simp
      · simp only [if_true, BitVec.getLsbD_or, predBit p q h0 hq]
        by_cases e : p = q
        · rw [if_pos e, decide_eq_true e]
          simp
        · rw [if_neg e, decide_eq_false e]
          simp

theorem Core.pr_setP_same (c : Core) (p : PReg) (b : Bool) : (c.setP p b).pr p = if p = 0 then true else b := by
  rw [Core.pr_setP]
  simp

theorem Core.pr_setP_other (c : Core) {p q : PReg} (b : Bool) (h : q ≠ p) : (c.setP p b).pr q = c.pr q := by
  rw [Core.pr_setP]
  by_cases hq : q = 0
  · subst hq
    rfl
  · rw [if_neg hq, if_neg (Ne.symm h)]

/-! Issue (R33, R36). -/

/-- The core of an issue once its fetch is past a vector or an exit. -/
def Core.fetched (c : Core) : Core := { c with ctl := { c.ctl with turn := .none } }

/-- What issuing an instruction that executes does. -/
theorem State.issue_executes {s : State} {i : Issue} (h : Executes s i) (word : Nat) (legal : Bool)
    (f : CoreEnv → Core → Core) :
    s.issue i word legal f = s.setCore i.core.key
      (if legal then f (s.envAt i.core.key) (s.coreAt i.core.key).fetched else (s.coreAt i.core.key).fetched.illegal word) := by
  obtain ⟨⟨hr, he, hp⟩, hx⟩ := h
  have hrd : (s.coreAt i.core.key).ready = true := by simp [Core.ready, hr, he]
  have hh : (s.coreAt i.core.key).fetched.holds i = true := by
    have : (s.coreAt i.core.key).fetched.pr i.pr = (s.coreAt i.core.key).pr i.pr := rfl
    simp [Core.holds, this, hx]
  have hh' : ({ s.coreAt i.core.key with ctl := { (s.coreAt i.core.key).ctl with turn := .none } } : Core).holds i = true := hh
  simp only [State.issue, State.onCore_eq, Core.issue, hrd, hp, hh', Bool.not_true, Bool.false_eq_true, if_false]
  cases legal <;> rfl

/-- What issuing an instruction whose predicate is false does. -/
theorem State.issue_skips {s : State} {i : Issue} (h : Reaches s i) (hx : (s.coreAt i.core.key).pr i.pr = i.pn)
    (word : Nat) (legal : Bool) (f : CoreEnv → Core → Core) :
    s.issue i word legal f = s.setCore i.core.key
      { s.coreAt i.core.key with ctl := (s.coreAt i.core.key).movedOn } := by
  obtain ⟨hr, he, hp⟩ := h
  have hrd : (s.coreAt i.core.key).ready = true := by simp [Core.ready, hr, he]
  have hh' : ({ s.coreAt i.core.key with ctl := { (s.coreAt i.core.key).ctl with turn := .none } } : Core).holds i = false := by
    have : ({ s.coreAt i.core.key with ctl := { (s.coreAt i.core.key).ctl with turn := .none } } : Core).pr i.pr
      = (s.coreAt i.core.key).pr i.pr := rfl
    simp [Core.holds, this, hx]
  simp only [State.issue, State.onCore_eq, Core.issue, hrd, hp, hh', Bool.not_true, Bool.not_false, Bool.false_eq_true,
    if_false, if_true]
  rfl

theorem OnlyCore.setCore (s : State) (k : Nat) (c : Core) : OnlyCore s (s.setCore k c) k :=
  ⟨rfl, fun _ hj => State.coreAt_setCore_other s c hj⟩

/-- A result in rd, as `Core.result` writes it. -/
theorem RegResult.setCore (s : State) (k : Nat) (rd : Reg) (v : Word) :
    RegResult s (s.setCore k ((((s.coreAt k).fetched).setG rd v).next)) k rd v := by
  refine ⟨OnlyCore.setCore s k _, ?_, fun r hr => ?_, ?_⟩
  · rw [State.coreAt_setCore_same]
    exact Core.rg_setG_same _ rd v
  · rw [State.coreAt_setCore_same]
    exact Core.rg_setG_other (s.coreAt k).fetched v hr
  · rw [State.coreAt_setCore_same]
    unfold Core.next Core.setG
    split <;> rfl

/-- A result in pd. -/
theorem PredResult.setCore (s : State) (k : Nat) (pd : PReg) (b : Bool) :
    PredResult s (s.setCore k ((((s.coreAt k).fetched).setP pd b).next)) k pd b := by
  refine ⟨OnlyCore.setCore s k _, ?_, fun p hp => ?_, ?_⟩
  · rw [State.coreAt_setCore_same]
    exact Core.pr_setP_same _ pd b
  · rw [State.coreAt_setCore_same]
    exact Core.pr_setP_other (s.coreAt k).fetched b hp
  · rw [State.coreAt_setCore_same]
    unfold Core.next Core.setP
    split <;> rfl

/-- The entry of a synchronous exception that is not a double one. -/
theorem TakesException.setCore (s : State) (k cause : Nat) (value : Word) (ret : BitVec 17) :
    TakesException s (s.setCore k (((s.coreAt k).fetched).exception cause value ret false)) k cause value ret := by
  intro hf
  have ha : (s.coreAt k).fetched.ctl.frames.any (·.kind) = false := by
    rw [List.any_eq_false]
    intro f hm
    simp [hf f hm]
  refine ⟨OnlyCore.setCore s k _, ?_⟩
  rw [State.coreAt_setCore_same]
  unfold Core.exception
  rw [ha]
  exact ⟨rfl, rfl, rfl, rfl, rfl, rfl, rfl, rfl⟩

end Sys2Proof.Machine
end

