-- ==== Sys2Proof/Laws/Host.lean ====
section
/-!
SUPPORT. What the end of a submission entry and a MGMT command leave (R345 to R348).
-/

namespace Sys2Proof.Machine

@[simp] theorem State.sq_setSq_same (s : State) (n : Nat) (q : Sq) : (s.setSq n q).sq n = q := by
  simp [State.sq, State.setSq]

@[simp] theorem State.sq_setSq_other (s : State) {n m : Nat} (q : Sq) (h : m ≠ n) : (s.setSq n q).sq m = s.sq m := by
  simp [State.sq, State.setSq, h]

/-- The end of an entry changes its ring's started entries and the completions that wait, and nothing else. -/
theorem State.endEntry_eq (s : State) (e : SqEntry) (status : Nat) (result : Word) :
    s.endEntry e status result = { s with host := { s.host with
      sqs := SMap.set (fun _ => Sq.reset) s.host.sqs e.ring { s.sq e.ring with
        started := (s.sq e.ring).started.filter fun x => decide (x.index ≠ e.index) }
      compls := s.host.compls ++ [Compl.mk e.ring e.index e.job status (e.w 1) result e.nocqe s.now] } } := rfl

/-- The end of the only started entry of a ring without fetched ones. -/
theorem State.endEntry_ends (s : State) (e : SqEntry) (status : Nat) (result : Word) (hf : (s.sq e.ring).fetched = [])
    (hs : (s.sq e.ring).started = [e]) : EntryEnds s (s.endEntry e status result) e status result := by
  refine ⟨?_, ?_, rfl⟩
  · rw [State.endEntry_eq]
    simp [State.sq] at hf ⊢
    exact hf
  · rw [State.endEntry_eq]
    simp [State.sq] at hs ⊢
    rw [hs]
    simp

/-- A MGMT command finds the entry that stands alone. -/
theorem MgmtAlone.run {s : State} {sub : Nat} {ms : List Word} {e : SqEntry} (h : MgmtAlone s sub ms e)
    (f : State → SqEntry → State) : s.mgmtRun sub ms f = f s e := by
  obtain ⟨hh, hm, hs, hok, -, -⟩ := h
  have hx : s.mgmtEntry sub = some e := by
    unfold State.mgmtEntry
    rw [if_pos hh, hm, List.find?_cons, hs]
    simp
  unfold State.mgmtRun
  rw [hx]
  dsimp only
  rw [if_pos hok]

/-- The end of the entry that stands alone. -/
theorem MgmtAlone.ends {s : State} {sub : Nat} {ms : List Word} {e : SqEntry} (h : MgmtAlone s sub ms e) (status : Nat)
    (result : Word) : MgmtEnds s (s.endMgmt e status result) e status result := by
  obtain ⟨-, hm, -, -, hf, hs⟩ := h
  refine ⟨State.endEntry_ends _ e status result hf hs, ?_⟩
  show s.host.mgmt.erase e = []
  rw [hm]
  simp

end Sys2Proof.Machine
end

