-- ==== Sys2Proof/Laws/Image.lean ====
section
/-!
SUPPORT. Byte strings of numbers, and the size of a calibration image (R409).
-/

namespace Sys2Proof.Machine

@[simp] theorem rangeFrom_length (a n : Nat) : (rangeFrom a n).length = n := by
  induction n generalizing a with
  | zero => rfl
  | succ n ih => simp [rangeFrom, ih]

@[simp] theorem natToBytes_length (n v : Nat) : (natToBytes n v).length = n := by
  induction n generalizing v with
  | zero => rfl
  | succ n ih => simp [natToBytes, ih]

@[simp] theorem wordBytes_length (w : Word) : (wordBytes w).length = 8 := natToBytes_length 8 w.toNat

theorem bytesToNat_natToBytes (n v : Nat) : bytesToNat (natToBytes n v) = v % 256 ^ n := by
  induction n generalizing v with
  | zero => simp [natToBytes, bytesToNat, Nat.mod_one]
  | succ n ih =>
    simp only [natToBytes, bytesToNat, ih, BitVec.toNat_ofNat]
    rw [show 256 ^ (n + 1) = 256 * 256 ^ n from Nat.pow_succ']
    exact (Nat.mod_mul (x := v)).symm

theorem bytesToNat_wordBytes (w : Word) : bytesToNat (wordBytes w) = w.toNat := by
  rw [wordBytes, bytesToNat_natToBytes]
  exact Nat.mod_eq_of_lt w.isLt

theorem calRecord_length (kind a w : Nat) : (calRecord kind a w).length = 16 := by simp [calRecord]

theorem allFilters_length : allFilters.length < 2 ^ 30 := by
  simp only [allFilters, List.length_append, List.length_flatMap, List.length_map, rangeFrom_length]
  decide +kernel

theorem allModulators_length : allModulators.length < 2 ^ 30 := by
  simp only [allModulators, List.length_append, List.length_flatMap, List.length_map, rangeFrom_length]
  decide +kernel

theorem allMaps_length : allMaps.length < 2 ^ 30 := by decide +kernel

/-- Every record of the image has 16 B. -/
theorem State.calRecords_each (s : State) : ∀ r ∈ s.calRecords, r.length = 16 := by
  intro r hr
  simp only [State.calRecords, List.mem_append, List.mem_map] at hr
  rcases hr with ((⟨a, -, rfl⟩ | ⟨a, -, rfl⟩) | ⟨a, -, rfl⟩) | ⟨a, -, rfl⟩ <;> exact calRecord_length ..

theorem flatMap_id_length {l : List (List Byte)} {n : Nat} (h : ∀ r ∈ l, r.length = n) : (l.flatMap id).length = l.length * n := by
  induction l with
  | nil => simp
  | cons a t ih =>
    rw [List.flatMap_cons, List.length_append, ih fun r hr => h r (List.mem_cons_of_mem _ hr), List.length_cons]
    have := h a List.mem_cons_self
    simp only [id_eq, this]
    rw [Nat.add_mul]
    omega

/-- A calibration image is shorter than any length that a command can name. -/
theorem State.calImage_length (s : State) : s.calImage.length < 2 ^ 40 := by
  have h := flatMap_id_length s.calRecords_each
  have hn : s.calRecords.length = allFilters.length + allModulators.length + allFilters.length + 44 + allMaps.length := by
    simp only [State.calRecords, List.length_append, List.length_map, rangeFrom_length]
  have h1 := allFilters_length
  have h2 := allModulators_length
  have h3 := allMaps_length
  simp only [State.calImage, List.length_append, natToBytes_length, wordBytes_length, List.length_replicate]
  omega

end Sys2Proof.Machine
end

