-- ==== Sys2Proof/Laws/Memory.lean ====
section
/-!
SUPPORT. What reads and writes of device memory leave: their frame, the bytes after a write, and the canonical form
(R226 to R233, R307).
-/

namespace Sys2Proof.Machine

/-- Nothing but records of errors, retired frames and reports: the bytes of memory, the cores, the queue and what
was sent are as before. -/
def State.Recorded (s t : State) : Prop :=
  t.mem.bytes = s.mem.bytes ∧ t.cores = s.cores ∧ t.pending = s.pending ∧ t.out = s.out

theorem State.Recorded.refl (s : State) : s.Recorded s := ⟨rfl, rfl, rfl, rfl⟩

theorem State.Recorded.trans {s t u : State} (h : s.Recorded t) (k : t.Recorded u) : s.Recorded u :=
  ⟨k.1.trans h.1, k.2.1.trans h.2.1, k.2.2.1.trans h.2.2.1, k.2.2.2.trans h.2.2.2⟩

theorem State.Recorded.setReg {s t : State} (h : s.Recorded t) (off : Nat) (v : Word) : s.Recorded (t.setReg off v) := h
theorem State.Recorded.setRfld {s t : State} (h : s.Recorded t) (off lo len v : Nat) : s.Recorded (t.setRfld off lo len v) := h
theorem State.Recorded.count {s t : State} (h : s.Recorded t) (off lo len : Nat) : s.Recorded (t.count off lo len) := h
theorem State.Recorded.event {s t : State} (h : s.Recorded t) (code : Nat) (d : List Byte) : s.Recorded (t.event code d) := h
theorem State.Recorded.ledger {s t : State} (h : s.Recorded t) (i : Nat) : s.Recorded (t.ledger i) := h
theorem State.Recorded.setLineBad {s t : State} (h : s.Recorded t) (l : Nat) (b : Bool) : s.Recorded (t.setLineBad l b) := h
theorem State.Recorded.mem {s t : State} (h : s.Recorded t) (m : MemState) (e : m.bytes = t.mem.bytes) :
    s.Recorded { t with mem := m } := ⟨e.trans h.1, h.2⟩

/-- A short write of package flash touches no byte of device memory. -/
theorem State.Recorded.shortWrite {s t : State} (h : s.Recorded t) (o : FlashOp) : s.Recorded (t.shortWrite o) := by
  unfold State.shortWrite
  split
  · cases o <;> exact h
  · exact h

theorem State.Recorded.pcFailing {s t : State} (h : s.Recorded t) (stack pc : Nat) : s.Recorded (t.pcFailing stack pc) := by
  unfold State.pcFailing
  split
  · exact h
  · extract_lets
    apply State.Recorded.ledger
    apply State.Recorded.event
    apply State.Recorded.shortWrite
    exact h

theorem State.Recorded.retire {s t : State} (h : s.Recorded t) (pa cause : Nat) : s.Recorded (t.retire pa cause) := by
  unfold State.retire
  extract_lets
  split
  · exact h
  · apply State.Recorded.ledger
    apply State.Recorded.event
    split
    · apply State.Recorded.shortWrite
      apply State.Recorded.setRfld
      apply State.Recorded.setReg
      exact h.mem _ rfl
    · apply State.Recorded.setRfld
      exact h

theorem State.Recorded.laneCorrected {s t : State} (h : s.Recorded t) (stack pc lane : Nat) :
    s.Recorded (t.laneCorrected stack pc lane) := by
  have k : ∀ m : MemState, m.bytes = t.mem.bytes → s.Recorded { t with mem := m } := h.mem
  unfold State.laneCorrected
  extract_lets
  generalize windowed _ _ _ = w
  cases w
  dsimp only
  split
  · exact k _ rfl
  · split
    · apply State.Recorded.pcFailing
      exact k _ rfl
    · exact k _ rfl

/-- A read of a line records what it found, and nothing else changes. -/
theorem State.Recorded.readLine {s t : State} (h : s.Recorded t) (line : Nat) (r : LineRead) :
    s.Recorded (t.readLine line r).1 := by
  unfold State.readLine
  extract_lets
  generalize State.home t _ = x
  obtain ⟨st, pc, off⟩ := x
  dsimp only
  split
  · have k : ∀ u : State, s.Recorded u → ∀ m : MemState, m.bytes = u.mem.bytes → s.Recorded { u with mem := m } := fun u hu => hu.mem
    have h4 : ∀ (c d : Nat) (e : List Byte),
        s.Recorded (((((t.setLineBad line true).count c 48 16).ledger 39).event d e).retire (line * 64) 0) := fun c d e =>
      ((((h.setLineBad line true).count _ _ _).ledger _).event _ _).retire _ _
    have h5 := h4 (R.memStackErr st) 0x0703 (b1 st ++ b1 pc ++ natToBytes 8 (line * 64))
    generalize State.retire _ _ _ = s4 at h5 ⊢
    generalize windowed _ _ _ = w
    cases w
    dsimp only
    split
    · apply State.Recorded.pcFailing
      exact k s4 h5 _ rfl
    · exact k s4 h5 _ rfl
  · cases r
    case onDie => exact (h.count _ _ _).ledger _
    case corrected lane =>
      have h1 : s.Recorded ((t.count (R.memStackErr st) 0 32).ledger 37) := (h.count _ _ _).ledger _
      generalize State.ledger _ _ = s1 at h1 ⊢
      generalize windowed _ _ _ = w
      cases w
      dsimp only
      apply State.Recorded.laneCorrected
      split
      · apply State.Recorded.retire
        exact h1.mem _ rfl
      · exact h1.mem _ rfl
    all_goals exact h

theorem State.readLines_recorded (s : State) (line : Nat) (ecc : List LineRead) (n : Nat) : s.Recorded (s.readLines line ecc n).1 := by
  induction n with
  | zero => exact .refl s
  | succ n ih => exact ih.readLine _ _

/-- A read answers the bytes of memory and records what its lines gave. -/
theorem State.memRead_spec (s : State) (a n : Nat) (ecc : List LineRead) :
    s.Recorded (s.memRead a n ecc).1 ∧ (s.memRead a n ecc).2.1 = Mem.bytes s.mem.bytes a n := by
  have h := s.readLines_recorded (a / 64) ecc (linesOf a n)
  refine ⟨h, ?_⟩
  show Mem.bytes (s.readLines (a / 64) ecc (linesOf a n)).1.mem.bytes a n = _
  rw [h.1]

theorem State.setLineBads_recorded (l : List Nat) (f : State → Nat → State) (hf : ∀ (s : State) n, s.Recorded (f s n)) (s : State) :
    s.Recorded (l.foldl f s) := by
  induction l generalizing s with
  | nil => exact .refl s
  | cons n l ih => exact (hf s n).trans (ih _)

/-- A write puts its bytes at its address if it answers true, and changes no byte if it answers false. -/
theorem State.memWrite_bytes (s : State) (a : Nat) (d : List Byte) (ecc : List LineRead) :
    (s.memWrite a d ecc).1.mem.bytes = (if (s.memWrite a d ecc).2 then Mem.write s.mem.bytes a d else s.mem.bytes) := by
  unfold State.memWrite
  dsimp only
  have hfold : ∀ (l : List Nat) (x : State × Bool), x.1.Recorded (l.foldl (fun (x : State × Bool) l =>
      ((x.1.readLine l (nth .ok ecc (l - a / 64))).1, x.2 && (x.1.readLine l (nth .ok ecc (l - a / 64))).2)) x).1 := by
    intro l
    induction l with
    | nil => exact fun x => .refl _
    | cons n l ih => exact fun x => ((State.Recorded.refl _).readLine _ _).trans (ih _)
  have h := hfold (partLines a d.length) (s, true)
  split
  · exact h.1
  · show Mem.write (State.mem _).bytes a d = Mem.write s.mem.bytes a d
    rw [(State.setLineBads_recorded _ _ (fun s n => by split <;> exact ⟨rfl, rfl, rfl, rfl⟩) _).1, h.1]

/-- A write keeps the canonical form. -/
theorem State.memWrite_wf (s : State) (a : Nat) (d : List Byte) (ecc : List LineRead) (h : Memory.wf s.mem.bytes = true) :
    Memory.wf (s.memWrite a d ecc).1.mem.bytes = true := by
  rw [State.memWrite_bytes]
  split
  · exact Mem.write_wf _ _ _ h
  · exact h

/-- An atomic keeps the canonical form. -/
theorem State.memAtom_wf (s : State) (p : Pkt) (ecc : List LineRead) (h : Memory.wf s.mem.bytes = true) :
    Memory.wf (s.memAtom p ecc).1.mem.bytes = true := by
  unfold State.memAtom
  dsimp only
  have hr := (State.Recorded.refl s).readLine (p.addr / 64) (nth .ok ecc 0)
  split
  · show Memory.wf (State.mem _).bytes = true
    rw [hr.1]
    exact h
  · exact Mem.setNat_wf _ _ _ _ (by rw [hr.1]; exact h)

/-- The pieces of a saved record keep the canonical form. -/
theorem writePages_wf (pages : List Nat) (m : SMap Byte) (l : List Byte) (h : Memory.wf m = true) :
    Memory.wf (writePages m pages l) = true := by
  induction pages generalizing m l with
  | nil => exact h
  | cons a t ih => exact ih _ _ (Mem.write_wf _ _ _ h)

theorem State.touchSaved_mem (s : State) (a n : Nat) : (s.touchSaved a n).mem = s.mem := rfl

theorem State.touchPages_mem (s : State) (pages : List Nat) : (s.touchPages pages).mem = s.mem := by
  unfold State.touchPages
  induction pages generalizing s with
  | nil => rfl
  | cons p t ih =>
    rw [List.foldl_cons, ih, State.touchSaved_mem]

theorem State.saveCore_wf (s : State) (d : Nat) (x : Transfer) (xc : XferCore) (pages : List Nat) (h : Memory.wf s.mem.bytes = true) :
    Memory.wf (s.saveCore d x xc pages).mem.bytes = true :=
  by
  unfold State.saveCore
  dsimp only
  rw [State.touchPages_mem]
  show Memory.wf (writePages _ pages _) = true
  exact writePages_wf pages _ _ h

/-- Memory is canonical at reset. -/
theorem Memory.wf_nil : Memory.wf [] = true := rfl

end Sys2Proof.Machine
end

