-- ==== Sys2Proof/Tests/Slice0.lean ====
section
/-!
SUPPORT. Tests: ill-formed commands that the check refuses; for each statement with hypotheses, a theorem
`witness_<its name>` showing states and operands that meet them, clause by clause; small tests of single commands.
-/

namespace Sys2Proof.Tests

-- One theorem after the other: kernel checks that wait for each other take a thread, with its stack, each.
set_option Elab.async false

open Sys2Proof.Machine

/-- A core at reset that runs. -/
def run0 : Core := { Core.reset false with rs := .running }

/-- The reset state with a core at position (0, 0, 0). -/
def coreS (c : Core) : State := { State.reset with cores := [(0, c)] }

/-- The reset state with registers. -/
def regS (l : List (Nat × Word)) : State := { State.reset with regs := l }

/-- The position (0, 0, 0), and an instruction issued there under p0. -/
def at0 : CoreId := ⟨0, 0, 0⟩
def i0 : Issue := ⟨at0, false, 0, false⟩

/-- A packet of a type to the position (0, 0, 0) of the device, of 8 B. -/
def pkt0 (type : Nat) : Pkt :=
  { type := type, srcDev := 0, srcDie := 0, srcRow := 0, srcCol := 0, dstDev := 0, dstDie := 0, dstRow := 0, dstCol := 0
    tag := 0, job := 0, epoch := false, mc := 0, mcLast := 0, red := 0, ctx := 0, aux := 0, chunk := 0, addr := 0
    host := false, hc := false, inc := none, packed := none, rank := 0, lcol := 0, dcol := 0, data := [], poison := [], t0 := 0
    xack := none, relay := false, ordered := false, hdr := .ok, fixed := 0, void := false, skip := false, err := false }

/-! The queue, reset and the cores (R30 to R73). -/

theorem executes0 : Executes (coreS run0) i0 := ⟨⟨rfl, by decide, rfl⟩, by decide⟩

theorem witness_StepRunsFront : ({ State.reset with pending := [.relayForward] } : State).pending = .relayForward :: [] := rfl

theorem witness_IdleTick : State.reset.pending = [] ∧ State.reset.clocked = true ∧ State.reset.time.slew = 0 ∧
    State.reset.time.systime + 10 < 2 ^ 64 ∧ Still State.reset ∧
    (regS [(R.clkRefStatus, 0)]).pending = [] ∧ (regS [(R.clkRefStatus, 0)]).clocked = false := by unfold Still; decide

theorem witness_QueueDiscipline_OutputsStay : ∃ t, exec .relayForward State.reset = .next t := ⟨_, rfl⟩

theorem witness_MemoryCanonicalStep : Memory.wf State.reset.mem.bytes = true ∧ ∃ t, step State.reset = .next t :=
  ⟨rfl, _, rfl⟩

theorem witness_HardwiredReads : Regs.find 0x4FFFF8 = none ∧ ¬ (0x500000 ≤ 0x4FFFF8 ∧ 0x4FFFF8 < 0xD00000) ∧
    (Regs.find R.clkRefStatus).isSome = true := by decide

theorem witness_IntegerInstructions : Executes (coreS run0) i0 ∧ aluOps ≠ [] ∧ immOps ≠ [] ∧ shiftOps ≠ [] ∧
    (63#12).toNat < 64 := ⟨executes0, by simp [aluOps], by simp [immOps], by simp [shiftOps], by decide⟩

/-- A core whose g1 is 1. -/
def core1 : Core := { run0 with g := [(1, 1)] }

theorem witness_CountInstructions : Executes (coreS core1) i0 ∧ ((coreS core1).coreAt 0).rg 1 ≠ 0 ∧
    ((coreS core1).coreAt 0).rg 2 = 0 := ⟨⟨⟨rfl, by decide, rfl⟩, by decide⟩, by decide, by decide⟩

theorem witness_PredicateInstructions : Executes (coreS run0) i0 ∧ (7#4).toNat < 8 := ⟨executes0, by decide⟩

/-- A core whose g1 is a value. -/
def coreG (v : Word) : Core := { run0 with g := [(1, v)] }

theorem executesG (v : Word) : Executes (coreS (coreG v)) i0 :=
  ⟨⟨rfl, (by decide : run0.ctl.eligible run0.cond = none), rfl⟩, (by decide : run0.pr 0 ≠ false)⟩

theorem witness_LoadsAndStores : Executes (coreS (coreG 0x17FFF8)) i0 ∧
    (let a := (((coreS (coreG 0x17FFF8)).coreAt 0).rg 1 + (0#12).signExtend 64).toNat
     a < 0x180000 ∧ a % 8 = 0 ∧ wordsMeet a 8 (((coreS (coreG 0x17FFF8)).coreAt 0).otherDests 7) = false ∧
      ∀ w ∈ partWords a 8, w ∉ ((coreS (coreG 0x17FFF8)).coreAt 0).inWords) :=
  ⟨executesG _, by decide⟩

theorem witness_ScratchAccessFaults :
    (∀ v, Executes (coreS (coreG v)) i0) ∧
    (let a := fun v => (((coreS (coreG v)).coreAt 0).rg 1 + (0#12).signExtend 64).toNat
     (a 0x17FFF8 < 0x180000 ∧ a 0x17FFF8 % 8 = 0) ∧ (0x180000 ≤ a 0x180000 ∧ 0x180000 ≤ a 0x180001) ∧
     (a 0x17FFFF < 0x180000 ∧ a 0x17FFFF % 8 ≠ 0)) := ⟨executesG, by decide⟩

theorem witness_FetchFaults :
    (let s := coreS { coreG 0x20000 with ctl := { run0.ctl with pc := 0x1FFFC } }
     Executes s i0 ∧ (let a := ((s.coreAt 0).ctl.pc.setWidth 64 : Word) + 4 * (1#22).signExtend 64; 0x20000 ≤ a.toNat)) ∧
    (let s := coreS (coreG 0x20000)
     Executes s i0 ∧ 0x20000 ≤ ((s.coreAt 0).rg 1 + (0#12).signExtend 64).toNat ∧
      ((s.coreAt 0).rg 1 + (2#12).signExtend 64).toNat % 4 ≠ 0 ∧ (s.coreAt 0).rg 1 ≠ 1 ∧
      (((s.coreAt 0).ctl.pc.setWidth 64 : Word) + 4 * (-1#17).signExtend 64).toInt < 0 ∧
      ∀ f ∈ (s.coreAt 0).ctl.frames, f.kind = false) :=
  ⟨⟨⟨⟨rfl, by decide, rfl⟩, by decide⟩, by decide⟩, executesG _, by decide⟩

theorem witness_ControlTransfers :
    (let s := coreS { coreG 1 with ctl := { run0.ctl with pc := 0x1FFF8 } }
     Executes s i0 ∧ (let a := ((s.coreAt 0).ctl.pc.setWidth 64 : Word) + 4 * (1#22).signExtend 64; a = 0x1FFFC) ∧
      (s.coreAt 0).rg 1 = 1) ∧
    (let s := coreS (coreG 0x1FFFC)
     Executes s i0 ∧ ((s.coreAt 0).rg 1 + (0#12).signExtend 64).toNat < 0x20000 ∧
      ((s.coreAt 0).rg 1 + (0#12).signExtend 64).toNat % 4 = 0 ∧ (s.coreAt 0).rg 1 ≠ 1) :=
  ⟨⟨⟨⟨rfl, by decide, rfl⟩, by decide⟩, by decide⟩, executesG _, by decide⟩

/-- A core whose oryx queue is full. -/
def coreFull : Core :=
  { run0 with eng := [(1, { Engine.reset 1 with queue := List.replicate 64 (.token 0 0) })] }

theorem witness_QueueInstructions :
    (Executes (coreS run0) i0 ∧ (6 : BitVec 3) ≠ 7 ∧ (28 : Reg).toNat % 4 = 0 ∧ 4 ≤ (4 : Reg).toNat ∧
      ((coreS run0).coreAt 0).queueFull 1 = false) ∧
    (Executes (coreS coreFull) i0 ∧ ((coreS coreFull).coreAt 0).queueFull 1 = true) ∧
    (let c := run0
     ((c.cntr 0 - 0).toNat < 2 ^ 31 ∧ ¬ (c.cntr 0 - 1).toNat < 2 ^ 31 ∧ (c.cntIrqOf 0).getLsbD 32 = false)) ∧
    (let c : Core := { run0 with rs := .stalled, stall := some (.queue 1 (.token 0 0)) }
     c.rs = .stalled ∧ c.stall = some (.queue 1 (.token 0 0)) ∧ c.queueFull 1 = false) ∧
    (let c : Core := { run0 with rs := .stalled, stall := some (.wait 0 0) }
     c.stall = some (.wait 0 0) ∧ (c.cntr 0 - 0).toNat < 2 ^ 31) ∧
    (let c : Core := { run0 with rs := .stalled, stall := some (.rcv 4 1), mail := [⟨⟨0, 0, 0, 0⟩, 0⟩] }
     c.stall = some (.rcv 4 1) ∧ c.mail = ⟨⟨0, 0, 0, 0⟩, 0⟩ :: []) :=
  ⟨⟨executes0, by decide⟩, ⟨⟨⟨rfl, by decide, rfl⟩, by decide⟩, by decide⟩, by decide⟩

theorem witness_ShortMessages :
    (Executes (coreS run0) i0 ∧ (28 : Reg).toNat % 4 = 0 ∧ 4 ≤ (4 : Reg).toNat ∧ ((coreS run0).coreAt 0).queueFull 6 = false ∧
      ((coreS run0).coreAt 0).mail = []) ∧
    (let s := coreS { run0 with mail := [⟨⟨0, 0, 0, 0⟩, 0⟩] }
     Executes s i0 ∧ (s.coreAt 0).mail = ⟨⟨0, 0, 0, 0⟩, 0⟩ :: []) :=
  ⟨⟨executes0, by decide⟩, ⟨⟨rfl, by decide, rfl⟩, by decide⟩, by decide⟩

theorem witness_CsrInstructions : (∀ v, Executes (coreS (coreG v)) i0) ∧ csrExists 0x000 = true ∧ csrExists 0x041 = true ∧
    csrWritable 0x000 false = false ∧ (∃ p ∈ csrRows, p.num = 0x041 ∧ (((coreS (coreG 0x3F)).coreAt 0).rg 1) &&& ~~~ p.bits = 0 ∧
      (((coreS (coreG 0x40)).coreAt 0).rg 1) &&& ~~~ p.bits ≠ 0) :=
  ⟨executesG, by decide, by decide, by decide, ⟨0x041, 0x3F#64, false, fun c v => { c with mboxHwm := v.toNat % 64 }⟩,
    by simp [csrRows], by decide⟩

/-- A core in the handler of an exception. -/
def coreIn : Core := { run0 with ctl := { run0.ctl with frames := [⟨0, true, 0, 0, 4⟩] } }

/-- The same core, with source 30 pending at the running level. -/
def coreNext : Core := { coreIn with ctl := { coreIn.ctl with level := [(30, 1)], pend := srcBit 30, run := 1 } }

theorem witness_SystemInstructions :
    (Executes (coreS run0) i0 ∧ run0.enginesIdle = true ∧ run0.ctl.clkStopped = false ∧
      ∀ f ∈ run0.ctl.frames, f.kind = false) ∧
    (coreFull.enginesIdle = false) ∧
    (Executes (coreS coreIn) i0 ∧ ((coreS coreIn).coreAt 0).ctl.frames = [] ++ [⟨0, true, 0, 0, 4⟩] ∧
      ({ coreIn.ctl with turn := .none } : IntCtl).eligibleAt coreIn.cond 0 = none) ∧
    (Executes (coreS coreNext) i0 ∧ ((coreS coreNext).coreAt 0).ctl.frames = [] ++ [⟨0, true, 0, 0, 4⟩] ∧
      ({ coreNext.ctl with turn := .none } : IntCtl).eligibleAt coreNext.cond 0 = some 30) :=
  ⟨⟨executes0, by decide⟩, by decide, ⟨⟨⟨rfl, by decide, rfl⟩, by decide⟩, by decide⟩, ⟨⟨rfl, by decide, rfl⟩, by decide⟩, by decide⟩

theorem witness_PredicateFalseOrIllegal :
    (Reaches (coreS run0) { i0 with pn := true } ∧
      ((coreS run0).coreAt 0).pr i0.pr = true ∧ (Instr.relayForward).issueOf = none ∧
      (Instr.syncI { i0 with pn := true } 0 0 0).issueOf = some { i0 with pn := true }) ∧
    (Executes (coreS run0) i0 ∧ 64 ≤ (64#12).toNat ∧ 8 ≤ (8#4).toNat ∧ csrExists 0xFFF = false ∧ run0.ctl.frames = []) ∧
    ((Instr.ebrk i0 31 31 31).word.isSome = true ∧ (Instr.ldB i0 31 31 0xFFF .uncorrectable).word.isSome = true ∧ i0.parity = false) ∧
    (∀ w ∈ [0x17 * 2 ^ 22, 0x2E * 2 ^ 22, 0x3F * 2 ^ 22, 0x13, 0x0F * 2 ^ 22 + 2, 0x2D * 2 ^ 22 + 6], decodeWord at0 w = none) ∧
    (∀ w ∈ [0x16 * 2 ^ 22, 0x18 * 2 ^ 22, 0x2C * 2 ^ 22, 0x12, 0x0F * 2 ^ 22 + 1, 0x2D * 2 ^ 22 + 5], (decodeWord at0 w).isSome = true) :=
  ⟨⟨⟨rfl, by decide, rfl⟩, by decide⟩, ⟨executes0, by decide⟩, by decide⟩

/-- A core controller with source 30 pending above the running level. -/
def ctl30 : IntCtl := { IntCtl.reset with level := [(30, 1)], pend := srcBit 30 }

theorem witness_EligibleSource : ctl30.eligibleAt 0 0 = some 30 := by decide

theorem witness_InterruptsAndTimers :
    (let s := coreS { run0 with ctl := ctl30 }
     (s.coreAt at0.key).ctl.clkStopped = false ∧ (s.coreAt at0.key).rs = .running ∧
      (s.coreAt at0.key).ctl.eligible (s.coreAt at0.key).cond = some 30 ∧ ctl30.turn = .none) ∧
    (let s := coreS { run0 with ctl := { ctl30 with turn := .exit ⟨0, true, 0, 0, 4⟩ 0 } }
     (s.coreAt at0.key).ctl.turn = .exit ⟨0, true, 0, 0, 4⟩ 0 ∧
      (s.coreAt at0.key).ctl.eligible (s.coreAt at0.key).cond = some 30) ∧
    (let s := State.reset.setDieIntc 0 ctl30
     (s.dieIntc 0).clkStopped = false ∧ (s.dieIntc 0).eligible (s.dieCond 0) = some 30) ∧
    (let s := State.reset.setStagIntc 0 ctl30
     (s.stagIntc 0).clkStopped = false ∧ (s.stagIntc 0).eligible s.stagCond = some 30) ∧
    (let s := coreS { run0 with rs := .sleeping, ctl := { ctl30 with clkStopped := true } }
     (s.coreAt at0.key).ctl.clkStopped = true ∧ (s.coreAt at0.key).ctl.wakes (s.coreAt at0.key).cond = true) ∧
    (let s := State.reset.setDieIntc 0 { ctl30 with clkStopped := true }
     (s.dieIntc 0).clkStopped = true ∧ (s.dieIntc 0).wakes (s.dieCond 0) = true) ∧
    (let s := State.reset.setStagIntc 0 { ctl30 with clkStopped := true }
     (s.stagIntc 0).clkStopped = true ∧ (s.stagIntc 0).wakes s.stagCond = true) ∧
    (let s := coreS { run0 with timerCmp := 0, sysCmp := 0 }
     let c := s.coreAt at0.key
     c.rs ≠ .fenced ∧ c.timerArmed = true ∧ c.ctl.clkStopped = false ∧ c.timerCmp.toNat ≤ c.cycle (s.envAt 0) ∧
      c.sysArmed = true ∧ c.sysCmp.toNat ≤ s.now ∧ c.rs.halted = false) ∧
    (let c := State.reset.coreAt at0.key
     c.rs ≠ .fenced ∧ c.pause = none ∧ c.rs.halted = true ∧ c.stopping = false ∧ c.ctl.frames = [] ∧ 0 ≤ c.ctl.frames.length ∧
      ¬ (bit (0x0FFFFFFFF#64) 32 = true) ∧ bit 0x100000000#64 32 = true ∧ (c.cntr 0 - (0x100000000#64).setWidth 32).toNat < 2 ^ 31) ∧
    (0x1FFFD#64 &&& ~~~ 0x1FFFD#64 = 0 ∧ 0x3FFFFFFFC#64 &&& ~~~ 0x3FFFFFFFC#64 = 0 ∧ bit 0x1FFFD#64 0 = true) ∧
    (let c := ({ Core.reset false with ctl := coreIn.ctl } : Core)
     c.rs.halted = true ∧ 1 ≤ c.ctl.frames.length ∧ c.ctl.frames = [] ++ [⟨0, true, 0, 0, 4⟩]) := by decide

/-! Engines (R80 to R126). -/

/-- A running core with an engine in a given condition. -/
def coreE (n : Nat) (f : Engine → Engine) : Core := { run0 with eng := [(n, f (Engine.reset n))] }

/-- The first word of a command that increments counter 0. -/
def opWord (op : Nat) : Word := BitVec.ofNat 64 (op * 2 ^ 58)

/-- A command of one unit with nothing to write. -/
def running1 (f : Option EngFault) : Running := ⟨⟨0, 0, 0, 0⟩, 0, [⟨[], 1, 1, true⟩], 0, [], [], f, false, [], none⟩

theorem witness_EngineCommonCommands :
    (let c := coreE 1 fun e => { e with queue := [.cmd ⟨opWord 0x00, 0, 0, 0⟩] }
     let e := (coreS c).coreAt at0.key |>.engine 1
     e.stop = false ∧ c.pause = none ∧ e.run = none ∧ e.active = [] ∧ c.rs ≠ .fenced ∧ bit (c.cntIrqOf 0) 32 = false ∧
      e.queue = .cmd ⟨BitVec.ofNat 64 (0x00 * 2 ^ 58 + 0 * 2 ^ 54), 0, 0, 0⟩ :: []) ∧
    (let e := (coreE 1 fun e => { e with queue := [.cmd ⟨opWord 0x3D, 0x17FFC0, 0, 0⟩] }).engine 1
     0x17FFC0 % 64 = 0 ∧ 0x17FFC0 + 64 ≤ 0x180000 ∧
      e.queue = .cmd ⟨BitVec.ofNat 64 (0x3D * 2 ^ 58 + 0 * 2 ^ 54), BitVec.ofNat 64 0x17FFC0, 0, 0⟩ :: []) ∧
    (let e := (coreE 4 fun e => { e with queue := [.cmd ⟨opWord 0x3E, 0, 0, 0⟩] }).engine 4
     e.queue = .cmd ⟨BitVec.ofNat 64 (0x3E * 2 ^ 58 + 0 * 2 ^ 54), (0#32).setWidth 64, 0, 0⟩ :: []) ∧
    (let c := coreE 6 fun e => { e with queue := [.token 0 0] }
     (c.engine 6).queue = .token 0 0 :: [] ∧ (c.cntr 0 - 0).toNat < 2 ^ 31) ∧
    (let e := (coreE 1 fun e => { e with run := some (running1 none) }).engine 1
     e.run = some (running1 none) ∧ (running1 none).tainted = false ∧ (running1 none).shared = [] ∧ e.held = false ∧ (running1 none).fault = none) ∧
    ((running1 (some ⟨2, some 0, some 0⟩)).fault = some ⟨2, some 0, some 0⟩) ∧
    (let e := (coreE 1 fun e => { e with run := some (running1 none), stop := true }).engine 1
     e.stop = true ∧ (running1 none).units[1 - 1]? = some ⟨[], 1, 1, true⟩) := by decide

/-- A command that each engine row accepts: one row of one element, or one tile. -/
def goodQ (p : EngineCmd) : Quad :=
  let w := opWord p.op
  if p.eng = 0 then ⟨w, 0, BitVec.ofNat 64 (1 + 2 ^ 10 + 2 ^ 20 + 4 * 2 ^ 32 + 4 * 2 ^ 47), 4⟩
  else if p.eng = 3 then ⟨w ||| BitVec.ofNat 64 (if p.op = 4 then 2 ^ 33 else 2 * 2 ^ 50), 0, BitVec.ofNat 64 (1 + 2 ^ 24), 0⟩
  else if p.eng = 4 ∧ p.op = 5 then ⟨w ||| BitVec.ofNat 64 (5 * 2 ^ 46), 0, BitVec.ofNat 64 (32 + 2 ^ 20), 0⟩
  else if p.eng = 5 then ⟨w ||| BitVec.ofNat 64 (if p.op = 1 then 2 ^ 50 else 0), 0, BitVec.ofNat 64 (8 + 64 * 2 ^ 21), 0⟩
  else ⟨w, 0, BitVec.ofNat 64 (1 + 2 ^ 20), 0⟩

/-- A command with every reserved bit set. -/
def badQ (p : EngineCmd) : Quad := ⟨opWord p.op ||| mask 0 54, mask 0 64, mask 0 64, mask 0 64⟩

/-- The core that is about to start a command; gazelle's slot 0 holds a table. -/
def coreQ (n : Nat) (q : Quad) : Core := coreE n fun e => { e with queue := [.cmd q], tables := [(0, [0])] }

theorem witness_EngineStarts :
    (∀ p ∈ engineCmds, (goodQ p).op = p.op ∧ ((p.check (goodQ p)).fault [(0, [0])]) = none ∧ (badQ p).op = p.op ∧
      ((p.check (badQ p)).fault [(0, [0])]).isSome = true) ∧
    (∀ p ∈ engineCmds, let c := coreQ p.eng (goodQ p)
      (c.engine p.eng).run = none ∧ (c.engine p.eng).stop = false ∧ c.pause = none ∧ c.rs ≠ .fenced ∧
        (c.engine p.eng).queue = .cmd (goodQ p) :: [] ∧ (c.engine p.eng).tables = [(0, [0])]) ∧
    (∀ n < 7, ∀ m < 7, m ≠ n → ((coreQ n ⟨0, 0, 0, 0⟩).engine m).run = none ∧ ((coreQ n ⟨0, 0, 0, 0⟩).engine m).active = []) := by decide

/-- A table in scratch, and the command that loads it. -/
def tableQ : Quad := ⟨opWord 5, 0, 0, 0⟩

theorem witness_EngineStarts_tload : ((coreQ 2 tableQ).engine 2).queue = .cmd tableQ :: [] ∧ tableQ.op = 0x05 ∧
    (tloadCheck tableQ).fault [] = none ∧ gazAccepts (Mem.bytes [(0, 1)] (fld tableQ.w1 0 21) 1088) = true := by
  refine ⟨by decide, by decide, by decide, ?_⟩
  decide +kernel

theorem witness_SaigaRoundTrip : (∀ mode ∈ [1, 2, 3], ([] : List Byte).length % packUnit mode = 0) ∧
    (∀ mode ∈ [1, 2, 3], (List.replicate 128 (7#8)).length % packUnit mode = 0) := by simp [packUnit]

theorem witness_EngineResults :
    (let c := ElCmd.of ⟨0, 0, BitVec.ofNat 64 (3 + 2 ^ 20), 0⟩
     c.rows = 1 ∧ 2 < c.n ∧ meets c.a c.n 64 c.n = false ∧ c.esz = 1) ∧
    (let c := ImpCmd.of ⟨0, 0, BitVec.ofNat 64 (1 + 2 ^ 24), 0⟩
     c.index [] 0 < c.limit) ∧
    (OryxCmd.of ⟨BitVec.ofNat 64 (13 * 2 ^ 50 + 13 * 2 ^ 46), 0, 0, 0⟩).map (·.fmt) = some .int32 ∧
    (KuduCmd.of ⟨BitVec.ofNat 64 (11 * 2 ^ 50 + 11 * 2 ^ 46 + 3 * 2 ^ 44), 0, 0, 0⟩).map (fun c => (c.fc, c.acc)) = some (3, false) := by
  decide

/-- A springbok command that each kind accepts: 64 B at herd or memory address 0. -/
def goodSb (op : Nat) : Quad :=
  if op = 5 then ⟨opWord op, 0, 0, 0⟩
  else if op = 1 ∨ op = 2 ∨ op = 3 then ⟨opWord op, BitVec.ofNat 64 (2 ^ 21), 64, BitVec.ofNat 64 (if op = 3 then 1024 * 2 ^ 28 else 0)⟩
  else ⟨opWord op, 0, 4, 1024⟩

theorem witness_SpringbokStarts :
    (∀ p ∈ ([(.get, 1), (.put, 2), (.cput, 3), (.gather, 4), (.atom, 5), (.pload, 6), (.coll, 7)] : List (SbKind × Nat)),
      let q := goodSb p.2
      let c := coreQ 6 q
      let d := c.setEngine 6 { c.engine 6 with queue := [] }
      q.op = p.2 ∧ (c.engine 6).run = none ∧ (c.engine 6).stop = false ∧ (c.engine 6).active = [] ∧ c.pause = none ∧ c.rs ≠ .fenced ∧
        (c.engine 6).queue = .cmd q :: [] ∧ (sbCheck p.1 d 0 q).fault [] = none ∧
        ((sbCheck p.1 d 0 { q with w0 := q.w0 ||| mask 21 17 }).fault []).isSome = true) ∧
    ((coreE 6 fun e => { e with queue := [.msg 0 true 0 ⟨0, 0, 0, 0⟩] }).engine 6).queue = .msg 0 true 0 ⟨0, 0, 0, 0⟩ :: [] ∧
    fld 0 28 36 = 0 := by decide

/-- A started entry of springbok with one piece left. -/
def sbOne (kind : SbKind) (herd : Bool) : SbActive :=
  { id := 0, kind := kind, cmd := ⟨0, 0, 0, 0⟩, payload := ⟨0, 0, 0, 0⟩, cnt := 0, ce := true, started := false
    todo := [⟨0, 0, 64, herd⟩], out := 1, bytes := 0, err := 0, faulted := none, stream := [], efault := none, errAddr := 0
    got := [], void := false, reads := [], dests := [], tainted := false }

/-- A core with that entry, and slot 15 in use by it. -/
def coreSb (kind : SbKind) (herd : Bool) (pkt : Option Pkt) : Core :=
  coreE 6 fun e => { e with
    active := [sbOne kind herd]
    slots := [(15, some ⟨0, ⟨0, 0, 64, herd⟩, 0, 0, 0, true, none, pkt⟩)] }

theorem witness_SpringbokRequests :
    (∀ kind ∈ [SbKind.get, .put], let s := { coreS (coreSb kind true none) with regs := [(R.fabHerd 0, 0x8000)] }
      let c := s.coreAt at0.key
      c.rs ≠ .fenced ∧ (c.engine 6).stop = false ∧ c.pause = none ∧ (c.engine 6).freeSlot = some 0 ∧
        s.mmu.walks.any (fun w => decide (w.core = 0) && decide (w.kind = 0)) = false ∧
        c.sbNext = some (sbOne kind true) ∧ s.herdDev 0 = some s.devIndex ∧ 0 < s.capacity) ∧
    (∀ kind ∈ [SbKind.get, .put],
      let s := { coreS (coreSb kind false none) with mmu := { MmuState.reset with utlb := [(0, [⟨0, 0, 4096, 0, 0, false, true⟩])] } }
      let c := s.coreAt at0.key
      c.sbNext = some (sbOne kind false) ∧ (s.utlb 0).any (fun u => u.covers 0 0) = true ∧
        s.translate 0 (fld c.job 0 6) 0 (decide (kind = .put)) = .hit ⟨0, 0, 4096, 0, 0, false, true⟩) ∧
    (let t := 4 * (State.reset.rfld R.fabXportCtl 0 16 * 1000000)
     let s := { coreS (coreSb .msg false (some (pkt0 4))) with time := { State.reset.time with systime := t } }
     let e := (s.coreAt at0.key).engine 6
     4 ≤ s.rfld R.fabXportCtl 0 16 ∧ e.slot 15 = some ⟨0, ⟨0, 0, 64, false⟩, 0, 0, 0, true, none, some (pkt0 4)⟩ ∧
      sbOne .msg false ∈ e.active ∧ e.active.find? (fun r => decide (r.id = 0)) = some (sbOne .msg false) ∧
      4 * (s.rfld R.fabXportCtl 0 16 * 1000000) ≤ s.now - 0) := by decide

/-! Memory, the mesh and translation (R175 to R244, R307). -/

theorem witness_MemoryCommands :
    (let s := State.reset
     let p := { pkt0 1 with aux := 255, addr := s.capacity - 256 }
     p.host = false ∧ s.channelHeld p.addr = false ∧ s.inRange p.addr 256 = true ∧ s.stackOut p.addr = false ∧ p.type = 1 ∧
      256 = p.aux % 256 + 1) ∧
    (∀ l, State.reset.lineBad l = false) ∧
    (let p := { pkt0 1 with aux := 7 }
     State.reset.inRange p.addr 8 = true ∧ 8 = p.aux % 256 + 1 ∧ p.addr / 64 = (p.addr + 8 - 1) / 64) ∧
    (let p := { pkt0 2 with aux := 63, data := List.replicate 64 7 }
     State.reset.inRange p.addr 64 = true ∧ p.type = 2 ∧ 64 = p.aux % 256 + 1 ∧ p.data.length = 64 ∧ p.poison = [] ∧
      p.addr % 64 = 0 ∧ 64 % 64 = 0) ∧
    (∀ op ∈ [0, 2, 3, 4, 5], let p := { pkt0 3 with aux := 8 + op, data := List.replicate 16 0 }
     p.type = 3 ∧ 8 = (if p.aux.testBit 3 then 8 else 4) ∧ p.aux % 8 = op) ∧
    (let s := { State.reset with mem := { State.reset.mem with repairing := [(11, 15, 3)] } }
     s.mem.repairing = [(11, 15, 3)] ∧ s.mem.held = []) :=
  ⟨by decide +kernel, fun _ => rfl, by decide +kernel, by decide +kernel, by decide, by decide⟩

/-- A core whose slot 15, of generation 0, holds a request of a started entry. -/
def coreR (r : SbActive) (pkt : Option Pkt) : Core :=
  coreE 6 fun e => { e with
    active := [r]
    slots := [(15, some ⟨0, ⟨0, 0, 64, false⟩, 0, 0, 0, false, none, pkt⟩)] }

/-- A packet that the mesh of die 0 carries to a place, and that has come there. -/
def meshS (c : Core) (p : Pkt) (exit : Nat) : State :=
  { coreS c with mesh := { MeshState.reset with nextId := 1, flying := [⟨0, 17, 0, exit, 0, 0, p, true⟩] } }

theorem witness_MeshReplies_arrives : ∀ type ∈ [4, 5, 7, 9, 0xA, 0xB, 0xE], let s := coreS (coreR (sbOne .get false) none)
    let p := { pkt0 type with tag := 15, mc := 1, aux := 1 }
    Arrives s s p 0 ∧ Arrives (meshS (coreR (sbOne .get false) none) p 4) { s with mesh := { s.mesh with nextId := 1 } } p 0 := by
  intro type h
  simp only [List.mem_cons, List.not_mem_nil, or_false] at h
  rcases h with rfl | rfl | rfl | rfl | rfl | rfl | rfl <;> exact ⟨⟨rfl, rfl, rfl, rfl, rfl, rfl⟩, rfl, rfl, rfl, rfl, rfl, rfl⟩

theorem witness_MeshReplies :
    (let c := coreR (sbOne .get false) (some (pkt0 8))
     c.rs ≠ .fenced ∧ c.sbReplySlot 15 = some (15, ⟨0, ⟨0, 0, 64, false⟩, 0, 0, 0, false, none, some (pkt0 8)⟩) ∧
      (c.engine 6).active.find? (fun r => decide (r.id = 0)) = some (sbOne .get false) ∧
      (∀ x ∈ (c.engine 6).active, x.id = 0 → x = sbOne .get false) ∧ (sbOne .get false).kind = .get ∧
      (sbOne .get false).cmd.z = false ∧ (sbOne .get false).tainted = false ∧ (sbOne .get false).shared = [] ∧ (pkt0 4).poison = [] ∧
      (pkt0 8).dstDev = (coreS c).devIndex) ∧
    (let r := { sbOne .atom false with cmd := ⟨0, 0, 8, 0⟩ }
     ((coreR r none).engine 6).active.find? (fun r => decide (r.id = 0)) = some r ∧ r.kind = .atom ∧ r.tainted = false ∧
      bit r.cmd.w2 3 = true) ∧
    ((coreR (sbOne .coll false) none).engine 6).active.find?
      (fun r => decide (r.kind = .coll) && decide (fld r.cmd.w0 38 6 = 0)) = some (sbOne .coll false) ∧
    ((pkt0 0x12).type = 0x12 ∧ (pkt0 0x12).dstDie < 8) := by decide

/-- A packet that is on no mesh is taken. -/
theorem test_meshTake_reset (p : Pkt) (f : MeshPkt → Bool) : State.reset.meshTake p f = some State.reset := rfl

theorem witness_MeshRequests_arrives :
    (∀ type ∈ [6, 8, 0xF, 0x10, 0x11], Arrives (coreS run0) (coreS run0) (pkt0 type) 0) ∧
    ∀ p f, ({ coreS run0 with routers := [(0, { entries := [(0, some ⟨1, 5, 6⟩)], slots := [] })] } : State).meshTake p f =
      some { coreS run0 with routers := [(0, { entries := [(0, some ⟨1, 5, 6⟩)], slots := [] })] } := by
  refine ⟨fun type h => ?_, fun _ _ => rfl⟩
  simp only [List.mem_cons, List.not_mem_nil, or_false] at h
  rcases h with rfl | rfl | rfl | rfl | rfl <;> exact ⟨rfl, rfl, rfl, rfl, rfl, rfl⟩

theorem witness_MeshRequests : (pkt0 6).packed = none ∧
    ({ pkt0 6 with packed := some (63, 1, false) } : Pkt).packed = some (63, 1, false) ∧ run0.rs ≠ .fenced ∧ run0.stopping = false ∧
    (let p := { pkt0 6 with addr := 0x17FFFE, data := [1, 2] }
     p.addr + p.data.length ≤ 0x180000 ∧ p.poison = [] ∧ p.inc = none) ∧ ({ pkt0 6 with inc := some 15 } : Pkt).inc = some 15 ∧
    run0.mail.length < 32 ∧ 32 ≤ ({ run0 with mail := List.replicate 32 ⟨⟨0, 0, 0, 0⟩, 0⟩ } : Core).mail.length ∧
    (let p := { pkt0 0x11 with addr := 0x1FFFC, data := [1, 2, 3, 4] }
     p.addr + p.data.length ≤ 0x20000) ∧ (run0.csrRead ((coreS run0).envAt 0) (0x004 % 4096)).isSome = true ∧
    (let s := { coreS run0 with routers := [(0, { entries := [(0, some ⟨1, 5, 6⟩)], slots := [] })] }
     let p := { pkt0 0x0C with red := 1, data := [0, 0, 0, 0] }
     s.dieUp 0 = true ∧ p.hdr = .ok ∧ p.fixed = 0 ∧ p.poison = [] ∧ p.type = 0x0C ∧
      p.meshValid = true ∧ (s.coreAt 0).rs ≠ .fenced ∧ (s.coreAt 0).stopping = false ∧
      SMap.get (fun _ => none) (s.routerAt 0).entries p.ctx = some ⟨1, 5, 6⟩ ∧ p.red = 1 ∧ p.aux = 0 ∧ Nat.testBit 6 1 = true ∧
      (s.routerAt 0).slots = [] ∧ 6 ≠ 2 ^ 1) ∧
    (let sl : RedSlot := ⟨0, 0, [0, 0, 0, 0], 4, false, []⟩
     sl.void = false ∧ sl.poison = [] ∧ sl.sum.length = 4 ∧ sl.sum ≠ [] ∧ sl.seen.testBit 1 = false ∧ sl.seen + 2 ^ 1 = 6) ∧
    (let s := State.reset
     let p : Pkt := { pkt0 0x0D with mc := 1, mcLast := 17, dstCol := 16 }
     s.dieUp 0 = true ∧ p.hdr = .ok ∧ p.fixed = 0 ∧ p.type = 0x0D ∧ p.meshValid = true ∧
      s.mcCredit 16 (mcDir p 0 16) p = true ∧ (16 = (s.spares 0 0).1 ∨ 16 = (s.spares 0 0).2) ∧
      ¬ (p.mc = 0 ∨ (if p.mc = 1 then (16 : Nat) else 0) = p.mcLast)) ∧
    (let p := { pkt0 0x0D with mc := 0 }
     p.meshValid = true ∧ p.mc = 0) := by decide

/-- A walk of core 0 at a level, its table at address 0. -/
def walk0 (level : Nat) : Walk := ⟨0, 0, 0, 0, 0, level, 0, 0⟩

/-- The reset state with that walk, and an entry in the table. -/
def walkS (level : Nat) (e : List Byte) : State :=
  { coreS (coreSb .get false none) with
    mem := { State.reset.mem with bytes := Mem.write [] 0 e }
    mmu := { MmuState.reset with walks := [walk0 level] } }

theorem witness_TranslationCommands :
    (∀ s ∈ [walkS 0 [1], walkS 3 [3], walkS 0 []],
      (∃ w, s.mmu.walks = [w] ∧ w.core = at0.key ∧ w.tgt = 0 ∧ w.kind = 0) ∧ s.inRange 0 8 = true ∧ s.stackOut 0 = false ∧
        s.channelHeld 0 = false ∧ s.lineBad 0 = false) ∧
    (let e := BitVec.ofNat 64 (Mem.nat (walkS 0 [1]).mem.bytes 0 8)
     bit e 0 = true ∧ entryOk e 0 = true ∧ bit e 1 = false) ∧
    (let e := BitVec.ofNat 64 (Mem.nat (walkS 3 [3]).mem.bytes 0 8)
     bit e 0 = true ∧ entryOk e 3 = true ∧ bit e 1 = true ∧ fld e 8 40 * 256 + walkSize 3 ≤ (walkS 3 [3]).capacity) ∧
    (let s := walkS 0 []
     bit (BitVec.ofNat 64 (Mem.nat s.mem.bytes 0 8)) 0 = false ∧ (s.coreAt 0).sbNext = some (sbOne .get false) ∧ s.fw.pausing = none) ∧
    (let f : MFault := ⟨7, 0, 0, 0, 0, 1, 0, 0⟩
     let c := coreE 6 fun e => { e with active := [{ sbOne .get false with faulted := some 7 }] }
     let s := { coreS c with
       regs := [(R.mmuFaultTimeout, 1)]
       mmu := { MmuState.reset with faults := [f] }
       time := { State.reset.time with systime := 1000000 } }
     s.mmu.faults.find? (fun x => decide (x.id = f.id)) = some f ∧ f.kind = 0 ∧ s.rfld R.mmuFaultTimeout 0 32 ≠ 0 ∧
      s.rfld R.mmuFaultTimeout 0 32 * 1000000 ≤ s.now - f.raised ∧
      ((s.coreAt f.core).engine 6).active.find? (fun x => decide (x.faulted = some f.id))
        = some { sbOne .get false with faulted := some 7 }) ∧
    (0xFFFFFFFF#64 &&& ~~~ 0xFFFFFFFF#64 = 0 ∧ State.reset.mmu.faults = []) ∧
    (let v := 0xA03FFFFFFFFF0000#64
     v &&& ~~~ 0xF03FFFFFFFFF0000#64 = 0 ∧ State.reset.mmu.invs.length < 16 ∧ (Inval.ofWord v 63).scope = 2) ∧
    (let i := Inval.ofWord 0x2000000000000000#64 0
     i.scope = 0 ∧ i.size ≠ 3 ∧ i.entry = none ∧
      ({ State.reset with mmu := { MmuState.reset with invs := [i] } } : State).invBusy i = false) := by
  refine ⟨?_, by decide, by decide, by decide, by decide, by decide, by decide, by decide⟩
  intro s hs
  simp only [List.mem_cons, List.not_mem_nil, or_false] at hs
  rcases hs with rfl | rfl | rfl <;> exact ⟨⟨_, rfl, rfl, rfl, rfl⟩, by decide +kernel⟩

/-! The Chomet base, saves and resumes, and the port links (R196 to R300). -/

/-- The reset state with what reader 0 holds for writer 1, and writer 0 for reader 1. -/
def chS (x : ChReader) (y : ChWriter) : State :=
  { State.reset with base := { BaseState.reset with rd := [(1, x)], wr := [(1, y)] } }

/-- A packet sent and not acknowledged at time 0, and a reader that served every window. -/
def sent0 : ChWriter := { ChWriter.reset with retry := [(0, 0, 0, 7, pkt0 1)] }
def fullRd : State := { State.reset with base := { BaseState.reset with
  rd := (List.range 8).map fun n => (n, { ChReader.reset with win := some n }) } }

theorem witness_ChometCommands_words :
    (∀ kind ∈ [1, 2, 3, 4, 5, 6, 7], let w := ctlWord kind 0
      fld w 0 8 = crc8 w ∧ fld w 60 4 = kind ∧ fld w 55 5 = 0 ∧ fld w 39 16 = 0 ∧ bit w 29 = false) ∧
    bit (ctlWord 1 (2 ^ 32)) 32 = true ∧ fld (ctlWord 1 (2 ^ 32)) 0 8 = crc8 (ctlWord 1 (2 ^ 32)) ∧
    fld (1 : Word) 0 8 ≠ crc8 1 := by decide +kernel

theorem witness_ChometCommands :
    ((State.reset.chR 0 1).win = none ∧ (State.reset.windows 0).length < 8 ∧ 0 ∉ State.reset.windows 0 ∧ State.reset.base.wait = [] ∧
      State.reset.waiting 0 = [] ∧ (State.reset.chR 0 1).maps = []) ∧
    ((fullRd.chR 0 27).win = none ∧ 8 ≤ (fullRd.windows 0).length ∧ 27 ∉ fullRd.waiting 0) ∧
    ((chS { ChReader.reset with win := some 7, maps := [(2, 0, 1, 1)] } ChWriter.reset).chR 0 1).win.isSome = true ∧
    (∀ m ∈ ((chS { ChReader.reset with maps := [(2, 0, 1, 1)] } ChWriter.reset).chR 0 1).maps, m.1 ≠ fld (ctlWord 1 0) 22 2) ∧
    ((chS { ChReader.reset with maps := [(0, 0, 1, 1)] } ChWriter.reset).chR 0 1).maps = [(fld (ctlWord 1 0) 22 2, 0, 1, 1)] := by
  decide +kernel

theorem witness_ChometCommands_bursts :
    (let s := { chS ChReader.reset { ChWriter.reset with reqAt := some 0 } with time := { State.reset.time with systime := 2000 } }
     (s.chW 0 1).reqAt = some 0 ∧ (s.chW 0 1).win = none ∧ 2000 ≤ s.now - 0) ∧
    (let s := { chS ChReader.reset { ChWriter.reset with win := some 0 } with time := { State.reset.time with systime := 64 } }
     (s.chW 0 1).win.isSome = true ∧ (s.chW 0 1).retry = [] ∧ 64 ≤ s.now - (s.chW 0 1).last) ∧
    ((chS ChReader.reset { ChWriter.reset with win := some 0, flagged := some 0 }).chW 0 1).flagged.isSome = true ∧
    (let s := State.reset
     s.stopUp 8 = true ∧ s.wgsUp 8 ≠ [] ∧ s.base.wait = [] ∧ (s.chW 8 0).win = none ∧ (s.chW 8 0).reqAt = none ∧
      s.readerOk (pkt0 1) 8 = true ∧ s.stopUp 0 = true ∧ s.wgsUp 0 ≠ []) ∧
    (∀ up : Bool, let s := { regS [(R.baseSeamStatus, if up then 1 else 0)] with
       base := { BaseState.reset with wr := [(28 * 8 + 4, { ChWriter.reset with win := some 0, credits := 1 })] } }
     (s.chW 8 4).win.isSome = true ∧ 1 ≤ (s.chW 8 4).credits ∧ s.wgsUp 8 ≠ [] ∧ s.bySeamLink 8 4 = !up) ∧
    (let s := { chS ChReader.reset sent0 with time := { State.reset.time with systime := 1000 } }
     (s.chW 0 1).retry.find? (fun e => decide (e.1 = 0)) = some (0, 0, 0, 7, pkt0 1) ∧ 7 < 8 ∧ s.wgsUp 0 ≠ [] ∧ 1000 ≤ s.now - 0 ∧
      s.bySeamLink 0 1 = false ∧ (s.chW 0 1).win = none ∧ (s.chW 0 1).reqAt = none) ∧
    (let s := chS ChReader.reset { sent0 with win := some 0, credits := 1 }
     (s.chW 0 1).win.isSome = true ∧ 1 ≤ (s.chW 0 1).credits) := by decide +kernel

theorem witness_ChometCommands_leaves : State.reset.leaveDie 0 (pkt0 1) = some State.reset := rfl

/-- A burst of two packets that reader 0 awaits from writer 1. -/
def burst0 : ChReader := { ChReader.reset with bursts := [⟨1, false, 2, [], 0⟩], expect := 65535 }

theorem witness_ChometCommands_packets :
    ((State.reset.chR 0 1).bursts = []) ∧
    (let s := chS burst0 ChWriter.reset
     (s.chR 0 1).bursts = ⟨1, false, 2, [], 0⟩ :: [] ∧ 65535 < 2 ^ 16 ∧ s.sramOwner = 0 ∧ (s.chR 0 1).held = [] ∧
      (s.chR 0 1).expect = 65535 ∧ 2 ^ 15 ≤ (32767 + 2 ^ 16 - (s.chR 0 1).expect) % 2 ^ 16 + 2 ^ 15 ∧
      2 ^ 15 ≤ (65534 + 2 ^ 16 - (s.chR 0 1).expect) % 2 ^ 16 ∧ s.goesIn (pkt0 1) = true ∧ s.goesIn { pkt0 1 with dstDev := 1 } = false ∧
      (pkt0 1).meshVn = 0 ∧ s.dieUp 0 = true ∧ SMap.get (fun _ => 0) s.base.slots 0 < 4096) ∧
    (let s := chS ChReader.reset sent0
     s.base.wait = [] ∧ s.base.casts = []) ∧
    (let s := { State.reset with base := { BaseState.reset with wr := [(1, sent0)], casts := [⟨0, [(1, 0)]⟩] } }
     s.base.casts = [⟨0, [(1, 0)]⟩] ∧ (fld (ctlWord 5 0) 39 16 + 2 ^ 16 - 0) % 2 ^ 16 < 2 ^ 15) := by decide +kernel

theorem witness_BaseLinkCommands :
    (let s := regS [(R.mgtStagStatus, 0), (R.baseSeamStatus, 1)]
     s.held = true ∧ bit (s.reg R.baseSeamStatus) 0 = true ∧
      2 ≤ ((rangeFrom 0 4).filter fun i => (3 : BitVec 4).getLsbD i).length) ∧
    (let s := { regS [(R.mgtStagStatus, 0), (R.baseSeamStatus, 0)] with time := { State.reset.time with systime := 1000000000 } }
     s.held = true ∧ bit (s.reg R.baseSeamStatus) 0 = false ∧ 0 + 1000000000 ≤ s.now ∧ 0 < wgCount 27) ∧
    (∀ dir ∈ [0, 1], (regS [(R.baseSeamStatus, 0)]).rfld R.baseSeamStatus (seamSpares dir) 5 < 16) ∧
    (∀ dir ∈ [0, 1], (regS [(R.baseSeamStatus, BitVec.ofNat 64 (16 * 2 ^ seamSpares dir))]).rfld R.baseSeamStatus (seamSpares dir) 5 = 16 ∧
      (regS [(R.baseSeamStatus, BitVec.ofNat 64 (16 * 2 ^ seamSpares dir))]).rfld R.baseSeamStatus (seamWidth dir) 2 = 0) ∧
    (let st := R.vliGroupStatus 319
     let s := regS [(st, 0)]
     bit (s.reg st) 4 = false ∧ s.rfld R.vliThresh 0 16 ≤ 65535 ∧ s.rfld st 12 3 < 4 ∧ 319 ∉ s.base.vliFailed ∧
      s.rfld R.vliThresh 32 16 ≤ 65535 ∧ 4 ≤ (regS [(st, 0x4000)]).rfld st 12 3 ∧ bit ((regS [(st, 0x4000)]).reg st) 4 = false) ∧
    (let s := { regS [(R.vliGroupStatus 280, 0), (R.vliGroupStatus 319, 3)] with base := { BaseState.reset with vliFailed := [280] } }
     let s := s.setDie 7 1
     280 ∈ s.base.vliFailed ∧ s.dieState 7 ≠ 0 ∧ s.rfld (R.vliGroupStatus 280) 0 2 ≠ 3 ∧ (s.groupsIn 7 3).head?.isSome = true) := by
  decide +kernel

/-- A submission entry of a ring 0 with some words. -/
def entry0 (w0 w2 w3 : Word) : SqEntry := ⟨0, 0, [w0, 0, w2, w3, 0, 0, 0, 0]⟩

/-- A save of one core of job 0 to address 0, and the page tables that hold its record: a 1 GiB page. -/
def save0 : Transfer := ⟨true, 0, 0, [⟨0, 1, false, []⟩], [], none, 1, 0, 0, 0⟩
def saveS : State :=
  { coreS { run0 with eng := (List.range 7).map fun n => (n, { Engine.reset n with stop := true, held := true }) } with
    regs := [(R.mmuJobRoot 0, 0x1001)]
    mem := { State.reset.mem with bytes := [(0x1000, 1), (0x1001, 0x20), (0x2000, 7)] }
    mmu := { MmuState.reset with xfers := [(0, some save0)] } }

theorem witness_PreemptAndResume :
    (let e := entry0 0x03 0 0
     let s := { coreS run0 with host := { State.reset.host with dieq := [(0, [e])] } }
     s.mmu.faults = [] ∧ s.fw.pausing = none ∧ s.xfer 0 = none ∧ s.dieQueue 0 = e :: [] ∧ e.op = 0x03 ∧ s.jobCores 0 e.job ≠ [] ∧
      (s.jobCores 0 e.job).all (fun k => (s.coreAt k).stopping) = false) ∧
    (saveS.xfer 0 = some save0 ∧ save0.save = true ∧ save0.status = none ∧ save0.cores = [⟨0, 1, false, []⟩] ∧
      (saveS.coreAt 0).rs ≠ .fenced ∧ (saveS.coreAt 0).enginesHeld = true ∧
      (let r := saveS.xferPages ⟨[], []⟩ save0 [0] 0 27
       r.2 = ⟨[(0, (List.range 27).map fun n => 65536 * n)], [], false⟩ ∧ (r.1.coreAt 0).rs ≠ .fenced ∧
        ((List.range 27).map fun n => 65536 * n).any r.1.pageOut = false)) ∧
    (let e := entry0 0x04 0x100 0
     let s := { coreS run0 with
       host := { State.reset.host with dieq := [(0, [e])] }
       mmu := { MmuState.reset with stopped := [(0, save0)] } }
     s.xfer 0 = none ∧ s.dieQueue 0 = e :: [] ∧ e.op = 0x04 ∧ bit (e.w 2) 8 = true ∧ s.mmu.stopped = [(0, save0)] ∧
      save0.job = e.job ∧ (s.coreAt 0).rs ≠ .fenced) ∧
    (let x := { save0 with save := false, status := some 0 }
     let s := { State.reset with mmu := { MmuState.reset with xfers := [(0, some x)] } }
     s.xfer 0 = some x ∧ x.save = false ∧ x.status = some 0 ∧ 0 ≠ 7 ∧ 0 ≠ 1) := by decide +kernel

/-- The reset state with a port's link in a state of R268. -/
def portS (st : Nat) (l : Link) : State :=
  { regS [(R.portLaneStatus 11, BitVec.ofNat 64 st)] with fab := { FabState.reset with links := [(11, l)] } }

/-- A flit: the head of a packet, or all of it. -/
def flit0 (ftype : Nat) : Flit := ⟨0, 0, 0, 2, ftype, 0, false, false, [], some (pkt0 1)⟩

theorem witness_PortLinkCommands_tail : (flit0 4).tail = true ∧ (flit0 4).head = true ∧ (flit0 4).stomp = false ∧
    (flit0 4).vc < 3 ∧ (flit0 4).pkt = some (pkt0 1) ∧ (pkt0 1).type ≠ 0x19 ∧ fabVn (pkt0 1).type ≠ 2 := by decide

theorem witness_PortLinkCommands :
    (let s := portS 1 Link.reset
     s.portState 11 = 1 ∧ s.portDark 11 = false ∧ 16 ≤ ((rangeFrom 0 18).filter fun w => (0xFFFF : BitVec 18).getLsbD w).length ∧
      s.topoValid = false) ∧
    (let s := portS 2 Link.reset
     s.portState 11 = 2 ∧ s.cabledRight 11 511 11 = true ∧ s.topoValid = false ∧ 511 < 2 ^ 9 ∧ 11 < 12) ∧
    (∀ st ∈ [3, 4], let s := portS st Link.reset
     s.portUp 11 = true ∧ (s.link 11).rxBad = 0 ∧ (flit0 1).seq = (s.link 11).rxSeq ∧ (flit0 1).seq < 4096 ∧ (flit0 1).tail = false ∧
      (s.link 11).nakSent = false ∧ (s.link 11).replay = []) ∧
    (let s := portS 3 { Link.reset with nakSent := true, rxBad := 1 }
     s.portUp 11 = true ∧ (s.link 11).nakSent = true ∧ (s.link 11).rxBad = 0 + 1) ∧
    (let s := portS 3 Link.reset
     s.portState 11 = 3 ∧ 4095 < 4096 ∧ (s.link 11).nakSeq ≠ 4095) ∧
    (let s := regS [(R.portLaneStatus 11, 3), (R.fabStopDir, 0xFFF)]
     s.portState 11 = 3 ∧ s.portDir 11 = none ∧ s.topoValid = false ∧ (s.link 11).replay = []) ∧
    (let s := { portS 3 { Link.reset with replay := [(0, flit0 4)] } with time := { State.reset.time with systime := 2000 } }
     (s.link 11).replay = [(0, flit0 4)] ∧ (s.link 11).oldest = some (0, flit0 4) ∧ s.portState 11 = 3 ∧ 2000 ≤ s.now - 0) ∧
    (let s := { portS 4 { Link.reset with replayAt := some 0 } with time := { State.reset.time with systime := 20000 } }
     (s.link 11).replayAt = some 0 ∧ s.portState 11 = 4 ∧ 20000 ≤ s.now - 0) ∧
    (let s := { portS 5 { Link.reset with retrainAt := some 0 } with time := { State.reset.time with systime := 1500000 } }
     s.portState 11 = 5 ∧ (s.link 11).replay = [] ∧ (s.link 11).owe = [] ∧ (s.link 11).retrainAt = some 0 ∧ 1500000 ≤ s.now - 0 ∧ 10000 ≤ s.now - 0) ∧
    (∀ st ∈ [0, 1], let s := regS [(R.portLaneStatus 11, BitVec.ofNat 64 st), (R.optSrcStatus 31, 0x3F00), (R.optSrcStatus 43, 0x3F00)]
     s.portState 11 = st ∧ s.portSource 11 = none ∧ s.topoValid = false) := by decide +kernel

/-! The fabric, contexts and the transport (R261 to R327). -/

/-- A ring of 4 devices, of which this is 0: only port 0 toward +X is up. -/
def fabS : State := regS [(R.fabStatus, 1), (R.fabTopo, 0x01040000), (R.fabRouteCtl, 1), (R.portLaneStatus 0, 3)]

/-- A flood about device 511 of origin 2^16 - 1. -/
def flood0 (type : Nat) : Pkt := { pkt0 type with data := natToBytes 2 511 ++ natToBytes 2 65535 ++ natToBytes 4 0 }

theorem witness_FabricRouting :
    (let p := pkt0 1
     fabS.topoValid = true ∧ fabS.fab.queue = [] ∧ p.epoch = fabS.epoch ∧ p.dstDev = fabS.devIndex ∧ p.relay = false) ∧
    (let s := { fabS with regs := (R.fabFence 0, 2) :: fabS.regs }
     s.topoValid = true ∧ (1 : Nat) ≠ s.devIndex ∧ s.devFenced 1 = true ∧ (pkt0 1).srcDev = s.devIndex) ∧
    (let p := { pkt0 1 with dstDev := 1 }
     p.dstDev ≠ fabS.devIndex ∧ fabS.devFenced p.dstDev = false ∧ bit (fabS.reg R.fabRouteCtl) 0 = true ∧ fabOrdered p = false ∧
      fabS.minimalTo p.dstDev = [0] ∧ fabS.devFenced (fabS.nextDev 0) = false ∧ fabS.upPorts 0 = [0] ∧ fabS.canSend 0 p 0 = true) ∧
    (let s := { fabS with fab := { FabState.reset with relayBuf := [pkt0 1] } }
     s.topoValid = true ∧ s.fab.relayBuf = [pkt0 1] ∧ (pkt0 1).dstDev = s.devIndex ∧ (pkt0 1).epoch = s.epoch) ∧
    (let s := { State.reset with fab := { FabState.reset with floods := [(65535, 0)] } }
     511 < 512 ∧ 65535 < 2 ^ 16 ∧ 0 < 2 ^ 32 ∧ (65535, 0) ∈ s.fab.floods) ∧
    ((65535, 0) ∉ State.reset.fab.floods ∧ State.reset.fab.ctxs = [] ∧ State.reset.upDirs = [] ∧ State.reset.devFenced 511 = !true ∧
      (regS [(R.fabFence 7, 0x8000000000000000)]).devFenced 511 = !false) := by decide +kernel

/-- A port that carries packets, with its TIME exchange as given, at a time. -/
def timeS (l : Link) (now : Nat) (regs : List (Nat × Word)) : State :=
  { portS 3 l with regs := (R.portLaneStatus 11, 3) :: regs, time := { State.reset.time with systime := now } }

theorem witness_CongestionAndTime :
    (State.reset.now < State.reset.fab.cmapStart + 100000) ∧
    (let s := { regS [(R.fabCmapCtl, 0x8000000000000000), (R.fabStatus, 1)] with time := { State.reset.time with systime := 100000 } }
     s.fab.cmapStart + 100000 ≤ s.now ∧ bit (s.reg R.fabCmapCtl) 63 = true ∧ s.topoValid = true) ∧
    (let s := timeS { Link.reset with exchAt := some 0 } 1000000 []
     s.portUp 11 = true ∧ (s.link 11).exchAt = some 0 ∧ 0 + 1000000 ≤ s.now ∧ 1 ≤ (s.link 11).credit 10 ∧ (s.link 11).replay.length < 512 ∧
      ({ pkt0 0x19 with data := [1, 5, 1] } : Pkt).data = 1#8 :: 5 :: 1 :: []) ∧
    (let s := timeS { Link.reset with exch := some (7, 100) } 200 [(R.clkTimeCtl, 1), (R.clkTimeOffset, 0xB000000000000)]
     let s := { s with time := { s.time with good := 1, lastCorr := 1 } }
     s.portUp 11 = true ∧ 7 < 2 ^ 32 ∧ 154 < 2 ^ 64 ∧ (s.link 11).exch = some (7, 100) ∧ s.timeSource = 1 ∧
      s.rfld R.clkTimeOffset 48 4 = 11 ∧ 0 < s.time.lastCorr ∧ s.time.good < 2 ∧ ((((154 : Int) - 100) - ((s.now : Int) - 154)) / 2).natAbs ≤ 4) ∧
    (let s := timeS Link.reset 100000000 [(R.clkTimeStatus, 1), (R.clkTimeCtl, 1)]
     s.aligned = true ∧ s.timeSource ≠ 0 ∧ s.time.lastCorr + 100000000 ≤ s.now) ∧
    (natDist (1000000#64).toNat State.reset.now ≤ 1000000 ∧ (regS [(R.clkTimeCtl, 0)]).timeSource = 0) := by decide +kernel

/-- A definition of a context 63 of a state: two members of a ring of 4, of which this is the first. -/
def ctxS (st : Nat) (w : Word) (accs : List (Nat × List (Nat × List Byte) × Bool)) : State :=
  { regS [(R.fabTopo, 0x01040000), (R.colCtxStatus 63, BitVec.ofNat 64 st), (R.colCtx 63, w)] with
    fab := { FabState.reset with ctxs := [(63, { ColCtx.reset with defn := w, accs := accs })] } }

/-- Broadcast along X of `members` devices, on die 0 and, with `d1`, die 1. -/
def ctxW (members : Nat) (d1 : Bool) : Word :=
  BitVec.ofNat 64 (1 + 2 + members * 2 ^ 10 + 2 ^ 22 + (if d1 then 2 ^ 23 else 0) + 2 ^ 49)

theorem witness_CollectiveContexts :
    (let s := ctxS 2 (ctxW 2 false) []
     0 < 2 ^ 64 ∧ s.ctxState 63 = 2 ∧ (s.ctx 63).readyFrom = [] ∧ s.ctxDown (s.ctx 63).defn = some 1 ∧
      s.ctxUp (s.ctx 63).defn = none ∧ ctxDigest (ctxW 3 false) ≠ ctxDigest (s.ctx 63).defn) ∧
    (∀ st ∈ [1, 2, 3], 1 ≤ (ctxS st (ctxW 2 false) []).ctxState 63 ∧ (ctxS st (ctxW 2 false) []).ctxState 63 ≤ 3) ∧
    (15#8).toNat < 16 ∧
    (bit ((ctxS 0 0 []).reg (R.colCtx 63)) 0 = false) ∧
    (let s := ctxS 5 (1 + 2 ^ 22) []
     bit (s.reg (R.colCtx 63)) 0 = true ∧ 4 ≤ s.ctxState 63 ∧ s.ctxInvalid (s.reg (R.colCtx 63)) = true) ∧
    (let w := ctxW 1 true
     let s := { ctxS 0 w [] with regs := (R.fabStopDir, 0xFFF) :: (ctxS 0 w []).regs }
     s.ctxState 63 = 0 ∧ s.ctxInvalid w = false ∧ fld w 1 2 = 1 ∧ (∀ d ∈ ctxDies w, s.dieUp d = true) ∧ (∀ i, i < 4 → s.stopDir i = none) ∧
      s.ctxDown w = none ∧ s.ctxUp w = none ∧ (∀ d ∈ s.ctxMembers w, s.devFenced d = false)) ∧
    (let s := ctxS 3 (ctxW 1 true) []
     s.ctxState 63 = 3 ∧ (s.ctx 63).accs = [] ∧ (s.ctx 63).results = [] ∧ (s.ctx 63).tails = 0 ∧ 1 ≤ fld (s.ctx 63).defn 49 5 ∧ (pkt0 0x0C).srcDev = s.devIndex ∧ (∃ other ∈ (s.ctxWriters (s.ctx 63).defn).1, other ≠ 0)) ∧
    (let w := ctxW 1 false
     let s := ctxS 3 w []
     ctxDies (s.ctx 63).defn = [0] ∧ s.dieUp 0 = true ∧ fld (s.ctx 63).defn 16 3 = 0 ∧ s.ctxDown w = none ∧ s.ctxUp w = none) := by
  decide +kernel

/-- A request in slot 15 of the core (0, 0, 0), and the state that holds it. -/
def xslot0 (type attempts : Nat) (retryAt : Option Nat) : XSlot := ⟨{ pkt0 type with tag := 15, dstDev := 1 }, attempts, 0, 0, retryAt, 8⟩
def xportS (x : XSlot) (now : Nat) : State :=
  { State.reset with xport := { XportState.reset with slots := [(15, some x)] }, time := { State.reset.time with systime := now } }

/-- A reply to it. -/
def xreply (type aux : Nat) : Pkt := { pkt0 type with tag := 15, srcDev := 1, aux := aux }

/-- The table of stop 21, which owns the keys of device 1, in service since time 0. -/
def rtabS (l : List REntry) : State := { State.reset with xport := { XportState.reset with table := [(21, l)], tUp := [(21, some 0)] } }

/-- A write from device 1, new or from before the table came into service. -/
def kept0 (t0 : Nat) : Pkt := { pkt0 2 with srcDev := 1, t0 := t0 }

theorem witness_TransportCommands :
    (∀ type ∈ [1, 2], let x := xslot0 type 1 none
     let p := xreply 5 0
     (xportS x 8).xslot (16 * at0.key + 15) = some x ∧ p.dstDev = (xportS x 8).devIndex ∧ replySlot p = some (16 * at0.key + 15) ∧
      x.pkt.tag = p.tag ∧ x.pkt.t0 = p.t0 ∧ x.pkt.dstDev = p.srcDev ∧ p.type ≠ 0x0B ∧ keptType x.pkt.type = decide (type = 2) ∧
      x.pkt.t0 ≠ ({ p with t0 := 1 } : Pkt).t0 ∧ x.retryAt = none ∧ x.sentAt + x.timeout ≤ (xportS x 8).now ∧ x.attempts < 3 ∧
      (xportS x 8).xport.acks = [] ∧ 3 ≤ (xslot0 type 3 none).attempts) ∧
    ((xreply 0x0B 8).type = 0x0B ∧ (xreply 0x0B 8).aux = 8) ∧
    (let x := xslot0 1 1 (some 8)
     x.retryAt = some 8 ∧ 8 ≤ (xportS x 8).now ∧ (xportS x 8).xport.acks = []) ∧
    (let s := { State.reset with
       xport := { XportState.reset with acks := [(1, posKey 7 15 17, 255, 0)] }
       time := { State.reset.time with systime := 1000 } }
     s.xport.acks = [(1, posKey 7 15 17, 255, 0)] ∧ 0 + 1000 ≤ s.now) := by decide +kernel

theorem witness_TransportCommands_table :
    (let s := rtabS []
     let p := kept0 1
     s.replayOwner p.srcDev = some 21 ∧ p.srcDev ≠ s.devIndex ∧ keptType p.type = true ∧ p.dstDev = s.devIndex ∧ p.xack = none ∧
      s.rtable 21 = [] ∧ s.replayUp p.srcDev 21 = some 0 ∧ atOrBefore (kept0 0).t0 0 = true ∧ atOrBefore p.t0 0 = false) ∧
    (let e : REntry := ⟨2, 0, 0, 0, none, 0⟩
     let s := rtabS (List.replicate 2048 e)
     2048 ≤ (s.rtable 21).length ∧ (∀ e ∈ s.rtable 21, e.matches (kept0 1) (srcCore (kept0 1)) 1 = false)) ∧
    (let p := kept0 1
     let fresh : REntry := REntry.mk p.srcDev (srcCore p) p.tag p.t0 none (rtabS []).now
     let r : Pkt := { pkt0 5 with dstDev := 1, t0 := 1 }
     (rtabS [{ fresh with reply := some r }]).rtable 21 = [{ fresh with reply := some r }] ∧ (rtabS [fresh]).rtable 21 = [fresh] ∧
      r.dstDev = p.srcDev ∧ r.dstDie = p.srcDie ∧ r.dstRow = p.srcRow ∧ r.dstCol = p.srcCol ∧ r.tag = p.tag ∧ r.t0 = p.t0) ∧
    (let p : Pkt := { pkt0 0x18 with srcDev := 1, xack := some (0, 0), data := List.replicate 32 0 }
     (rtabS []).replayOwner p.srcDev = some 21 ∧ p.srcDev ≠ (rtabS []).devIndex ∧ p.xack = some (srcCore p, p.tag)) ∧
    (let e : REntry := ⟨1, 0, 0, 0, none, 0⟩
     let s := { rtabS [e] with time := { State.reset.time with systime := 2 * (rtabS [e]).xportT } }
     s.rtable (20 + 1) = [e] ∧ e.touched + 2 * s.xportT ≤ s.now) := by decide +kernel

theorem witness_DieDownOutcome :
    (∀ type ∈ [PT.memRd, PT.memWr, PT.cput, PT.msg, PT.memAtom], ∀ n ∈ [1, 2], let x := xslot0 type n none
     let p := xreply 0x0B 1
     p.dstDev = (xportS x 0).devIndex ∧ replySlot p = some 15 ∧ (xportS x 0).xslot 15 = some x ∧ x.pkt.tag = p.tag ∧ x.pkt.t0 = p.t0 ∧
      x.pkt.dstDev = p.srcDev ∧ p.type = 0x0B ∧ p.aux = 1 ∧ x.attempts = n ∧ x.pkt.type = type) := by decide +kernel

/-! The host (R328 to R362). -/

/-- The reset state with the host attachment as given, its link active or not, and registers. -/
def hostS (f : HostState → HostState) (up : Bool) (l : List (Nat × Word)) (now : Nat) : State :=
  { regS ((R.hifLinkStatus, if up then 2 else 4) :: l) with
    host := { f HostState.reset with credits := [(0, 1), (1, 1)] }
    time := { State.reset.time with systime := now } }

/-- A credit that the host returned is a credit, however many it gave to begin with. -/
theorem hifCredit_returned (s : State) (k : Nat) (h : SMap.get (fun _ => 0) s.host.spent k < SMap.get (fun _ => 0) s.host.credits k) :
    s.hifCredit k = true := by
  simp only [State.hifCredit, decide_eq_true_eq]
  omega

theorem hostOpen_returned (s : State) (h : s.hifUp = true ∧ s.host.msgs = [] ∧ s.host.sent.length < 256 ∧
    (∀ k, k < 2 → SMap.get (fun _ => 0) s.host.spent k < SMap.get (fun _ => 0) s.host.credits k)) : HostOpen s :=
  ⟨h.1, h.2.1, h.2.2.1, hifCredit_returned s 0 (h.2.2.2 0 (by decide)), hifCredit_returned s 1 (h.2.2.2 1 (by decide))⟩

theorem hostOpen0 : HostOpen (hostS id true [] 0) := hostOpen_returned _ (by decide +kernel)

/-- A packet of a tracked read or write of host memory, and its request under tag 5. -/
def hostPkt (type : Nat) : HostPkt := ⟨0, { pkt0 type with host := true, addr := 56, aux := 7 }, 1, 0, [], []⟩
def hostReqS (type : Nat) (use : HostUse) : State :=
  hostS (fun h => { h with reqs := [(5, some ⟨use, 0, 0⟩)], pkts := [hostPkt type] }) true [] 0

/-- A message that the host has not acknowledged. -/
def snpAck : HostMsg := ⟨0x22, 0, 64, 0, []⟩

/-- R330: type [95:90], tag [89:78], line [77:32], status [31:28], off [27:22], len [21:16], poison [10]. -/
theorem test_hif_header : (HostMsg.mk 0x20 5 72 2 (List.replicate 8 1#8)).header =
    [0#8, 0x04#8, 0x07#8, 0x22#8, 0x01#8, 0#8, 0#8, 0#8, 0#8, 0x40#8, 0x01#8, 0x80#8] := by decide +kernel

/-- What the receiver finds in a codeword with one message of a reserved type. -/
def oneReserved : NogarCheck := ⟨true, false, 1, 0, 0, 0⟩

theorem witness_HostLinkCommands :
    (let s := hostS (fun h => { h with sent := [(0, snpAck)] }) true [] 2000
     s.hifUp = true ∧ s.host.nakSent = false ∧ (0#12).toNat = s.host.rxSeq ∧ s.host.sent = [(0, snpAck)] ∧ (0#12).toNat = s.host.acked ∧
      s.host.replayAt = none ∧ s.host.msgs = [] ∧ 0 + 2000 ≤ s.now ∧ oneReserved.crcOk = true ∧ oneReserved.lost = false ∧
      ({ oneReserved with lost := true } : NogarCheck).lost = true) ∧
    (let s := hostS (fun h => { h with sent := [(0, snpAck)], replayAt := some 0 }) true [] 20000
     s.hifUp = true ∧ s.host.sent = (0, snpAck) :: [] ∧ 0 + 2000 ≤ s.now ∧ s.host.replayAt = some 0 ∧ 0 + 20000 ≤ s.now) ∧
    (let s := hostS id false [] 0
     s.hifUp = false ∧ s.host.sent = [] ∧ s.host.msgs = []) ∧
    (let s := hostS (fun h => { h with reqs := [(4095, some ⟨.cmap, 0, 0⟩)], retrainAt := some 0 }) false [] 1000000
     SMap.get (fun _ => none) s.host.reqs 4095 = some (HostReq.mk .cmap 0 0) ∧ s.hifUp = false ∧
      max 0 (s.host.retrainAt.getD s.now) + 1000000 ≤ s.now ∧ s.host.waiting = []) ∧
    ((hostS (fun h => { h with reqs := [(0, some ⟨.own (pkt0 3), 64, 0⟩)] }) true [] 0).lineOwned 1 = true) ∧
    (let s := hostS id true [] 0
     s.lineOwned 0 = false ∧ (∀ n, n < 256 → bit (s.reg (R.hifDbl n)) 0 = false) ∧ SMap.get (fun _ => none) s.host.reqs 0 = none) ∧
    (let s := hostReqS 1 (.read 0 0)
     let x := hostPkt 1
     SMap.get (fun _ => none) s.host.reqs 5 = some (HostReq.mk (.read 0 0) 0 0) ∧ s.host.pkts = [x] ∧ x.left = 1 ∧ x.code = 0 ∧
      x.got = [] ∧ x.poison = [] ∧ x.pkt.hc = false ∧ s.host.waiting = [] ∧ x.pkt.type = 0x01 ∧ x.pkt.addr % 64 + x.pkt.aux % 256 + 1 ≤ 64) ∧
    (let s := hostReqS 2 (.write 0 0)
     SMap.get (fun _ => none) s.host.reqs 5 = some (HostReq.mk (.write 0 0) 0 0) ∧ s.host.pkts = [hostPkt 2] ∧ (hostPkt 2).pkt.type = 0x02) := by
  decide +kernel

theorem witness_HostAccesses : HostOpen (hostS id true [] 0) ∧
    (let s := hostS id true [] 0
     (s.capacity < 2 ^ 39 - 1 + (0 + 1)) ∧ (s.capacity - 64 + (63 + 1) ≤ s.capacity ∧ s.stackOut (s.capacity - 64) = false ∧
      s.channelHeld (s.capacity - 64) = false ∧ s.lineBad ((s.capacity - 64) / 64) = false ∧ (s.capacity - 64) % 64 = 0) ∧ (List.replicate 64 (1#8)).length = 64 ∧
      s.therm.cold = none ∧ (0xFFFFF8#24).toNat % 8 = 0 ∧ accessOk 0xFFFFFC (7 + 1) = false ∧ accessOk 0 (1 + 1) = false) ∧
    ({ State.reset with therm := { State.reset.therm with cold := some 0 } } : State).therm.cold.isSome = true :=
  ⟨hostOpen0, by decide +kernel, rfl⟩

theorem witness_HostAccesses_waits :
    let s := { hostS id true [] 0 with mem := { State.reset.mem with held := [.dmWr 0 [0] .ok] } }
    s.hostWaits = true ∧ s.therm.cold = none ∧ (hostS id true [] 0).hostWaits = false := by
  decide +kernel

theorem witness_HostAccesses_held :
    let s := { hostS id true [] 0 with mem := { State.reset.mem with repairing := [(0, 0, 255)] } }
    HostOpen s ∧ s.hostWaits = false ∧ 0 + (63 + 1) ≤ s.capacity ∧ s.stackOut 0 = false ∧ s.channelHeld 0 = true :=
  ⟨hostOpen_returned _ (by decide +kernel), by decide +kernel⟩

/-- Ring 0 running with one entry behind its head, its completion ring with room, and a watched line. -/
def ringS : State := hostS (fun h => { h with words := [(0, 1)] }) true
  [(R.hifSqCfg 0, 0x8001000000000000), (R.hifSqStatus 0, 0x0100000000000000), (R.hifCqCfg 0, 0x8001000000000001)] 0

theorem witness_RingCommands_fetch : (∀ q, q < 256 → ringS.checkTail q = ringS) ∧ HostOpen ringS ∧ ringS.freeTag = some 0 ∧
    ((rangeFrom ringS.host.turn 256).map (· % 256)).find? ringS.canFetch = some 0 := by
  refine ⟨fun q hq => ?_, hostOpen_returned _ (by decide +kernel), by decide +kernel, by decide +kernel⟩
  unfold State.checkTail
  rw [if_neg]
  revert q
  decide +kernel

theorem witness_RingCommands :
    (let v := 0xC01FFF3F00FF000F#64
     v &&& ~~~ (mask 62 2 ||| mask 48 5 ||| mask 40 8 ||| mask 32 6 ||| mask 16 8 ||| mask 0 4) = 0 ∧ bit v 63 = true ∧
      bit (State.reset.reg (R.hifSqCfg 255)) 63 = false ∧ bit (0x401FFF3F00FF000F#64) 63 = false) ∧
    (let s := hostS (fun h => { h with sqs := [(0, ⟨[entry0 8 0 0], [], false⟩)] }) true [(R.hifSqCfg 0, 0x8001000000000000)] 0
     bit (s.reg (R.hifSqCfg 0)) 63 = true ∧ (s.sq 0).fetched = [entry0 8 0 0] ∧ (entry0 8 0 0).ring = 0) ∧
    (let s := hostS (fun h => { h with rereadAt := [(255, some 0)] }) true [(R.hifDbl 255, 1)] 0
     s.freeTag = some 0 ∧ SMap.get (fun _ => none) s.host.rereadAt 255 = some 0 ∧ 0 ≤ s.now ∧ bit (s.reg (R.hifDbl 255)) 0 = true) ∧
    (0xFFFFFFFFFFFC1#64 &&& ~~~ (mask 6 46 ||| mask 0 1) = 0 ∧ bit (0xFFFFFFFFFFFC1#64) 0 = true ∧
      bit (ringS.reg (R.hifDbl 0)) 0 = false) := by decide +kernel

/-- Ring 255 running with one fetched entry; job 0 exists, with the tables of `saveS`. -/
def frontS (e : SqEntry) : State :=
  { hostS (fun h => { h with sqs := [(255, ⟨[e], [], false⟩)] }) true
      [(R.hifSqCfg 255, 0x8001000000000000), (R.hifSqStatus 255, 0x0100000000000000), (R.hifJob 0, 0x8000000000000000),
       (R.mmuJobRoot 0, 0x1001)] 0 with mem := saveS.mem }

/-- An entry of ring 255. -/
def entry255 (w0 w2 w3 w4 : Word) : SqEntry := ⟨255, 7, [w0, 9, w2, w3, w4, 0, 0, 0]⟩

/-- The entries of the dies at die 7: a launch on its first core and the kill of a job. -/
def dieS (e : SqEntry) : State :=
  let s := frontS e
  { s with host := { s.host with sqs := [(255, ⟨[], [e], false⟩)], dieq := [(7, [e])] } }

theorem witness_SubmissionCommands :
    (∀ op ∈ [2, 5, 6, 8], let e := entry255 (BitVec.ofNat 64 op) (if op = 6 then 0x4000000000000000 else 0) (if op = 2 then 64 else 0) (if op = 2 then 64 else 0)
     let s := frontS e
     s.nextEntry 255 op = some e ∧ e.ring = 255 ∧ (s.sq 255).fetched = [e] ∧ (s.sq 255).started = []) ∧
    (let e := entry255 2 0 64 64
     bit (e.w 0) 24 = false ∧ bit (e.w 0) 25 = false ∧ e.w 4 = 64 ∧ (e.w 2).toNat % 64 = 0 ∧ (e.w 3).toNat % 64 = 0 ∧
      (frontS e).stackOut 0 = false ∧ (frontS e).stackOut 64 = false ∧ (frontS e).copyHeld e = false ∧ (frontS e).lineBad 0 = false ∧ (frontS e).mmu.faults = [] ∧
      (frontS e).mmu.invs.length < 16) ∧
    (let f : MFault := ⟨7, 0, 0, 0, 0, 1, 0, 0⟩
     let s := { frontS (entry255 5 7 0 0) with mmu := { MmuState.reset with faults := [f] } }
     s.mmu.faults = [f] ∧ s.fw.pausing = none ∧ f.id = fld ((entry255 5 7 0 0).w 2) 0 32) := by decide +kernel

theorem witness_SubmissionCommands_dies :
    (let e := entry255 1 0x80 0 4
     let s := dieS e
     let k := 2016
     s.host.launches = [] ∧ s.host.kills = [] ∧ s.dieEntry 7 0x01 = some e ∧ s.launchCores e = [k] ∧ (s.coreAt k).rs.halted = true ∧
      (s.coreAt k).rs ≠ .fenced ∧
      (let r := State.jobBytes ⟨[], []⟩ 7 e.job (4 / 64 + 2) 0 4 (s.unqueue e)
       r.2 = .inl [0, 0, 0, 0] ∧ (State.jobBytes ⟨[], []⟩ 7 e.job (0 / 64 + 2) 0 0 r.1).2 = .inl [] ∧ (r.1.coreAt k).rs ≠ .fenced)) ∧
    (let e := entry255 7 0x80 0 0
     let s := { dieS e with cores := [(2016, run0)] }
     s.dieEntry 7 0x07 = some e ∧ e.dies = [7] ∧ s.jobCores 7 e.job = [2016] ∧ s.mmu.faults = [] ∧ ((s.coreAt 2016).engine 6).slots = [] ∧
      (s.sq e.ring).fetched = [] ∧ (s.sq e.ring).started = [e]) := by decide +kernel

theorem witness_CompletionsAndEvents :
    (let c : Compl := ⟨255, 7, 0, 1, 9, 0, true, 0⟩
     let s := hostS (fun h => { h with compls := [c] }) true [(R.hifCqCfg 0, 0x8001000000000000)] 0
     s.freeTag = some 0 ∧ c.ring < 256 ∧ s.host.launches = [] ∧ s.host.kills = [] ∧ s.host.compls = [c] ∧ s.dataOut c.ring c.index = false ∧
      bit (s.reg (R.hifCqCfg (s.cqOf c.ring))) 63 = true ∧ (c.nocqe = true → c.status ≠ 0) ∧ (s.sq c.ring).fetched = [] ∧ s.sqState c.ring ≠ 3) ∧
    (∀ en : Bool, let ev : Event := ⟨0x0A01, List.replicate 16 0, 0⟩
     let s := hostS (fun h => { h with events := [ev] }) true [(R.hifEqCfg 0, if en then 0x8001000000000000 else 0), (R.mgtStagStatus, 0x40)] 0
     s.eventRing ev.code = 0 ∧ s.sends = true ∧ s.host.events = ev :: [] ∧ ev.detail.length ≤ 16 ∧ bit (s.reg (R.hifEqCfg 0)) 63 = en ∧
      SMap.get (fun _ => 0) s.host.eqLost 0 = 0 ∧ idxAhead (s.rfld (R.hifEqStatus 0) 0 32) (s.dblWord (s.reg (R.hifEqCfg 0))) < ringSize 0x8001000000000000) ∧
    (∀ m : Bool, let s := hostS (fun h => { h with vecs := [(255, ⟨1, 0⟩)] }) true [(R.hirqVecCtl 255, if m then 0x8000000000000000 else 0)] 0
     s.vecDue 255 = true ∧ bit (s.reg (R.hirqVecCtl 255)) 63 = m ∧ s.irqPend 255 = false) ∧
    (0x8FFFFFFFFFFFFFFF#64 &&& (mask 63 1 ||| mask 48 12 ||| mask 40 8 ||| mask 0 32) &&&
      ~~~ (mask 63 1 ||| mask 48 12 ||| mask 40 8 ||| mask 0 32) = 0) ∧
    (hostS id true [(R.hirqPend 3, 0x8000000000000000)] 0).irqPend 255 = true := by decide +kernel

theorem witness_ConfigurationSwap :
    (State.reset.swapState = 0 ∧ State.reset.warm = false ∧ State.reset.now % 2 ^ 62 ≤ (2 ^ 62 - 1 : Nat)) ∧
    (let s := hostS (fun h => { h with swapAt := some 100 }) true [(R.cfgSwapStatus, 1), (R.mgtStagStatus, 0)] 100
     s.swapState = 1 ∧ s.host.swapAt = some 100 ∧ 100 ≤ s.now % 2 ^ 62 ∧ s.held = true ∧ s.warm = false) ∧
    (let s := hostS (fun h => { h with swapStart := some 0 }) true [(R.cfgSwapStatus, 2)] 0
     s.swapState ≠ 1 ∧ s.swapState ≠ 0 ∧ s.host.swapStart = some 0 ∧ (∀ n, n < 64 → s.shadowReg (R.colCtx n) = s.reg (R.colCtx n))) ∧
    ((regS [(R.cfgSwapStatus, 3)]).swapState = 3) := by decide +kernel

theorem witness_RegisterWrites : State.reset.therm.cold = none ∧
    (let off := R.fabTopo
     isRws off = true ∧ (Regs.find off).map (·.access) = some .rws ∧ off % 8 = 0 ∧ ¬ (0x500000 ≤ off ∧ off < 0xD00000) ∧
      State.reset.swapState = 0 ∧ off ≠ R.thmLimits ∧ (regS [(R.cfgSwapStatus, 1)]).swapState ≠ 0) ∧
    (Regs.find 0x4FFFF8 = none ∧ 0x4FFFF8 % 8 = 0 ∧ (Regs.find R.memCapacity).map (·.access) = some .ro) ∧
    (0x77777777#64 &&& ~~~ 0x77777777#64 = 0 ∧ (0x77777777#64).toNat < 2 ^ 32 ∧ 0x8#64 &&& ~~~ 0x7777777777777777#64 ≠ 0 ∧
      State.reset.reg R.hifEvtRoute0 &&& ~~~ 0x7777777777777777#64 = 0) := by decide +kernel

/-! The Bolmin host and the optics (R366 to R410). -/

/-- The reset state with the Bolmin link in a state of R368, its stop as given, and registers. -/
def bolS (st : Nat) (b : BolState) (l : List (Nat × Word)) (now : Nat) : State :=
  { regS ((R.bolLinkStatus, BitVec.ofNat 64 (st + 2 ^ 8)) :: l) with bol := b, time := { State.reset.time with systime := now } }

theorem witness_BolminLinkCommands :
    (let s := bolS 0 BolState.reset [] 1000000
     s.bol.streams = [] ∧ (∀ n, n < 256 → s.streamState n ≠ 1) ∧ bit (s.reg R.bolCtl) 0 = false ∧ s.bolState = 0) ∧
    (let s := { bolS 6 BolState.reset [] 1000000 with regs := [(R.bolLinkStatus, 6), (R.bolCtl, 1)] }
     s.bol.streams = [] ∧ bit (s.reg R.bolCtl) 0 = true ∧ bit (s.reg R.bolLinkStatus) 8 = false ∧ s.bolState = 6 ∧ 0 + 1000000 ≤ s.now) ∧
    (∀ st ∈ [1, 2, 4, 5], (bolS st BolState.reset [] 0).bolState = st ∧ (bolS st BolState.reset [] 0).bol.nakSent = false) ∧
    (let f : BolSent := ⟨4095, 0, ⟨[], 0, []⟩, []⟩
     let s := bolS 2 { BolState.reset with frames := [f] } [] 2000
     s.bol.frames = [f] ∧ (4095#12).toNat = f.seq ∧ f.note = [] ∧ (0#12).toNat = s.bol.rxSeq ∧ s.bol.replayAt = none ∧ s.bol.queue = [] ∧
      s.bol.cur = [] ∧ s.bol.owed = 0 ∧ f.sent + 2000 ≤ s.now ∧ s.bol.fills < 4095) ∧
    (let f : BolSent := ⟨0, 0, ⟨[], 0, []⟩, []⟩
     let s := bolS 2 { BolState.reset with frames := [f], replayAt := some 0 } [] 20000
     s.bol.frames = [f] ∧ f.sent + 2000 ≤ s.now ∧ s.bol.fills < 4095 ∧ s.bol.replayAt = some 0 ∧ 0 + 20000 ≤ s.now) ∧
    (let s := bolS 4 { BolState.reset with retrainAt := some 0 } [] 1500000
     s.bolState = 4 ∧ s.bol.retrainAt = some 0 ∧ s.now ≤ 0 + 1500000 ∧ s.bol.frames = [] ∧ s.bol.work = false) := by decide +kernel

/-- Stream 255 open, with a ring of 4096 B: ingress or egress, as given. -/
def streamS (cfg : Word) (x : Stream) (l : List (Nat × Word)) : State :=
  bolS 2 { BolState.reset with streams := [(255, x)], lcr := 1 }
    ((R.bolStreamCfg 255, 0x800C000000000000 ||| cfg) :: (R.bolStreamStatus 255, 0x4000000000000000) :: l) 0

/-- The link sends a frame at once: it is active, nothing waits, and less than 256 frames are kept. -/
def BolReady (s : State) : Prop :=
  s.bolState = 2 ∧ s.bol.work = false ∧ s.bol.frames.length < 256 ∧ s.bol.fills < 4095 ∧ s.bol.queue = [] ∧ s.bol.curNote = []

theorem witness_BolminStreamCommands_ready : BolReady (streamS 0 { Stream.reset with credit := 2 } []) ∧ BolReady (bolS 2 BolState.reset [] 0) ∧
    BolReady (streamS 0 { Stream.reset with fill := 64, tail := 64 } [(R.bolStreamCtrl 255, 0x8000000000000000)]) ∧
    BolReady (streamS 0x4000000000000000 { Stream.reset with tail := 128, credit := 2 } [(R.bolStreamBase 255, 0x8000000000000000)]) := by
  unfold BolReady
  decide +kernel

theorem witness_BolminStreamCommands :
    (let s := streamS 0 { Stream.reset with credit := 2 } []
     let x := s.stream 255
     s.bolUp = true ∧ s.isEgress 255 = false ∧ s.streamState 255 = 1 ∧ x.part = none ∧ 2 ≤ x.credit ∧ 192 ≤ s.streamSize 255 ∧
      s.streamSize 255 % 64 = 0 ∧ x.fill % 64 = 0 ∧ bit (s.reg (R.bolStreamBase 255)) 63 = false ∧ s.inRange 64 64 = true ∧ s.stackOut 64 = false ∧
      s.channelHeld 64 = false) ∧
    (let s := bolS 2 BolState.reset [] 0
     s.bolUp = true ∧ s.isEgress 0 = false ∧ s.streamState 0 = 0 ∧ (s.stream 0).opened = false) ∧
    (let s := streamS 0x4000000000000000 Stream.reset []
     s.bolUp = true ∧ s.isEgress 255 = true ∧ s.streamState 255 = 1) ∧
    (let r := InRec.mk 0 0 false 64 0
     let s := streamS 0 { Stream.reset with ready := [r] } [(R.bolStreamCtrl 255, 0x2000)]
     s.streamBusy 255 = false ∧ (s.stream 255).ready = [r] ∧ r.stage = 0 ∧ r.start % 64 = 0 ∧ bit (s.reg (R.bolStreamCtrl 255)) 63 = false ∧
      fld (s.reg (R.bolStreamCfg 255)) 38 2 = 0 ∧ s.inRange 0 64 = true ∧ s.stackOut 0 = false ∧ s.mem.repairing = [] ∧
      fld (s.reg (R.bolStreamCtrl 255)) 6 46 * 64 = 0x2000 ∧ 0x2000 + 64 ≤ s.capacity ∧ s.stackOut 0x2000 = false ∧ s.stackOut 0x2010 = false) ∧
    (let s := streamS 0 { Stream.reset with fill := 64, tail := 64 } [(R.bolStreamCtrl 255, 0x8000000000000000)]
     let x := s.stream 255
     s.pollDue 255 = true ∧ bit (s.reg (R.bolStreamCtrl 255)) 63 = true ∧ x.part = none ∧ 128 * x.credit < s.streamSize 255 ∧
      (64#64).toNat ≤ x.tail ∧ (s.streamSize 255 - (x.fill - 64) - 64 * x.credit) / 64 ≠ 0) ∧
    (let s := streamS 0x4000000000000000 Stream.reset [(R.bolStreamCtrl 255, 0x8000000000000000)]
     let x := s.stream 255
     s.pollDue 255 = true ∧ x.fill = x.tail ∧ x.tail ≤ (4096#64).toNat ∧ (4096#64).toNat ≤ x.head + s.streamSize 255) ∧
    (let s := streamS 0x4000000000000000 { Stream.reset with tail := 128, credit := 2 } [(R.bolStreamBase 255, 0x8000000000000000)]
     let x := s.stream 255
     let host : List Byte := natToBytes 8 64 ++ List.replicate 120 0
     s.bolState = 2 ∧ x.fill + 128 ≤ x.tail ∧ host.length = 128 ∧ fld (bytesWord (host.take 8)) 0 24 = 64 ∧
      bit (bytesWord (host.take 8)) 32 = false ∧ x.again = false ∧ 2 ≤ x.credit ∧ 1 ≤ s.bol.lcr ∧ bit (s.reg (R.bolStreamBase 255)) 63 = true) ∧
    (let v := 0xBF00FFC0FF07FF00#64 &&& (mask 62 2 ||| mask 48 6 ||| mask 38 10 ||| mask 24 8 ||| mask 16 3 ||| mask 8 8)
     let s := regS [(R.bolStreamCtrl 255, 0x8000000000000000)]
     v &&& ~~~ (mask 62 2 ||| mask 48 6 ||| mask 38 10 ||| mask 24 8 ||| mask 16 3 ||| mask 8 8) = 0 ∧ bit v 63 = true ∧ bit v 62 = false ∧
      bit (s.reg (R.bolStreamCfg 255)) 63 = false ∧ bit (s.reg (R.bolStreamCtrl 255)) 63 = true ∧ s.bolUp = false) := by decide +kernel

theorem witness_BolminStreamCommands_lines : ∀ l, (streamS 0 Stream.reset []).lineBad l = false := fun _ => rfl

/-- The reset state with the holder's interlock and one MGMT entry of ring 0, which has started. -/
def mgmtE (sub : Nat) (ws : List Word) : SqEntry := ⟨0, 0, [0x10, 0, BitVec.ofNat 64 sub] ++ ws ++ List.replicate (5 - ws.length) 0⟩
def mgmtS (e : SqEntry) : State :=
  { regS [(R.mgtStagStatus, 0x40)] with host := { HostState.reset with mgmt := [e], sqs := [(0, ⟨[], [e], false⟩)] } }

/-- A filter ring of a port, of line 15, and of the base: the last of writer 27. -/
def ringA : Nat := 2 * 2 ^ 30 + 11 * 2 ^ 26 + 15 * 2 ^ 11
def ringB : Nat := 27 * 2 ^ 25 + 26 * 2 ^ 20 + 34 * 2 ^ 11

/-- The optics with a ring of some values. -/
def optS (f : OptState → OptState) (l : List (Nat × Word)) : State :=
  { regS ((R.mgtStagStatus, 0x40) :: l) with opt := f OptState.reset }

/-- A measurement at a limit of R400. -/
def meas0 : RingMeas := ⟨50, 2428, 26215⟩

theorem witness_RingsAndChannels_rings :
    (∀ lock : Bool, let s := optS (fun o => { o with rings := [(ringA, ⟨0, 0, 0, lock, false⟩)] }) []
     ringOk ringA = true ∧ (s.ring ringA).failed = false ∧ (s.ring ringA).locked = lock) ∧
    (ringOk ringB = true ∧ (State.reset.ring ringB).failed = false ∧ (State.reset.ring ringB).locked = true) ∧
    (let s := optS (fun o => { o with lost := [(27, 0)] }) []
     (∀ x ∈ s.opt.rings, x.2.locked = true ∧ x.2.failed = false) ∧ (27, 0) ∈ s.opt.lost) ∧
    (let w := BitVec.ofNat 64 (15 * 2 ^ 57 + 17 * 2 ^ 52 + 2 ^ 51)
     bit w 51 = true ∧ bit w 50 = false ∧ fld w 57 5 < 16 ∧ fld w 52 5 < 18) ∧
    (let w := BitVec.ofNat 64 (15 * 2 ^ 57 + 17 * 2 ^ 52 + 2 ^ 50)
     bit w 51 = false ∧ bit w 50 = true ∧ (optS (fun o => { o with moves := [(11, 15, 17)] }) []).opt.moves = [(11, fld w 57 5, fld w 52 5)]) ∧
    (50 ≤ meas0.peak ∧ 5 * 65535 ≤ 135 * meas0.set ∧ 135 * meas0.set ≤ 130 * 65535 ∧ 40 * 65536 ≤ 100 * meas0.target ∧
      100 * meas0.target ≤ 60 * 65536 ∧ ({ meas0 with peak := 49 } : RingMeas).peak < 50) := by decide +kernel

theorem witness_RingsAndChannels_recal :
    (∀ full : Bool, let s := { optS (fun o => { o with moves := if full then [(11, 0, 16), (11, 1, 17)] else [] }) [(R.optRecalCtl, 0x8000000000000001)] with
       time := { State.reset.time with systime := 1000000000 } }
     chanOk ringA = true ∧ s.held = true ∧ bit (s.reg R.optRecalCtl) 63 = true ∧
      s.opt.window ≠ s.now / (s.rfld R.optRecalCtl 0 32 * 1000000000) ∧ s.opt.recal = [] ∧ s.srcSwitching ringA = false ∧
      s.hasSpare ringA = !full) ∧
    ((optS (fun o => { o with recal := [ringA] }) []).opt.recal = [ringA]) ∧
    (let e := mgmtE 0x0C03 [BitVec.ofNat 64 ringB]
     let s := mgmtS e
     (e.w 3).toNat = ringB ∧ s.opt.recal = [] ∧ s.srcSwitching ringB = false ∧ s.hasSpare ringB = true ∧ chanOk ringB = true) ∧
    (let v := BitVec.ofNat 64 (26215 * 2 ^ 16 + 2428)
     let s := optS (fun o => { o with eye := some ringA }) [(R.optRingSel, BitVec.ofNat 64 ringA), (R.optChSel, BitVec.ofNat 64 ringB)]
     ringOk (s.rfld R.optRingSel 0 32) = true ∧ chanOk (s.rfld R.optChSel 0 32) = true ∧ meas0.set = fld v 0 16 ∧ meas0.target = fld v 16 16 ∧
      s.opt.eye = some ringA ∧ ringA ∉ s.opt.recal) ∧
    (32 ≤ tap 0xF010F010F010F020#64 0 ∧ (∀ i, i < 8 → 1 ≤ i → 2 * (tap 0xF010F010F010F020#64 i).natAbs ≤ (tap 0xF010F010F010F020#64 0).natAbs)) ∧
    (let v := BitVec.ofNat 64 (2 ^ 63 + ringA)
     v &&& ~~~ (mask 63 1 ||| mask 0 32) = 0 ∧ bit v 63 = true ∧ chanOk (fld v 0 32) = true) := by decide +kernel

theorem witness_RingsAndChannels_mgmt :
    MgmtAlone (mgmtS (mgmtE 0x0C03 [BitVec.ofNat 64 ringB])) 0x0C03 [mask 0 64, 0, 0, 0, 0] (mgmtE 0x0C03 [BitVec.ofNat 64 ringB]) ∧
    (MgmtAlone (mgmtS (mgmtE 0x0C01 [64, mask 0 64])) 0x0C01 [mask 0 64, mask 0 64, 0, 0, 0] (mgmtE 0x0C01 [64, mask 0 64]) ∧
      ((mgmtE 0x0C01 [64, mask 0 64]).w 3).toNat % 64 = 0) ∧
    MgmtAlone (mgmtS (mgmtE 0x0C02 [0, 64])) 0x0C02 [mask 0 64, mask 0 64, 0, 0, 0] (mgmtE 0x0C02 [0, 64]) ∧ calOk [] = false := by
  unfold MgmtAlone
  decide +kernel

theorem witness_RingsAndChannels_image (s : State) : s.calImage.length ≤ ((mgmtE 0x0C01 [64, mask 0 64]).w 4).toNat := by
  have h := s.calImage_length
  have h2 : ((mgmtE 0x0C01 [64, mask 0 64]).w 4).toNat = 2 ^ 64 - 1 := by decide
  omega

/-- A calibration image without records. -/
def calEmpty : List Byte :=
  natToBytes 8 (0x4341 * 2 ^ 48 + 2 ^ 40) ++ wordBytes Config.serial ++ natToBytes 8 0 ++ natToBytes 8 (crc32 []) ++ List.replicate 32 0

theorem witness_RingsAndChannels_restore : fillData ((mgmtE 0x0C02 [0, 64]).w 4).toNat calEmpty = calEmpty ∧ calOk calEmpty = true ∧
    leAt calEmpty 0 4 = 0 := by
  have h8 : leAt calEmpty 8 8 = Config.serial.toNat := bytesToNat_wordBytes Config.serial
  refine ⟨rfl, ?_, by decide +kernel⟩
  unfold calOk
  rw [h8, decide_eq_true (rfl : Config.serial.toNat = Config.serial.toNat)]
  decide +kernel

theorem witness_LaserSources :
    (let s := optS id [(R.optSrcStatus 20, BitVec.ofNat 64 (2 + 10 * 2 ^ 16 + 11 * 2 ^ 32)), (R.optSrcStatus 32, 0)]
     s.held = true ∧ 20 ≠ 32 ∧ 32 < 44 ∧ (∀ x ∈ s.opt.switches, x.old ≠ 20) ∧ s.srcState 20 = 2 ∧ s.standbyOf 20 = some 32 ∧
      9 * s.rfld (R.optSrcStatus 20) 32 16 ≤ 10 * s.rfld (R.optSrcStatus 20) 16 16) ∧
    (∀ st ∈ [2, 3], let l := [(R.optSrcStatus 43, BitVec.ofNat 64 st), (R.optSrcStatus 20, BitVec.ofNat 64 st), (R.optSrcStatus 32, 0)]
     let s := optS (fun o => { o with switches := [⟨21, 33, 0, none, false⟩] }) l
     s.srcState 43 = st ∧ s.standbyOf 43 = none ∧ (∀ x ∈ s.opt.switches, x.old ≠ 43 ∧ x.old ≠ 20) ∧ s.held = true ∧
      s.srcState 20 = st ∧ s.standbyOf 20 = some 32) ∧
    (let e := mgmtE 0x0C04 [20]
     fld (e.w 3) 0 6 = 20) ∧
    (∀ st ∈ [2, 3], ∀ fade ∈ [none, some 0], ∀ failed ∈ [false, true], let x := LaserSwitch.mk 20 32 0 fade failed
     let s := optS (fun o => { o with switches := [⟨21, 33, 0, none, true⟩, x] }) [(R.optSrcStatus 20, BitVec.ofNat 64 st)]
     s.held = true ∧ s.fw.queue = [] ∧ s.justTaken = false ∧ s.srcState 20 = st ∧ s.opt.switches.find? (fun z => decide (z.old = 20)) = some x ∧
      (if fade.isNone && !failed then s.opt.switches.find? (fun z => decide (z.old = 20) && z.fade.isNone && !z.failed) = some x
       else s.opt.switches.find? (fun z => decide (z.old = 20) && (z.fade.isSome || z.failed)) = some x)) := by
  decide +kernel

theorem witness_LaserSources_low :
    (let s := { optS (fun o => { o with low := [(2 ^ 32, some 0)] }) [(R.optSrcStatus 20, 2), (R.optSrcStatus 32, 0)] with
       time := { State.reset.time with systime := 1000000000 } }
     s.held = true ∧ s.srcState 20 = 2 ∧ s.standbyOf 20 = some 32 ∧ s.lowFor 20 = true) ∧
    (let s := { optS (fun o => { o with low := [(2 ^ 32 + 1, some 0)] }) [(R.optSrcStatus 21, 4), (R.optSrcStatus 43, 2 + 2 ^ 8)] with
       time := { State.reset.time with systime := 1000000000 } }
     s.held = true ∧ s.srcState 43 = 2 ∧ s.standbyOf 43 = none ∧ s.lowFor 43 = true) := by
  decide +kernel

theorem witness_LaserSources_mgmt :
    (let e := mgmtE 0x0C04 [20]
     MgmtAlone { mgmtS e with regs := [(R.mgtStagStatus, 0x40), (R.optSrcStatus 20, 2), (R.optSrcStatus 32, 0)] } 0x0C04 [mask 0 6, 0, 0, 0, 0] e) := by
  unfold MgmtAlone
  decide +kernel

/-! Stags, resets and temperature (R420 to R476). -/

/-- The reset state with MGT_STAG_STATUS (holder [1:0], stag A [6:4], stag B [10:8], overlap 16), the stags' own
state, and a time. -/
def stagS (holder a b : Nat) (overlap : Bool) (f : StagState → StagState) (now : Nat) : State :=
  { regS [(R.mgtStagStatus, BitVec.ofNat 64 (holder + 16 * a + 256 * b + if overlap then 65536 else 0))] with
    stag := f StagState.reset
    time := { State.reset.time with systime := now } }

theorem witness_StagCommands :
    (let s := coreS { run0 with ctl := { run0.ctl with lost := 3 } }
     SMap.get (fun _ => 0) s.stag.lostSent 0 = 0 ∧ s.coreLosses 0 ≠ SMap.get (fun _ => 0) s.stag.lostSeen (2 * 0)) ∧
    (∀ u ∈ [0, 1], (stagS 0 4 3 false id 0).stagRuns u = true) ∧
    StagsCalm (stagS 0 4 3 false id 0) ∧
    (let s := stagS 0 4 3 false id 0
     s.holder ≠ 1 ∧ s.wdCount 1 < 3 ∧ s.holder = 0 ∧ s.overlap = false ∧ s.stagState 1 = 3 ∧ s.wdCount 0 < 3) ∧
    (let s := stagS 0 4 3 false (fun x => { x with wd := [(1, (1, 2))] }) 0
     StagsCalm s ∧ s.holder ≠ 1 ∧ 3 ≤ s.wdCount 1) ∧
    (∀ h ∈ [0, 3], let s := stagS h 1 1 false id 0
     StagsCalm s ∧ s.stagState 0 = 1 ∧ s.stagState 1 = 1 ∧ s.holder = h) := by
  unfold StagsCalm
  decide +kernel

theorem witness_StagCommands_roles :
    (let s := stagS 0 5 2 false id 0
     StagsCalm s ∧ s.stagState 0 = 5 ∧ s.stagState 1 = 2 ∧ s.held = true ∧ s.holder ≠ 1) ∧
    (∀ b ∈ [2, 3], let s := stagS 0 4 b false id 0
     StagsCalm s ∧ s.holder = 0 ∧ s.stagState 0 = 4 ∧ s.stag.acked ≤ s.stag.mirror ∧ s.stagState 1 = b) ∧
    (let s := stagS 0 4 3 true id 50000
     StagsCalm s ∧ s.overlap = true ∧ s.stagRuns 0 = true ∧ SMap.get (fun _ => 0) s.stag.beatTx 0 + 10000 ≤ s.now ∧ s.stagState 1 = 3 ∧
      SMap.get (fun _ => 0) s.stag.beatRx 1 + 50000 ≤ s.now) ∧
    (let s := stagS 3 1 2 false (fun x => { x with startWait := true }) 0
     StagsCalm s ∧ s.stag.startWait = true ∧ s.holder = 3 ∧ s.stagState 1 = 2) ∧
    (let s := stagS 1 3 4 false (fun x => { x with holdoff := some 0 }) 60000000000
     StagsCalm s ∧ s.stag.holdoff = some 0 ∧ s.holder = 1 ∧ s.stagState 0 = 3 ∧ s.stagState 1 = 4 ∧ 0 + 60000000000 ≤ s.now) ∧
    (StagsCalm (stagS 0 4 2 false id 0) ∧ (stagS 0 4 2 false id 0).standby = none) ∧
    ((stagS 0 4 3 false (fun x => { x with held := [(1, .message 2 3 4 5)] }) 0).stag.held = (1, .message 2 3 4 5) :: []) := by
  unfold StagsCalm
  decide +kernel

/-- The reset state with the state of die 7. -/
def die7 (st : Nat) (f : ThermState → ThermState) (auto : Nat) : State :=
  { regS [(R.rstDieStatus 7, BitVec.ofNat 64 (st + 256 * auto)), (R.rstStatus, 1)] with therm := f ThermState.reset }

theorem undisturbed0 (s : State) (h : s.host.launches = []) (h2 : s.host.dieq = []) (h3 : s.mmu.xfers = []) (h4 : s.mmu.faults = []) :
    Undisturbed s := ⟨h, fun d => by simp [State.dieQueue, h2, SMap.get], fun d => by simp [State.xfer, h3, SMap.get], h4⟩

theorem witness_ResetCommands_dies :
    (∀ st, Undisturbed (die7 st id 0)) ∧
    (∀ st ∈ [0, 1, 2, 3, 4], (die7 st id 0).running = true ∧ (die7 st id 0).dieState 7 = st ∧ (die7 st id 0).fw.ext = []) ∧
    (let s := die7 0 (fun t => { t with autoHour := [(7, 1)] }) 3
     Undisturbed s ∧ s.running = true ∧ s.dieState 7 = 0 ∧ 3 ≤ s.autoCount 7) ∧
    ((die7 0 id 0).autoCount 7 < 3) ∧
    (die7 1 id 0).dieChecks 7 [⟨7, 15, 17⟩, ⟨7, 15, 0⟩] = true ∧
    (∀ x ∈ [DieTest.mk [] none (some 100), DieTest.mk [⟨7, 15, 17⟩] (some ([], [])) (some 0)],
      x.avs.isSome = true ∧ (x.deskew = none ∨ x.routers ≠ [])) ∧
    (State.reset.dieState 0 = 0 ∧ (State.reset.coreAt at0.key).rs ≠ .fenced ∧ State.reset.mmu.faults = [] ∧ State.reset.running = true ∧
      State.reset.autoCount 0 < 3) :=
  ⟨fun st => undisturbed0 _ rfl rfl rfl rfl, by decide +kernel, ⟨undisturbed0 _ rfl rfl rfl rfl, by decide +kernel⟩, by decide +kernel⟩

theorem witness_ResetCommands :
    (let s := regS [(R.rstStatus, 2)]
     s.warm = true ∧ (∀ d, d < 8 → s.dieState d ≠ 1 ∧ s.dieState d ≠ 2) ∧ (∀ n, n < 64 → bit (s.reg (R.colCtx n)) 0 = false) ∧
      s.therm.swapWaits = false ∧ s.timeSource = 1 ∧ s.time.given = false) ∧
    (let s := { regS [(R.rstStatus, 2), (R.clkTimeCtl, 0)] with time := { State.reset.time with given := true } }
     s.warm = true ∧ s.timeSource = 0 ∧ s.time.given = true) ∧
    State.reset.running = true ∧ warmClears R.hifLinkStatus = true ∧
    (State.reset.therm.tripped = false ∧ State.reset.therm.cold = none ∧ bit (State.reset.reg R.clkRefStatus) 0 = true) ∧
    (let s := { State.reset with therm := { ThermState.reset with cold := some 7 } }
     s.therm.cold = some 7 ∧ s.pkg.pwrgood = true ∧ s.pkg.vio = true ∧ bit (s.reg R.clkRefStatus) 0 = true ∧ s.fw.boot.trial = false ∧
      s.fw.boot.arm = false) := by decide +kernel

theorem witness_ResetCommands_slots : State.reset.slotVerifies State.reset.fw.boot.confirmed = true ∧
    (let s := { State.reset with fw := { FwState.reset with slotA := [], policy := List.replicate 64 1 } }
     s.slotVerifies false = false ∧ s.slotVerifies true = false) := by
  constructor
  · simp [State.slotVerifies, imageFault, jowaldOk, State.minVersion, FwState.slotData, State.reset, FwState.reset, BootCtl.none]
  · have h : imgSecver [] < policyMin (List.replicate 64 1) := by decide +kernel
    have e : (List.replicate 64 (1 : Byte)).isEmpty = false := rfl
    simp only [State.slotVerifies, imageFault, State.minVersion, FwState.slotData, FwState.reset, e]
    by_cases j : jowaldOk [] = true <;> simp [j]; exact h

theorem witness_ThermalCommands :
    (let s := regS [(R.thmMask 0, 1), (R.thmMask 1, 0)]
     s.therm.tripped = false ∧ s.sensorState 2499 = 0 ∧ s.masked 2499 = false ∧ isReadout 2499 = false ∧ s.therm.cold = none ∧
      s.masked 0 = true ∧ s.sensorState 0 = 0 ∧ isReadout 0 = false ∧ s.now ≤ (SMap.get (fun _ => ((0 : Int), 0)) s.therm.raw 0).2 + 4 * samplePeriod 0) ∧
    (let s := { State.reset with time := { State.reset.time with systime := 40001 } }
     (SMap.get (fun _ => ((0 : Int), 0)) s.therm.raw 0).2 + 4 * samplePeriod 0 < s.now) ∧
    (let s := { regS [(R.thmRead 0, 0x4000)] with
       therm := { ThermState.reset with condAt := [(0, some 0)], raw := [(0, (-2048, 0))] }
       time := { State.reset.time with systime := 1000000000 } }
     SMap.get (fun _ => none) s.therm.condAt 0 = some 0 ∧ s.sensorState 0 ≠ 0 ∧ 0 + 1000000000 ≤ s.now ∧
      (SMap.get (fun _ => ((0 : Int), 0)) s.therm.raw 0).1 = -2048) ∧
    (let s := regS [(R.thmEstCoef 11, 0x0001000000001000)]
     s.therm.tripped = false ∧ SMap.get (fun _ => (0, 1)) s.therm.act 11 = (0, 1) ∧ fld (s.reg (R.thmEstCoef 11)) 0 16 = 4096 ∧
      1 ≤ fld (s.reg (R.thmEstCoef 11)) 48 8 ∧ s.masked 2443 = false ∧ s.masked 2455 = false ∧ s.sensorState 2443 = 0 ∧ s.sensorState 2455 = 0 ∧
      -2048 ≤ s.reading 2443 + signed (fld (s.reg (R.thmEstCoef 11)) 40 8) 8 ∧ s.reading 2443 + signed (fld (s.reg (R.thmEstCoef 11)) 40 8) 8 < 840 ∧
      s.masked 2511 = false) ∧
    (let s := regS [(R.thmMask 38, mask 0 64), (R.thmMask 39, mask 0 64)]
     s.masked 2443 = true ∧ s.masked 2455 = true ∧ s.masked 2511 = true) ∧
    ((State.reset.hottest (dieSensors 7 ++ halfSensors 1)).isSome = true ∧ State.reset.therm.pstag = []) ∧
    (coefOk 0x0001000000001000 = true ∧ coefOk 0 = false ∧ 0x0001000000001000#64 &&& ~~~ (mask 48 8 ||| mask 40 8 ||| mask 32 8 ||| mask 0 16) = 0) ∧
    (let s := { State.reset with
       therm := { ThermState.reset with tripped := true }
       time := { State.reset.time with systime := 30000000000 } }
     s.therm.tripped = true ∧ s.therm.coolAt + 30000000000 ≤ s.now ∧ s.rfld R.rstStatus 9 1 = 0 ∧ s.therm.cold = none ∧ s.allCool = true ∧ s.pkg.jtag < 3) := by
  decide +kernel

/-! Firmware, the ledger and the debug memory (R479 to R530). -/

/-- The reset state with one started MGMT entry, firmware as given, and registers. -/
def fwS (e : SqEntry) (f : FwState → FwState) (l : List (Nat × Word)) (now : Nat) : State :=
  { mgmtS e with
    fw := f FwState.reset
    regs := (R.mgtStagStatus, 0x340) :: l
    time := { State.reset.time with systime := now } }

/-- The entries of the firmware subcodes, with room for every answer. -/
def fwE : List (SqEntry × Nat × List Word) := [
  (mgmtE 0x1001 [64, 2 ^ 24, 0, 512], 0x1001, [mask 0 64, mask 0 64, mask 0 64, mask 0 10, mask 0 64]),
  (mgmtE 0x1002 [7], 0x1002, [mask 0 62, 0, 0, 0, 0]), (mgmtE 0x1003 [], 0x1003, [0, 0, 0, 0, 0]),
  (mgmtE 0x1004 [], 0x1004, [0, 0, 0, 0, 0]), (mgmtE 0x1005 [], 0x1005, [0, 0, 0, 0, 0]),
  (mgmtE 0x1006 [64, 0x100000], 0x1006, [mask 0 64, mask 0 64, mask 0 1, 0, 0]),
  (mgmtE 0x1007 [64, 0x100000], 0x1007, [mask 0 64, mask 0 64, 0, 0, 0]), (mgmtE 0x1008 [64], 0x1008, [mask 0 64, 0, 0, 0, 0]),
  (mgmtE 0x1009 [64], 0x1009, [mask 0 64, 0, 0, 0, 0]), (mgmtE 0x100A [64, 0xC0000], 0x100A, [mask 0 64, mask 0 64, 0, 0, 0]),
  (mgmtE 0x100B [64, 128, 4096], 0x100B, [mask 0 64, mask 0 64, mask 0 64, 0, 0]),
  (mgmtE 0x100C [64, 4096], 0x100C, [mask 0 64, mask 0 64, 0, 0, 0]),
  (mgmtE 0x1101 [64, 4096], 0x1101, [mask 0 64, mask 0 64, mask 0 2, mask 0 64, 0]),
  (mgmtE 0x1102 [64, 4096], 0x1102, [mask 0 64, mask 0 64, 0, 0, 0])]

theorem witness_FirmwareCommands_entries : ∀ x ∈ fwE, MgmtAlone (fwS x.1 id [] 0) x.2.1 x.2.2 x.1 := by
  unfold MgmtAlone
  decide +kernel

theorem witness_FirmwareCommands :
    (let e := mgmtE 0x1001 [64, 2 ^ 24, 0, 512]
     (e.w 3).toNat % 64 = 0 ∧ (e.w 4).toNat ≤ 2 ^ 24 ∧ fld (e.w 6) 0 10 ≤ 512) ∧
    (let s := fwS (mgmtE 0x1001 [64, 64]) id [(R.fwStatus, 0x400)] 0
     s.stageFault (fillData 64 []) = some 2) ∧
    (let s := fwS (mgmtE 0x1002 [7]) id [] 0
     s.fw.slotState s.fw.other = 1 ∧ s.phase ∈ [0, 2, 3] ∧ bit (s.reg R.fwActTime) 63 = false ∧ s.phase ≠ 5 ∧ s.fw.queue = [] ∧ s.justTaken = false ∧ s.phase < 4 ∧
      bit ((mgmtE 0x1006 [64, 64]).w 5) 0 = false) ∧
    (let s := fwS (mgmtE 0x1003 []) id [(R.fwActTime, 0x8000000000000000), (R.fwStatus, 0x500), (R.fwHealthDeadline, 100)] 0
     bit (s.reg R.fwActTime) 63 = true ∧ s.phase = 5 ∧ ¬ (s.phase ∈ [0, 2, 3]) ∧ s.stagOut 0 = false ∧ s.stagOut 1 = false ∧ s.held = true ∧
      s.now < (s.reg R.fwHealthDeadline).toNat ∧ s.fw.policy = []) ∧
    (let s := fwS (mgmtE 0x1003 []) id [(R.fwStatus, 0x500), (R.fwHealthDeadline, 100)] 100
     s.phase ∈ [4, 5] ∧ (s.reg R.fwHealthDeadline).toNat ≤ s.now) ∧
    (parseDefaults 9 (fillData 8 [9, 0, 0, 0, 0, 0, 0, 0]) = some [(9, [])] ∧ parseDefaults 9 (fillData 8 []) = none) ∧
    (let s := fwS (mgmtE 0x1007 [64, 0x100000]) id [] 0
     (s.defaultRecords.flatMap defaultBytes).length ≤ 0x100000) ∧
    (let s := fwS (mgmtE 0x1007 [64, 7]) (fun f => { f with defaults := [(9, [])] }) [] 0
     7 < (s.defaultRecords.flatMap defaultBytes).length) ∧
    (let d := fillData 256 ([0, 0, 0, 0, 0, 0, 0x4B, 0x4F] : List Byte)
     ownerOk [] d = true ∧ zeroAt d 8 128 = true ∧ ownerOk [] (fillData 256 []) = false) ∧
    (State.reset.quote (fillData 64 (List.replicate 33 255)) = none) ∧
    (let s : State := { State.reset with fw := { FwState.reset with reload := [3] }, cores := [(864, { run0 with pause := none })] }
     3 ∈ s.fw.reload ∧ s.fw.pausing = none ∧ s.dieUp 3 = true ∧ 864 / 288 = 3 ∧ (s.coreAt 864).rs ≠ .fenced ∧
      (s.coreAt 864).pause = none ∧ (s.coreAt 864).stopping = false) ∧
    (let s : State := { State.reset with
       fw := { FwState.reset with reload := [3], pausing := some ⟨3, 0, []⟩ }
       cores := [(864, { run0 with rs := .haltedCtl, pause := some (.running, none) })] }
     s.fw.pausing = some ⟨3, 0, []⟩ ∧ (s.coreAt 864).pause = some (.running, none) ∧ (s.coreAt 864).stopping = false) := by decide +kernel

theorem factory_length : Config.factoryImage.length ≤ 2 ^ 24 := by
  have := Config.factoryLength.isLt
  simp only [Config.factoryImage, List.length_map, List.length_range]
  omega

theorem witness_FirmwareCommands_stage :
    let n := Config.factoryImage.length
    let e := mgmtE 0x1001 [64, BitVec.ofNat 64 n]
    MgmtAlone (fwS e id [] 0) 0x1001 [mask 0 64, mask 0 64, mask 0 64, mask 0 10, mask 0 64] e ∧ (e.w 4).toNat = n ∧ n ≤ 2 ^ 24 ∧
      fld (e.w 6) 0 10 = 0 ∧ (fwS e id [] 0).fw.queue = [] ∧ (fwS e id [] 0).justTaken = false ∧ (fwS e id [] 0).stageFault (fillData n Config.factoryImage) = none := by
  intro n e
  have hn : n ≤ 2 ^ 24 := factory_length
  have hf : fillData n Config.factoryImage = Config.factoryImage := by simp [fillData, n]
  have hm : ∀ w : Word, zeroOutside w (mask 0 64) = true := fun w => by
    have : mask 0 64 = BitVec.allOnes 64 := by decide
    simp [zeroOutside, this]
  refine ⟨⟨by decide +kernel, rfl, by decide, ?_, rfl, rfl⟩, ?_, hn, by decide, rfl, by decide +kernel, ?_⟩
  · simp [SqEntry.fieldsOk, SqEntry.w, e, mgmtE, rangeFrom, nth, hm]
    decide +kernel
  · show (BitVec.ofNat 64 n).toNat = n
    rw [BitVec.toNat_ofNat]
    omega
  · rw [hf]
    simp [State.stageFault, imageFault, jowaldOk, State.minVersion, fwS, mgmtS, FwState.reset]
    decide +kernel

theorem witness_FirmwareCommands_quote : ∃ r, ({ regS [(R.secStatus, 1)] with } : State).quote (fillData 64 []) = some r ∧
    r.length ≤ ((mgmtE 0x100B [64, 128, 4096]).w 5).toNat := ⟨_, rfl, by decide +kernel⟩

/-- A transfer of two blocks over the fabric, of which the first went at time 0, and one that arrives. -/
def head0 (wire : Bool) : ChainHead := ⟨0, 2, wire, [511], 0, 0⟩
def tx0 (sent : Nat) : ChainTx := ⟨[], head0 false, sent, 0⟩

theorem witness_FirmwareCommands_chain :
    (let s := fwS (mgmtE 0 []) id [(R.fwStatus, 0x400)] 0
     1 < (head0 false).total ∧ s.held = true ∧ s.chainBusy = true) ∧
    (let s := fwS (mgmtE 0 []) id [] 0
     s.chainBusy = false ∧ 2 ≤ (head0 false).total ∧ s.fw.rx = none) ∧
    (let s := fwS (mgmtE 0 []) (fun f => { f with tx := some (tx0 0) }) [(R.fabStatus, 1)] 1000000000
     s.fw.tx = some (tx0 0) ∧ (tx0 0).time + 1000000000 ≤ s.now ∧ (tx0 0).sent + 1 < (tx0 0).head.total ∧ bit (s.reg R.fabStatus) 0 = true ∧
      (tx0 1).head.total ≤ (tx0 1).sent + 1) ∧
    (let x : ChainRx := ⟨head0 true, []⟩
     (fwS (mgmtE 0 []) (fun f => { f with rx := some x }) [] 0).fw.rx = some x ∧ x.head.wire = true) ∧
    (∀ at_ ∈ [0, 7], let x : Staging := ⟨[], at_, none, true⟩
     (fwS (mgmtE 0 []) (fun f => { f with staging := some x }) [] 0).fw.staging = some x ∧ x.written = true ∧ x.entry = none) := by
  decide +kernel

theorem witness_LedgerAndDebug :
    (let s := { fwS (mgmtE 0 []) id [] 3600010000000 with life := { LifeState.reset with apart := false } }
     s.held = true ∧ s.life.apart = false ∧ s.hourEnd + 10000000 ≤ s.now) ∧
    (let s := fwS (mgmtE 0 []) id [] 86400010000000
     s.dayEnd + 10000000 ≤ s.now) ∧
    (State.reset.now < State.reset.hourEnd + 10000000 ∧ State.reset.now < State.reset.dayEnd + 10000000) ∧
    (((mgmtE 0x1101 [64, 4096]).w 3).toNat % 64 = 0 ∧ ((mgmtE 0x1101 [63, 4096]).w 3).toNat % 64 ≠ 0 ∧ 4096 ≤ ((mgmtE 0x1102 [64, 4096]).w 4).toNat ∧
      ((mgmtE 0x1102 [64, 4095]).w 4).toNat < 4096) ∧
    (∀ b : Bool, ({ FwState.reset with queue := [.slot b [1]] } : FwState).queue = [.slot b [1]] ∧
      ({ FwState.reset with queue := [.ledger b 7 []] } : FwState).queue = [.ledger b 7 []]) ∧
    (let e := mgmtE 0x1009 [64]
     let s := fwS e (fun f => { f with queue := [.owner e.ring e.index 1 [1]] }) [] 0
     s.held = true ∧ s.fw.queue = [.owner e.ring e.index 1 [1]] ∧ (s.sq e.ring).fetched = [] ∧ (s.sq e.ring).started = [e]) ∧
    (∀ o ∈ [0, 1, 2], let s := regS [(R.dbgSramStatus, BitVec.ofNat 64 o)]
     s.rfld R.dbgTraceCtl 63 1 = 0 ∧ s.rfld R.dbgHistCtl 63 1 = 0 ∧ s.sramOwner = o) ∧
    (0x800000000000FF1F#64 &&& ~~~ 0x800000000000FF1F = 0 ∧ bit (0x800000000000FF1F#64) 63 = true ∧ 0x800000000000001F#64 &&& ~~~ 0x800000000000001F = 0) ∧
    (let s := { regS [(R.dbgSramStatus, 1), (R.dbgTraceCtl, 0x8000000000000800)] with pkg := { State.reset.pkg with tracing := true } }
     s.sramOwner = 1 ∧ s.pkg.tracing = true ∧ bit (s.reg R.dbgTraceCtl) 11 = true ∧ bit (s.reg R.dbgSramStatus) 16 = false) ∧
    (let s := regS [(R.dbgSramStatus, 0x10001)]
     bit (s.reg R.dbgSramStatus) 16 = true ∧ s.pkg.traceLeft = 0) := by decide +kernel

/-! Package pins, JTAG and MCTP (R531 to R554). -/

/-- The reset state with other pins, and with another cold-reset state. -/
def pinS (f : PkgState → PkgState) (l : List (Nat × Word)) : State := { regS l with pkg := f PkgState.reset }
def coldS (c : Option Nat) : State := { State.reset with therm := { ThermState.reset with cold := c } }

theorem witness_PackageAndJtag :
    ((pinS (fun p => { p with vio := false }) []).pkg.vio = false ∧ State.reset.pkg.vio = true ∧
      (pinS (fun p => { p with pwrgood := false }) []).pkg.pwrgood = false ∧ State.reset.pkg.pwrgood = true ∧ State.reset.pkg.resetN = false ∧
      State.reset.therm.cold = none) ∧
    ((pinS (fun p => { p with pulse := some 5 }) []).pkg.pulse = some 5 ∧ 90004 < 5 + 90000) ∧
    (State.reset.pkg.pulse = none ∧ State.reset.phase ≠ 7 ∧ bit (State.reset.reg R.fwActTime) 63 = false ∧ State.reset.timeSource ≠ 2) ∧
    (let s := regS [(R.clkTimeCtl, 2), (R.clkTimeStatus, 1), (R.mgtSyncCtl, 0x6400000 + 7)]
     s.pkg.vio = true ∧ s.phase ≠ 7 ∧ s.timeSource = 2 ∧ s.aligned = true ∧ 0 < s.syncPeriod ∧
      3 * s.syncPeriod + 7 = 3 * s.syncPeriod + s.rfld R.mgtSyncCtl 0 16) ∧
    (let s := regS [(R.mgtSyncCtl, 0x6410000)]
     s.rfld R.mgtSyncCtl 16 2 = 1 ∧ 100000 ≤ s.syncPeriod ∧ s.syncPeriod ≤ 1000000000 ∧ s.pkg.made = none ∧ s.pkg.jtag < 3 ∧
      s.now / s.syncPeriod * s.syncPeriod = 0 ∧ s.timeSource ≠ 2 ∧ s.now ≤ 0 + 10) ∧
    (let s := { regS [(R.mgtSyncCtl, 0x6410000)] with time := { State.reset.time with systime := 11 } }
     s.now / s.syncPeriod * s.syncPeriod + 10 < s.now ∧ (regS [(R.mgtSyncCtl, 0x6410000), (R.clkTimeCtl, 2)]).timeSource = 2) ∧
    ((pinS (fun p => { p with made := some 0 }) []).pkg.made = some 0) ∧
    (SMap.get (fun _ => 0) (pinS (fun p => { p with rails := [(17, 1)] }) []).pkg.rails 17 = 1) ∧
    ((pinS (fun p => { p with alert := true }) []).pkg.alert = true ∧ State.reset.pkg.alert = false ∧ State.reset.therm.tripped = false) ∧
    0x3F#64 &&& ~~~ 0x3F = 0 := by decide +kernel

theorem witness_MctpCommands :
    (State.reset.pkg.vio = true ∧ State.reset.mctpOff = false ∧ (coldS (some 2)).mctpOff = true) ∧
    ((0 : Byte) ∈ [(0xFF : Byte), 0, 0x7F] ∧ (1 : Byte) ∉ [(0xFF : Byte), 0, 0x7F]) ∧
    (State.reset.quote [] = none ∧ 1097 < (1098 : BitVec 16).toNat ∧ (0 : BitVec 16).toNat + (0 : BitVec 16).toNat ≤ 0) ∧
    (let r : LifeRec := ⟨7, 0, []⟩
     let s := { State.reset with life := { LifeState.reset with hourLog := [r] } }
     (s.ledgerLog 1).find? (fun r => decide (r.seq = (7 : BitVec 32).toNat)) = some r ∧ ∀ r ∈ State.reset.ledgerLog 1, r.seq ≠ 7) ∧
    (State.reset.phase ≠ 7 ∧ (regS [(R.fwStatus, 0x700)]).phase = 7 ∧ (regS [(R.fwStatus, 0x700)]).mctpOff = false) ∧
    (State.reset.overlap = false ∧ (let s := regS [(R.mgtStagStatus, 0x10340)]
      s.overlap = true ∧ s.stagState 1 = 3 ∧ s.fw.tx = none)) ∧
    ({ State.reset with therm := { ThermState.reset with trip := some (3, 900, 100) } } : State).therm.trip = some (3, 900, 100) ∧
    ((7 : Byte).toNat ≤ 7 ∧ (2511 : BitVec 16).toNat < 2512 ∧ 7 < (8 : Byte).toNat ∧ 2512 ≤ (2512 : BitVec 16).toNat) := by decide +kernel

theorem witness_MctpCommands_quote : ∃ r, (regS [(R.secStatus, 1)]).mctpOff = false ∧ (regS [(R.secStatus, 1)]).quote (fillData 64 []) = some r :=
  ⟨_, rfl, rfl⟩

/-- A recovery device whose buffer holds the factory's image from byte 0 on, and one that holds nothing under a policy of minimum 1. -/
def recoveryS (m : List (Nat × Byte)) (p : List Byte) : State :=
  { regS [(R.fwStatus, 0x700)] with
    fw := { FwState.reset with
      recovery := m
      policy := p } }

theorem rangeFrom_range (n : Nat) : ∀ a, rangeFrom a n = List.range' a n := by
  induction n with
  | zero => intro a; rfl
  | succ n ih => intro a; simp [rangeFrom, List.range', ih]

theorem get_range (n i : Nat) (h : i < n) : ∀ k, k ≤ i →
    SMap.get (fun _ => 0) (((List.range n).drop k).map fun j => (j, Config.factoryByte j)) i = Config.factoryByte i := by
  intro k hk
  induction hm : i - k generalizing k with
  | zero =>
    have : k = i := by omega
    subst this
    rw [List.drop_eq_getElem_cons (by simpa using h)]
    simp [SMap.get]
  | succ m ih =>
    have hkn : k < n := by omega
    rw [List.drop_eq_getElem_cons (by simpa using hkn)]
    have hne : i ≠ k := by omega
    simp only [List.getElem_range, List.map_cons, SMap.get, hne, if_false]
    exact ih (k + 1) (by omega) (by omega)

theorem witness_MctpCommands_commit :
    let s := recoveryS ((List.range Config.factoryLength.val).map fun j => (j, Config.factoryByte j)) []
    let total := BitVec.ofNat 32 Config.factoryLength.val
    s.phase = 7 ∧ total.toNat ≤ 2 ^ 24 ∧ bootInForce s.fw.copies = s.fw.boot ∧
      imageFault s.minVersion ((rangeFrom 0 total.toNat).map fun i => SMap.get (fun _ => 0) s.fw.recovery i) = none := by
  intro s total
  have hl := Config.factoryLength.isLt
  have ht : total.toNat = Config.factoryLength.val := by
    show (BitVec.ofNat 32 _).toNat = _
    rw [BitVec.toNat_ofNat]
    omega
  refine ⟨by show (regS [(R.fwStatus, 0x700)]).phase = 7; decide +kernel, by omega, rfl, ?_⟩
  have hd : ((rangeFrom 0 total.toNat).map fun i => SMap.get (fun _ => 0) s.fw.recovery i) = Config.factoryImage := by
    rw [ht, rangeFrom_range, ← List.range_eq_range']
    apply List.map_congr_left
    intro i hi
    have := get_range Config.factoryLength.val i (by simpa using hi) 0 (by omega)
    simpa [s, recoveryS] using this
  rw [hd]
  have hm : s.minVersion = 0 := rfl
  simp [imageFault, jowaldOk, hm]

theorem witness_MctpCommands_refused :
    ∃ c, imageFault (recoveryS [] (List.replicate 64 1)).minVersion [] = some c := by
  have h : imgSecver [] < (recoveryS [] (List.replicate 64 1)).minVersion := by decide +kernel
  unfold imageFault
  split
  · exact ⟨_, rfl⟩
  · simp

/-! Ill-formed commands, one for each check; each check also lets the nearest good term through. -/

/-- The head of a transfer of two blocks. -/
def chain0 : ChainHead := ⟨0, 2, false, [], 0, 0⟩

/-- What is wrong with a packet, one field at a time. -/
def badPkts : List Pkt :=
  let p := pkt0 0
  [{ p with type := 32 }, { p with srcDev := 512 }, { p with srcDie := 8 }, { p with srcRow := 16 }, { p with srcCol := 18 },
    { p with dstDev := 512 }, { p with dstDie := 8 }, { p with dstRow := 16 }, { p with dstCol := 18 }, { p with tag := 256 },
    { p with job := 64 }, { p with mc := 4 }, { p with mcLast := 32 }, { p with red := 8 }, { p with ctx := 64 }, { p with aux := 256 },
    { p with chunk := 128 }, { p with addr := 2 ^ 48 }, { p with data := List.replicate 257 0 }, { p with t0 := 2 ^ 32 },
    { p with poison := [4] }]

/-- A flit with 64 B of payload, and what is wrong with one, a field at a time. -/
def flit64 (ftype : Nat) (pkt : Option Pkt) : Flit := ⟨511, 511, 3, 3, ftype, 4095, false, false, List.replicate 64 0, pkt⟩
def badFlits : List Flit :=
  let f := flit64 4 (some (pkt0 0))
  [{ f with dst := 512 }, { f with src := 512 }, { f with vn := 4 }, { f with vc := 4 }, { f with ftype := 0 }, { f with ftype := 5 },
    { f with seq := 4096 }, { f with data := [] }, { f with pkt := none }, { f with ftype := 2 }]

theorem smoke_flit_fields : (badFlits.all fun f => !f.wf) = true ∧ (flit64 4 (some (pkt0 0))).wf = true ∧ (flit64 3 none).wf = true := by
  decide +kernel

theorem smoke_packet_fields : (badPkts.all fun p => !p.wf) = true ∧ (pkt0 0).wf = true := by decide +kernel

theorem smoke_packets : ∀ b : Bool, let p := if b then pkt0 0 else { pkt0 0 with type := 32 }
    (List.all (α := Instr) [.memRd p [], .memWr p [], .memAtom p [], .memRdData p, .memAck p, .cput p, .cputAck p, .msg p, .msgAccept p, .msgRefuse p, .status p,
      .tailAck p, .psWr p, .csrRdRequest p, .csrWrRequest p, .mgtRsp p, .red at0 0 p, .mcast at0 p, .burstStart 0 [] [p],
      .chometPacket 0 1 0 true p, .linkFlit 0 (flit64 1 (some p)) .good none 0 0, .routePacket 0 (some p), .fence p,
      .unfence p, .cmap p, .time 0 p, .ctxReady p, .ctxAbort p, .collectiveChunk 0 p false 0 0, .transportReply p, .replayTableLookup p,
      .replayTableStore p, .xack p]
      (fun i => i.wf == b)) = true := by decide +kernel

theorem smoke_commands : (List.all (α := Instr) [
    .hbmLaneRepaired 0 0 256, .walkEntryRead at0 .ok 3 [], .faultTimeout (2 ^ 32), .invalidationDone 16, .chometPacket 0 1 (2 ^ 16) true (pkt0 0),
    .chometResendTimeout 0 1 (2 ^ 16), .trainFlit 0 512 ⟨0, 0, 0⟩, .trainFlit 0 0 ⟨12, 0, 0⟩, .linkFlit 0 (flit64 1 none) .good none 0 0,
    .linkFlit 0 (flit64 2 none) (.codeword 8) none 0 0, .flitNak 0 (2 ^ 12), .retrainComplete 0 0 (2 ^ 12),
    .xackTimer 0 512, .replayEntryExpire 0 2048, .nogarRetrainDone 17, .dmWr 0 [] .ok, .dmWr 0 (List.replicate 65 0) .ok,
    .nogarData 0 0 (List.replicate 65 0), .rwsRegisterWrite (2 ^ 24) 8 false 0, .rwsRegisterWrite 4 8 false 0,
    .bolTrainFrame true 0 0 0 0 33, .bolFrame 0 ⟨true, 5⟩ false false 0 0, .bolRetrainDone 33, .sdata 0 true true false false 0 [], .sdata 0 true true false false 0 (List.replicate 4097 0),
    .ingressPoll 0 3 0 .ok, .egressPoll 0 3 0 .ok, .coldReset ⟨[], [(320, [])], [], [], [], [], true⟩,
    .coldReset ⟨[], [(0, [(132, 0)])], [], [], [], [], true⟩, .coldReset ⟨[], [(0, [(0, 100)])], [], [], [], [], true⟩,
    .coldReset ⟨[], [], [(12, 0, 0)], [], [], [], true⟩, .coldReset ⟨[], [], [(0, 32, 0)], [], [], [], true⟩,
    .coldReset ⟨[], [], [(0, 0, 256)], [], [], [], true⟩, .coldReset ⟨[], [], [], [], [2 ^ 32], [], true⟩, .sensorSample 0 2048, .sensorSample 0 (-2049),
    .hbmEstimateUpdate 0 2 1, .chainInFrame chain0 0 (List.replicate 4097 0) true, .vioInRange 512, .pwrgoodRise 512, .syncInPulse (2 ^ 64),
    .registerWrite (2 ^ 24) 8 false 0, .registerWrite 4 8 false 0] (fun i => !i.wf)) = true := by decide +kernel

theorem smoke_good_commands : (List.all (α := Instr) [
    .hbmLaneRepaired 0 0 255, .walkEntryRead at0 .ok 2 [], .faultTimeout (2 ^ 32 - 1), .invalidationDone 15,
    .chometPacket 0 1 (2 ^ 16 - 1) true (pkt0 0), .chometResendTimeout 0 1 (2 ^ 16 - 1), .trainFlit 0 511 ⟨11, 0, 0⟩,
    .linkFlit 0 (flit64 2 none) (.codeword 7) none 0 0, .flitNak 0 (2 ^ 12 - 1), .retrainComplete 0 0 (2 ^ 12 - 1),
    .xackTimer 0 511, .replayEntryExpire 0 2047, .nogarRetrainDone 16, .dmWr 0 (List.replicate 64 0) .ok, .nogarData 0 0 (List.replicate 64 0),
    .rwsRegisterWrite (2 ^ 24 - 8) 8 false 0, .bolTrainFrame true 0 0 0 0 32, .bolFrame 0 ⟨true, 4⟩ false false 0 0, .bolRetrainDone 32,
    .sdata 0 true true false false 0 (List.replicate 4096 0), .ingressPoll 0 2 0 .ok, .egressPoll 0 2 0 .ok,
    .coldReset ⟨[], [(319, [(131, 99)])], [(11, 31, 255)], [], [2 ^ 32 - 1], [], true⟩, .sensorSample 0 2047, .sensorSample 0 (-2048), .hbmEstimateUpdate 0 1 1,
    .chainInFrame chain0 0 (List.replicate 4096 0) true, .vioInRange 511, .pwrgoodRise 511, .syncInPulse (2 ^ 64 - 1),
    .registerWrite (2 ^ 24 - 8) 8 false 0] Instr.wf) = true := by decide +kernel

/-! Single commands and operations, on values worked out by hand from the rules, or from the standards they name. -/

/-- What g3 holds after an instruction on g1 and g2. -/
def g3 (i : Instr) (a b : Word) : Option Word :=
  match exec i (coreS { run0 with g := [(1, a), (2, b)] }) with
  | .next t => some ((t.coreAt 0).rg 3)
  | _ => none

/-- Which of p1 to p7 is set after an instruction on g1 and g2. -/
def p7 (i : Instr) (a b : Word) : Option Bool :=
  match exec i (coreS { run0 with g := [(1, a), (2, b)] }) with
  | .next t => some ((t.coreAt 0).pr 7)
  | _ => none

/-! Words written out field by field from the tables of R32, R34 and R37, one for each format. -/

theorem test_decode_R : decodeTableWord 32 0b1_111_000000_00011_00001_00010_0000001 = some (.sub { i0 with pn := true, pr := 7 } 3 1 2) := by
  decide +kernel
theorem test_decode_I : decodeTableWord 32 0b0_000_010011_11111_00001_111111111000 = some (.ldD i0 31 1 0xFF8 .ok) := by decide +kernel
theorem test_decode_H : decodeTableWord 32 0b0_000_001010_00010_1_1010101111001101 = some (.ldh i0 2 2 true 0xABCD) := by decide +kernel
theorem test_decode_B : decodeTableWord 32 0b0_001_011101_1111111111111111111110 = some (.call { i0 with pr := 1 } 0x3FFFFE) := by decide +kernel
theorem test_decode_D : decodeTableWord 32 0b0_000_100000_00101_00000000000000011 = some (.dbnz i0 5 3) := by decide +kernel
theorem test_decode_C : decodeTableWord 32 0b0_000_001100_111_00_00001_00010_000_0100 = some (.cmp i0 7 1 2 4 0 0) := by decide +kernel
theorem test_decode_CI : decodeTableWord 32 0b0_000_001101_110_0111_00001_1111111111 = some (.cmpi i0 6 7 1 0x3FF) := by decide +kernel
theorem test_decode_P : decodeTableWord 32 0b0_000_001110_111_001_010_011_0000000000 = some (.plog i0 7 1 2 3 0) := by decide +kernel
theorem test_decode_E : decodeTableWord 32 0b0_000_100001_110_00100_1_011_0000000000 = some (.iss i0 6 4 true 3 0) := by decide +kernel
theorem test_decode_Q : decodeTableWord 32 0b0_000_100010_110_1111_00001_0000000000 = some (.qwait i0 6 15 1 0) := by decide +kernel
theorem test_decode_K : decodeTableWord 32 0b0_000_100110_00001_1111_1000000000001 = some (.cntAdd i0 1 15 0x1001) := by decide +kernel
theorem test_decode_sys : decodeTableWord 32 0b0_000_101101_00000_00001_00000_0000010 = some (.trap i0 0 1 0) := by decide +kernel

/-- R37: sums and differences wrap; shifts take six bits of the amount. -/
theorem test_add_wraps : g3 (.add i0 3 1 2) 0xFFFFFFFFFFFFFFFF 2 = some 1 := by decide +kernel
theorem test_sub_wraps : g3 (.sub i0 3 1 2) 1 2 = some 0xFFFFFFFFFFFFFFFF := by decide +kernel
theorem test_shl_amount : g3 (.shl i0 3 1 2) 3 0x43 = some 24 := by decide +kernel
theorem test_sra_sign : g3 (.sra i0 3 1 2) 0x8000000000000000 63 = some 0xFFFFFFFFFFFFFFFF := by decide +kernel
theorem test_shr_zero_fill : g3 (.shr i0 3 1 2) 0x8000000000000000 63 = some 1 := by decide +kernel
theorem test_mulh_signed : g3 (.mulh i0 3 1 2) 0xFFFFFFFFFFFFFFFF 2 = some 0xFFFFFFFFFFFFFFFF := by decide +kernel
theorem test_mulhu_unsigned : g3 (.mulhu i0 3 1 2) 0xFFFFFFFFFFFFFFFF 2 = some 1 := by decide +kernel
theorem test_min_signed : g3 (.min i0 3 1 2) 0xFFFFFFFFFFFFFFFF 1 = some 0xFFFFFFFFFFFFFFFF := by decide +kernel
theorem test_minu_unsigned : g3 (.minu i0 3 1 2) 0xFFFFFFFFFFFFFFFF 1 = some 1 := by decide +kernel
theorem test_clz_zero : g3 (.clz i0 3 1 0) 0 0 = some 64 := by decide +kernel
theorem test_popc : g3 (.popc i0 3 1 0) 0x8000000000000007 0 = some 4 := by decide +kernel
theorem test_divu_by_zero : g3 (.divu i0 3 1 2) 7 0 = some 0xFFFFFFFFFFFFFFFF := by decide +kernel
theorem test_remu_by_zero : g3 (.remu i0 3 1 2) 7 0 = some 7 := by decide +kernel
theorem test_andi_extends : g3 (.andi i0 3 1 0x800) 0xFFFFFFFFFFFFFFFF 0 = some 0xFFFFFFFFFFFFF800 := by decide +kernel
theorem test_ldh_clears : g3 (.ldh i0 2 3 true 0xABCD) 0 0 = some 0x0000ABCD00000000 := by decide +kernel
theorem test_cmp_ltu : p7 (.cmp i0 7 1 2 4 0 0) 1 0xFFFFFFFFFFFFFFFF = some true ∧ p7 (.cmp i0 7 1 2 2 0 0) 1 0xFFFFFFFFFFFFFFFF = some false := by
  decide +kernel
theorem test_cmpi_extends : p7 (.cmpi i0 7 0 1 0x3FF) 0xFFFFFFFFFFFFFFFF 0 = some true := by decide +kernel
theorem test_plog_not : p7 (.plog i0 7 1 0 4 0) 0 0 = some true := by decide +kernel

/-- R37: a byte load extends the sign; bytes lie low first. -/
theorem test_st_ld_order :
    (match exec (.stD i0 1 2 8) (coreS { run0 with g := [(1, 0x80), (2, 0)] }) with
     | .next t => match exec (.ldB i0 3 2 8 .ok) t with
       | .next t => some ((t.coreAt 0).rg 3)
       | _ => none
     | _ => none) = some 0xFFFFFFFFFFFFFF80 := by decide +kernel

/-- R127: the largest finite values, and the smallest subnormals. -/
theorem test_formats : decodeFloat .bf16 0x3F80 = .fin false 128 (-7) ∧ decodeFloat .fp16 0x0001 = .fin false 1 (-24) ∧
    decodeFloat .e4m3 0x7E = .fin false 14 5 ∧ decodeFloat .e5m2 0x7B = .fin false 7 13 ∧ decodeFloat .e4m3 0x7F = .nan := by decide +kernel

/-- R129, R131: to nearest, ties to even; beyond the largest value to infinity, or saturated. -/
theorem test_rounding : encodeFloat .bf16 0 0 false (.fin false 257 0) = 0x4380 ∧ encodeFloat .bf16 0 0 false (.fin false 259 0) = 0x4382 ∧
    encodeFloat .fp16 0 0 false (.fin false 65520 0) = 0x7C00 ∧ encodeFloat .fp16 0 0 true (.fin false 65520 0) = 0x7BFF := by decide +kernel

/-- The check value of the CRC-32 of ISO-HDLC, of the digits 1 to 9. -/
theorem test_crc32 : crc32 [0x31, 0x32, 0x33, 0x34, 0x35, 0x36, 0x37, 0x38, 0x39] = 0xCBF43926 := by decide +kernel

/-- FIPS 180-4: the SHA-384 of "abc". -/
theorem test_sha384 : bytesBig (sha384 [0x61, 0x62, 0x63]) =
    0xcb00753f45a35e8bb5a03d699ac65007272c32ab0eded1631a8b605a43ff5bed8086072ba1e7cc2358baeca134c825a7 := by decide +kernel

/-- RFC 5639: the base point of brainpoolP384r1 lies on the curve, and q times it is the point at infinity. -/
theorem test_curve : bpY ^ 2 % bpP = (bpX ^ 3 + bpA * bpX + bpB) % bpP ∧
    ((⟨bpX, bpY, 1⟩ : JacPt).mul bpQ 384).z = 0 := by decide +kernel

/-- R225: interleave slots of the default map go over the stacks 0, 6, 1, 7 and so on, 32 pseudo-channels each. -/
theorem test_default_map : nth 0 defaultMap 0 = 0 ∧ nth 0 defaultMap 1 = 192 ∧ nth 0 defaultMap 2 = 32 ∧ nth 0 defaultMap 12 = 1 := by
  decide +kernel

/-- R554: BYPASS is a register of one bit, captured 0. -/
theorem test_bypass : (match exec .bypass State.reset with
    | .next t => some t.out
    | _ => none) = some [.jtag 1 0] := by decide +kernel

end Sys2Proof.Tests
end

/-!
PROOFS. The configuration window, the host's accesses and the CSRs of a core: what a read answers, what a write leaves.
-/

namespace Sys2Proof.Machine

/-! What the configuration window reads and writes (R2, R6 to R10, R337). -/

/-- A masked word has no reserved bit set (R9). -/
theorem and_mask_reserved (w m : Word) : w &&& m &&& ~~~ m = 0 := by
  rw [BitVec.and_assoc, BitVec.and_not_self]
  exact BitVec.and_zero

/-- Outside the die windows an offset that holds no register reads 0 (R10). -/
theorem State.regRead_of_find_none (s : State) {off : Nat} (hw : ¬ (0x500000 ≤ off ∧ off < 0xD00000))
    (hf : Regs.find off = none) : s.regRead off = 0 := by
  unfold State.regRead
  rw [if_neg hw, hf]

/-- Outside the die windows a register reads some word with the reserved bits cleared, 0 where it is write-only. -/
theorem State.regRead_of_find_some (s : State) {off : Nat} {r : RegRow} (hw : ¬ (0x500000 ≤ off ∧ off < 0xD00000))
    (hf : Regs.find off = some r) : ∃ w : Word, s.regRead off = w &&& r.mask ∧ (r.access = .wo → w = 0) := by
  unfold State.regRead
  rw [if_neg hw, hf]
  exact ⟨_, rfl, fun h => if_pos h⟩

/-- Settles O9: no step can change these reads, since each is fixed in the read itself. -/
theorem hardwiredReads : Obligations.HardwiredReads := by
  intro s
  refine ⟨fun k => ⟨Core.rg_zero _, Core.pr_zero _⟩, fun off hw => ⟨s.regRead_of_find_none hw, fun r hf => ?_⟩⟩
  obtain ⟨w, hr, hwo⟩ := s.regRead_of_find_some hw hf
  rw [hr]
  refine ⟨fun h => ?_, ?_⟩
  · rw [hwo h]
    exact BitVec.zero_and
  · exact and_mask_reserved w r.mask

/-! Messages to the host over a free link (R329, R332). -/

/-- The link is free or not by its state and by what the host attachment keeps. -/
theorem HostOpen.of_eq {s t : State} (h : HostOpen s) (hh : t.host = s.host)
    (hr : t.reg R.hifLinkStatus = s.reg R.hifLinkStatus) : HostOpen t := by
  unfold HostOpen State.hifUp State.hifState State.rfld State.hifCredit at h ⊢
  rw [hh, hr]
  exact h

/-- A count of misused accesses leaves the link free. -/
theorem HostOpen.count_hifLinkErr {s : State} (h : HostOpen s) (lo len : Nat) : HostOpen (s.count R.hifLinkErr lo len) :=
  h.of_eq rfl (s.reg_count_other lo len (by decide))

/-- Over a free link a response leaves at once, and nothing else changes but the host attachment's own records. -/
theorem HostOpen.nogar_response {s : State} (h : HostOpen s) (tag addr status : Nat) (data : List Byte) :
    ∃ a, s.nogar 0x20 tag addr status data = { s with host := a, out := s.out ++ [.nogar 0x20 tag addr status data] } := by
  obtain ⟨hup, hmsgs, hsent, -, hcr⟩ := h
  have hmay : s.hifMay ⟨0x20, tag, addr, status, data⟩ = true := by
    simp [State.hifMay, HostMsg.cls, hup, hsent, hcr]
  unfold State.nogar
  simp only [hmay, hmsgs, List.all_nil, Bool.and_self, if_true]
  exact ⟨_, rfl⟩

/-! Accesses of the host to device memory (R226, R227, R335). -/

/-- A clean line reads good, and nothing is recorded. -/
theorem State.readLine_clean {s : State} {line : Nat} (h : s.lineBad line = false) : s.readLine line .ok = (s, true) := by
  simp [State.readLine, h]

/-- A whole line has no part that must be read first. -/
theorem partLines_whole {a : Nat} (h : a % 64 = 0) : partLines a 64 = [] := by
  have hl : linesOf a 64 = 1 := by
    rw [linesOf, if_neg (by decide)]
    omega
  rw [partLines, hl, List.filter_eq_nil_iff]
  intro l hm
  have : l = a / 64 := by simpa [rangeFrom] using hm
  simp only [Bool.or_eq_true, decide_eq_true_eq]
  omega

/-- Marking lines changes nothing outside the memory stops. -/
theorem State.foldl_setLineBad_frame (p : Nat → Bool) (l : List Nat) (s : State) :
    ∃ m, l.foldl (fun s n => if p n then s else s.setLineBad n false) s = { s with mem := m } := by
  induction l generalizing s with
  | nil => exact ⟨s.mem, rfl⟩
  | cons n l ih =>
    rw [List.foldl_cons]
    split
    · exact ih s
    · obtain ⟨m, hm⟩ := ih (s.setLineBad n false)
      exact ⟨m, hm⟩

/-- A write of a whole line puts its bytes in memory whatever the line read before, and records nothing. -/
theorem State.memWrite_line (s : State) {a : Nat} {d : List Byte} (ecc : List LineRead) (ha : a % 64 = 0) (hd : d.length = 64) :
    ∃ t, (s.memWrite a d ecc).1 = t ∧ t.out = s.out ∧ t.regs = s.regs ∧ t.cores = s.cores ∧
      t.mem.bytes = Mem.write s.mem.bytes a d := by
  obtain ⟨m, hm⟩ := s.foldl_setLineBad_frame (fun l => [].contains l) (rangeFrom (a / 64) (linesOf a 64))
  have hb := s.memWrite_bytes a d ecc
  unfold State.memWrite at hb ⊢
  simp only [hd, partLines_whole ha, List.foldl_nil, Bool.not_true, Bool.false_eq_true, if_false, if_true] at hb ⊢
  rw [hm] at hb ⊢
  exact ⟨_, rfl, rfl, rfl, rfl, hb⟩

theorem nth_eq_getElem {α : Type} (d : α) (l : List α) {j : Nat} (h : j < l.length) : nth d l j = l[j] := by
  induction l generalizing j with
  | nil => simp at h
  | cons x t ih =>
    cases j with
    | zero => rfl
    | succ j => exact ih (by simpa using h)

theorem State.dmRead_beyond {s : State} (hw : s.hostWaits = false) {a n : Nat} (h : s.capacity < a + n) (tag : Nat) (e : LineRead) :
    s.dmRead tag a n e = (s.count R.hifLinkErr 32 16).nogar 0x20 tag a 2 [] := by
  simp [State.dmRead, hw, h]

theorem State.dmRead_clean {s : State} (hw : s.hostWaits = false) {a n : Nat} (h : a + n ≤ s.capacity)
    (ho : s.stackOut a = false) (hc : s.channelHeld a = false) (hb : s.lineBad (a / 64) = false) (tag : Nat) :
    s.dmRead tag a n .ok = s.nogar 0x20 tag a 0 (Mem.bytes s.mem.bytes a n) := by
  simp [State.dmRead, hw, ho, hc, Nat.not_lt.mpr h, State.readLine_clean hb]

theorem State.dmRead_repaired {s : State} (hw : s.hostWaits = false) {a n : Nat} (h : a + n ≤ s.capacity)
    (ho : s.stackOut a = false) (hc : s.channelHeld a = true) (tag : Nat) (e : LineRead) :
    s.dmRead tag a n e = s.holdMem (.dmRd tag a n e) := by
  simp [State.dmRead, hw, ho, hc, Nat.not_lt.mpr h]

theorem State.dmRead_waits {s : State} (hw : s.hostWaits = true) (tag a n : Nat) (e : LineRead) :
    s.dmRead tag a n e = s.holdMem (.dmRd tag a n e) := if_pos hw

theorem State.dmWrite_beyond {s : State} (hw : s.hostWaits = false) {a : Nat} {d : List Byte} (h : s.capacity < a + d.length)
    (e : LineRead) : s.dmWrite a d e = s.count R.hifLinkErr 32 16 := by
  simp [State.dmWrite, hw, h]

theorem State.dmWrite_made {s : State} (hw : s.hostWaits = false) {a : Nat} {d : List Byte} (h : a + d.length ≤ s.capacity)
    (ho : s.stackOut a = false) (hc : s.channelHeld a = false) (e : LineRead) : s.dmWrite a d e = (s.memWrite a d [e]).1 := by
  simp [State.dmWrite, hw, ho, hc, Nat.not_lt.mpr h]

theorem State.dmWrite_waits {s : State} (hw : s.hostWaits = true) (a : Nat) (d : List Byte) (e : LineRead) :
    s.dmWrite a d e = s.holdMem (.dmWr a d e) := if_pos hw

/-! Accesses of the host to the configuration window (R2, R337). -/

theorem State.windowWrite_whole (s : State) {off : Nat} (h : off % 8 = 0) (v : Word) : s.windowWrite off 8 v = s.regWrite off v := by
  simp [State.windowWrite, accessOk, h]

theorem State.windowWrite_misused (s : State) {off size : Nat} (h : accessOk off size = false) (v : Word) :
    s.windowWrite off size v = s.count R.hifLinkErr 48 16 := by
  simp [State.windowWrite, h]

/-- A whole read answers what the register reads; it may draw a free value, and changes nothing else. -/
theorem State.windowRead_whole (s : State) {off : Nat} (h : off % 8 = 0) :
    ∃ n, s.windowRead off 8 = (s.drew n, wordBytes (s.regRead off)) := by
  have hr : off / 8 * 8 = off := by omega
  unfold State.windowRead
  simp only [accessOk, h, hr, decide_true, Bool.and_self, Bool.true_or, Bool.not_true, Bool.false_eq_true, if_false, if_true]
  split
  · exact ⟨1, rfl⟩
  · exact ⟨0, rfl⟩

theorem State.windowRead_misused (s : State) {off size : Nat} (h : accessOk off size = false) :
    s.windowRead off size = (s.count R.hifLinkErr 48 16, List.replicate size 0) := by
  simp [State.windowRead, h]

theorem exec_crRd_cold {s : State} (h : s.therm.cold.isSome = true) (tag : BitVec 12) (off : BitVec 24) (len : Fin 64) :
    exec (.crRd tag off len) s = .next s := congrArg _ (if_pos h)

theorem exec_crWr_cold {s : State} (h : s.therm.cold.isSome = true) (off : BitVec 24) (len : Fin 64) (v : Word) :
    exec (.crWr off len v) s = .next s := congrArg _ (if_pos h)

theorem exec_crRd_waits {s : State} (h : s.therm.cold = none) (hw : s.hostWaits = true) (tag : BitVec 12) (off : BitVec 24)
    (len : Fin 64) : exec (.crRd tag off len) s = .next (s.holdMem (.crRd tag.toNat off.toNat (len.val + 1))) := by
  show execCrRd tag off len s = _
  simp [execCrRd, h, hw]

theorem exec_crWr_waits {s : State} (h : s.therm.cold = none) (hw : s.hostWaits = true) (off : BitVec 24) (len : Fin 64) (v : Word) :
    exec (.crWr off len v) s = .next (s.holdMem (.crWr off.toNat (len.val + 1) v)) := by
  show execCrWr off len v s = _
  simp [execCrWr, h, hw]

theorem exec_crRd_now {s : State} (h : s.therm.cold = none) (hw : s.hostWaits = false) (tag : BitVec 12) (off : BitVec 24)
    (len : Fin 64) : exec (.crRd tag off len) s = .next (s.crRead tag.toNat off.toNat (len.val + 1)) := by
  show execCrRd tag off len s = _
  simp [execCrRd, h, hw]

theorem exec_crWr_now {s : State} (h : s.therm.cold = none) (hw : s.hostWaits = false) (off : BitVec 24) (len : Fin 64) (v : Word) :
    exec (.crWr off len v) s = .next (s.windowWrite off.toNat (len.val + 1) v) := by
  show execCrWr off len v s = _
  simp [execCrWr, h, hw]

theorem State.crRead_whole {s : State} (ho : HostOpen s) {off : Nat} (h : off % 8 = 0) (tag : Nat) :
    ∃ n a, s.crRead tag off 8 =
      { s.drew n with host := a, out := s.out ++ [.nogar 0x20 tag off 0 (wordBytes (s.regRead off))] } := by
  obtain ⟨n, hr⟩ := s.windowRead_whole h
  obtain ⟨a, ha⟩ := (ho.of_eq (t := s.drew n) rfl rfl).nogar_response tag off 0 (wordBytes (s.regRead off))
  exact ⟨n, a, by rw [State.crRead, hr]; exact ha⟩

theorem State.crRead_misused {s : State} (ho : HostOpen s) {off n : Nat} (h : accessOk off n = false) (tag : Nat) :
    ∃ a, s.crRead tag off n = { s.count R.hifLinkErr 48 16 with
      host := a, out := s.out ++ [.nogar 0x20 tag off 0 (List.replicate n 0)] } := by
  obtain ⟨a, ha⟩ := (ho.count_hifLinkErr 48 16).nogar_response tag off 0 (List.replicate n 0)
  exact ⟨a, by rw [State.crRead, s.windowRead_misused h]; exact ha⟩

/-- Settles O44: a free link sends each answer at once, and the accesses are made, counted or held as `dmRead`, `dmWrite`,
`crRead` and `windowWrite` decide. -/
theorem hostAccesses : Obligations.HostAccesses := by
  intro s
  refine ⟨?_, ?_, ?_, ?_⟩
  · intro tag addr len ad ho hw
    refine ⟨fun hb => ?_, fun hin hst hch hbad => ?_, fun hin hst hch => ?_⟩
    · obtain ⟨a, hn⟩ := (ho.count_hifLinkErr 32 16).nogar_response tag.toNat ad 2 []
      exact ⟨_, congrArg Host.Outcome.next ((State.dmRead_beyond hw hb ..).trans hn), rfl, rfl, s.rfld_count_same _ (by decide)⟩
    · obtain ⟨a, hn⟩ := ho.nogar_response tag.toNat ad 0 (Mem.bytes s.mem.bytes ad (len.val + 1))
      exact ⟨_, congrArg Host.Outcome.next ((State.dmRead_clean hw hin hst hch hbad _).trans hn), rfl, rfl⟩
    · exact congrArg Host.Outcome.next (State.dmRead_repaired hw hin hst hch ..)
  · intro addr d ad hw
    refine ⟨fun hb => congrArg Host.Outcome.next (State.dmWrite_beyond hw hb _), fun hin hst hch ha hd => ?_⟩
    obtain ⟨t, ht, hout, hregs, hcores, hbytes⟩ := s.memWrite_line [.ok] ha hd
    refine ⟨t, congrArg Host.Outcome.next ((State.dmWrite_made hw hin hst hch _).trans ht), hout, hregs, hcores,
      fun j hj => ?_, fun x hx => ?_⟩
    · rw [hbytes, nth_eq_getElem 0 d (hd ▸ hj), Mem.byte_write_same]
    · rw [hbytes, Mem.byte_write_other d _ (hd ▸ hx)]
  · intro tag off len v
    refine ⟨fun hc => ⟨exec_crRd_cold hc .., exec_crWr_cold hc ..⟩,
      fun hc hw => ⟨fun h8 => ⟨?_, fun ho => ?_⟩, fun hbad => ⟨?_, fun ho => ?_⟩⟩⟩
    · exact (exec_crWr_now hc hw ..).trans (congrArg Host.Outcome.next (s.windowWrite_whole h8 v))
    · obtain ⟨n, a, hr⟩ := State.crRead_whole ho h8 tag.toNat
      exact ⟨_, (exec_crRd_now hc hw ..).trans (congrArg Host.Outcome.next hr), rfl, rfl, rfl⟩
    · exact (exec_crWr_now hc hw ..).trans (congrArg Host.Outcome.next (s.windowWrite_misused hbad v))
    · obtain ⟨a, hr⟩ := State.crRead_misused ho hbad tag.toNat
      exact ⟨_, (exec_crRd_now hc hw ..).trans (congrArg Host.Outcome.next hr), rfl, rfl⟩
  · intro tag addr off len d v waits hw
    exact ⟨congrArg Host.Outcome.next (State.dmRead_waits hw ..), congrArg Host.Outcome.next (State.dmWrite_waits hw ..),
      fun hc => ⟨exec_crRd_waits hc hw .., exec_crWr_waits hc hw ..⟩⟩

/-! CSRs of a core (R36, R59). -/

/-- An instruction that executes and whose fields are legal has its effect. -/
theorem State.issue_legal {s : State} {i : Issue} (h : Executes s i) (word : Nat) {legal : Bool} (hl : legal = true)
    (f : CoreEnv → Core → Core) :
    s.issue i word legal f = s.setCore i.core.key (f (s.envAt i.core.key) (s.coreAt i.core.key).fetched) := by
  rw [State.issue_executes h, if_pos hl]

/-- Exactly the numbers that name a CSR read a value. -/
theorem Core.csrRead_isSome (env : CoreEnv) (c : Core) (k : Nat) : (c.csrRead env k).isSome = csrExists k := by
  unfold Core.csrRead csrExists
  simp only [apply_ite Option.isSome, Option.isSome_some, Option.isSome_none, Bool.if_true_left]
  rw [Bool.eq_iff_iff]
  simp only [Bool.or_eq_true, Bool.and_eq_true, decide_eq_true_eq, Bool.false_eq_true, or_false]
  omega

/-- A row of the CSRs that the core may write says of its number what the model says of it. -/
structure CsrRow.Modelled (p : CsrRow) : Prop where
  lt : p.num < 2 ^ 12
  named : csrExists p.num = true
  writable : csrWritable p.num false = true
  mask_eq : csrMask p.num = p.bits
  acts_eq : csrActs p.num = p.acts
  store_eq : ∀ (env : CoreEnv) (c : Core) (v : Word), c.csrStore env p.num v = p.put c v

theorem Core.writeFrameTop_eq (c : Core) (v : Word) :
    c.writeFrameTop v = if c.ctl.frames = [] then c
      else { c with ctl := { c.ctl with frames := c.ctl.frames.dropLast ++ [Frame.ofWord v] } } := by
  simp only [Core.writeFrameTop, List.isEmpty_iff]

/-- A write of a counter's target and arm fires the counter at once where it has reached the target (R64). -/
theorem Core.writeCntIrq_eq (c : Core) {n : Nat} (h : n < 16) (v : Word) : c.writeCntIrq n v = putCntIrq n c v := by
  have hn : (BitVec.ofNat 4 n).toNat = n := by
    rw [BitVec.toNat_ofNat]
    omega
  simp only [Core.writeCntIrq, Core.fireCnt, putCntIrq, Core.cntIrqOf, hn, SMap.get_set_same]
  rfl

theorem CsrRow.modelled_cntIrq {n : Nat} (h : n < 16) : CsrRow.Modelled ⟨0x030 + n, 0x1FFFFFFFF#64, false, putCntIrq n⟩ := by
  have hr : 0x030 ≤ 0x030 + n ∧ 0x030 + n ≤ 0x03F := by omega
  have hne : ∀ j, j < 0x030 ∨ 0x03F < j → 0x030 + n ≠ j := by omega
  refine ⟨?_, ?_, ?_, ?_, ?_, fun env c v => ?_⟩
  · show 0x030 + n < 2 ^ 12
    omega
  · simp [csrExists]; omega
  · simp [csrWritable]; omega
  · simp [csrMask, hr, hne]
  · simp [csrActs]; omega
  · simp [Core.csrStore, hr, hne, c.writeCntIrq_eq h]

theorem csrRows_modelled : ∀ p ∈ csrRows, p.Modelled := by
  intro p hp
  rw [csrRows, List.mem_append] at hp
  rcases hp with hp | hp
  · simp only [List.mem_cons, List.not_mem_nil, or_false] at hp
    rcases hp with rfl | rfl | rfl | rfl | rfl | rfl | rfl | rfl | rfl | rfl
    -- CORE_FRAME_TOP: with no frame on the stack a write has no effect (R571)
    case inr.inr.inr.inl =>
      exact ⟨by decide, by decide, by decide, by decide, by decide, fun _ c v => c.writeFrameTop_eq v⟩
    all_goals exact ⟨by decide, by decide, by decide, by decide, by decide, fun _ _ _ => rfl⟩
  · obtain ⟨n, hn, rfl⟩ := List.mem_map.mp hp
    exact CsrRow.modelled_cntIrq (List.mem_range.mp hn)

/-- The value that a form of CSR write asks for (R37): a CSR that acts on the 1s written to it takes rs1 itself. -/
def CsrHow.value (how : CsrHow) (acts : Bool) (old v : Word) : Word :=
  if acts then v else match how with
    | .wr => v
    | .set => old ||| v
    | .clr => old &&& ~~~ v

theorem CsrHow.value_wr (acts : Bool) (old v : Word) : CsrHow.wr.value acts old v = v := by
  cases acts <;> rfl

/-- A CSR that this side may write takes the value asked for, or a free one where a reserved bit is set (R9). -/
theorem Core.csrWrite_writable {k : Nat} {die : Bool} (h : csrWritable k die = true) (env : CoreEnv) (c : Core) (how : CsrHow) (v : Word) :
    c.csrWrite env k how v die =
      let x := c.reservedOk env (csrMask k) (how.value (csrActs k) ((c.csrRead env k).getD 0) v)
      x.2.csrStore env k x.1 := by
  unfold Core.csrWrite
  rw [h]
  cases how <;> rfl

theorem Core.csrWrite_readOnly {k : Nat} (h : csrWritable k false = false) (env : CoreEnv) (c : Core) (how : CsrHow) (v : Word) :
    c.csrWrite env k how v false = c := by
  simp [Core.csrWrite, h]

/-- What a core that may write the CSR of a row is left with when the value `u` is asked for: a value with a reserved
bit set leaves a free one within the row's bits (R9). -/
def CsrRow.write (p : CsrRow) (env : CoreEnv) (c : Core) (u : Word) : Core :=
  p.put (c.reservedOk env p.bits u).2 (c.reservedOk env p.bits u).1

theorem CsrRow.write_clean (p : CsrRow) (env : CoreEnv) (c : Core) {u : Word} (h : u &&& ~~~ p.bits = 0) :
    p.write env c u = p.put c u := by
  rw [CsrRow.write, Core.reservedOk, if_pos h]

theorem CsrRow.write_reserved (p : CsrRow) (env : CoreEnv) (c : Core) {u : Word} (h : u &&& ~~~ p.bits ≠ 0) :
    ∃ w : Word, w &&& ~~~ p.bits = 0 ∧ p.write env c u = p.put { c with free := c.free + 1 } w := by
  rw [CsrRow.write, Core.reservedOk, if_neg h]
  exact ⟨_, and_mask_reserved _ p.bits, rfl⟩

/-- A write instruction on the CSR of a row moves on and writes it. -/
theorem CsrRow.Modelled.csrWriteIns_eq {p : CsrRow} (h : p.Modelled) {s : State} {i : Issue} (hx : Executes s i) (op : Nat)
    (how : CsrHow) (rs1 : Reg) :
    csrWriteIns i op how 0 rs1 (BitVec.ofNat 12 p.num) s =
      s.setCore i.core.key (p.write (s.envAt i.core.key) (s.coreAt i.core.key).fetched.next
        (how.value p.acts (((s.coreAt i.core.key).csrRead (s.envAt i.core.key) p.num).getD 0) ((s.coreAt i.core.key).rg rs1))) := by
  have hn : (BitVec.ofNat 12 p.num).toNat = p.num := by
    rw [BitVec.toNat_ofNat, Nat.mod_eq_of_lt h.lt]
  unfold csrWriteIns
  rw [hn, State.issue_legal hx _ (by simp [h.named]),
    Core.csrWrite_writable h.writable, h.mask_eq, h.acts_eq, h.store_eq]
  rfl

/-- A write instruction on a CSR that the core may not write only moves on. -/
theorem csrWriteIns_readOnly {s : State} {i : Issue} (hx : Executes s i) {n : BitVec 12} (he : csrExists n.toNat = true)
    (hw : csrWritable n.toNat false = false) (op : Nat) (how : CsrHow) (rs1 : Reg) :
    csrWriteIns i op how 0 rs1 n s = s.setCore i.core.key (s.coreAt i.core.key).fetched.next := by
  unfold csrWriteIns
  rw [State.issue_legal hx _ (by simp [he]), Core.csrWrite_readOnly hw]

/-- A read instruction puts the CSR's value into rd. -/
theorem execCsrRd_eq {s : State} {i : Issue} (hx : Executes s i) {n : BitVec 12} {v : Word}
    (hv : (s.coreAt i.core.key).csrRead (s.envAt i.core.key) n.toNat = some v) (rd : Reg) :
    execCsrRd i rd 0 n s = .next (s.setCore i.core.key ((s.coreAt i.core.key).fetched.setG rd v).next) := by
  have he : csrExists n.toNat = true := by
    rw [← Core.csrRead_isSome (s.envAt i.core.key) (s.coreAt i.core.key), hv]
    rfl
  have hm : (s.coreAt i.core.key).fetched.csrRead (s.envAt i.core.key) n.toNat = some v := hv
  unfold execCsrRd
  rw [State.issue_legal hx _ (by simp [he]), hm]
  rfl

/-- Settles O19: the rows of `csrRows` say what the model does with their numbers, so that each write instruction is
its row's write of the value it asks for. -/
theorem csrInstructions : Obligations.CsrInstructions := by
  intro s i hx k c m
  refine ⟨fun rd n he => ?_, fun p hp rs1 => ?_, fun rs1 n he hw => ?_⟩
  · obtain ⟨v, hv⟩ := Option.isSome_iff_exists.mp ((c.csrRead_isSome (s.envAt k) n.toNat).trans he)
    exact ⟨_, v, hv, execCsrRd_eq hx hv rd, RegResult.setCore s k rd v⟩
  · intro v n old does
    have hp := csrRows_modelled p hp
    have hdoes : ∀ (x : Instr) (u : Word), exec x s = .next (s.setCore k (p.write (s.envAt k) m.next u)) → does x u := by
      intro x u hex
      refine ⟨fun h => ?_, fun h => ?_⟩
      · rw [hex, p.write_clean _ _ h]
      · obtain ⟨w, hw, he⟩ := p.write_reserved (s.envAt k) m.next h
        exact ⟨w, _, hex, hw, congrArg (s.setCore k) he⟩
    refine ⟨hdoes _ _ ?_, hdoes _ _ ?_, hdoes _ _ ?_⟩
    · refine congrArg Host.Outcome.next ((hp.csrWriteIns_eq hx ..).trans ?_)
      rw [CsrHow.value_wr]
      rfl
    · exact congrArg Host.Outcome.next (hp.csrWriteIns_eq hx ..)
    · exact congrArg Host.Outcome.next (hp.csrWriteIns_eq hx ..)
  · have hmove := fun op how => congrArg (Host.Outcome.next (φ := Fault) (ρ := Refusal)) (csrWriteIns_readOnly hx he hw op how rs1)
    exact ⟨hmove _ _, hmove _ _, hmove _ _⟩

/-! Writes of CLK_TIME_CTL (R295, R564). -/

/-- A device that follows its links, whose CLK_TIME_SET the host has written: it is not aligned, since it is no master. -/
def timeGiven : State := { State.reset with time := { State.reset.time with given := true } }

/-- The host brings the device there from reset by one write. -/
theorem exec_clkTimeSet_reset : exec (.registerWrite R.clkTimeSet 8 false 0) State.reset = .next timeGiven := rfl

/-- A write of 0 to CLK_TIME_CTL makes it a master, which is aligned at once: CLK_TIME_STATUS changes with CLK_TIME_CTL. -/
theorem exec_clkTimeCtl_aligns : ∃ t, exec (.registerWrite R.clkTimeCtl 8 false 0) timeGiven = .next t ∧ t.aligned = true :=
  ⟨_, rfl, by decide +kernel⟩

theorem timeGiven_setReg_aligned : (timeGiven.setReg R.clkTimeCtl 0).aligned = false := by decide

/-- Refutes O49: a write of CLK_TIME_CTL that makes a device the master after CLK_TIME_SET was written also aligns the
device, so it changes more than CLK_TIME_CTL. -/
theorem not_registerWrites : ¬ Obligations.RegisterWrites := by
  intro h
  obtain ⟨-, -, hrw, -⟩ := h timeGiven 0 rfl
  have hstores := (hrw (R.clkTimeCtl, 0x3) (by simp)).1 (by decide)
  obtain ⟨t, ht, haligned⟩ := exec_clkTimeCtl_aligns
  obtain rfl := Host.Outcome.next.inj (hstores.symm.trans ht)
  exact absurd haligned (by rw [timeGiven_setReg_aligned]; decide)

end Sys2Proof.Machine

/-!
PROOFS. The packed streams of saiga (R112 to R115): unpacking a packed stream gives the input back.
-/

namespace Sys2Proof.Machine

/-! Byte strings and runs of numbers. -/

theorem rangeFrom_eq_range' (a n : Nat) : rangeFrom a n = List.range' a n := by
  induction n generalizing a with
  | zero => rfl
  | succ n ih => rw [rangeFrom, ih, List.range'_succ]

/-- The bytes of the number that a string spells are the string. -/
theorem natToBytes_bytesToNat {n : Nat} {l : List Byte} (h : l.length = n) : natToBytes n (bytesToNat l) = l := by
  induction l generalizing n with
  | nil => subst h; rfl
  | cons b t ih =>
    subst h
    have hlow : BitVec.ofNat 8 (b.toNat + 256 * bytesToNat t) = b := by
      apply BitVec.eq_of_toNat_eq
      rw [BitVec.toNat_ofNat]
      omega
    have hdiv : (b.toNat + 256 * bytesToNat t) / 256 = bytesToNat t := by omega
    rw [bytesToNat, List.length_cons, natToBytes, hlow, hdiv, ih rfl]

theorem bytesToNat_lt (l : List Byte) : bytesToNat l < 256 ^ l.length := by
  induction l with
  | nil => simp [bytesToNat]
  | cons b t ih =>
    rw [bytesToNat, List.length_cons, Nat.pow_succ]
    omega

/-- A number that fits is read back from its bytes. -/
theorem bytesToNat_natToBytes_of_lt {n v : Nat} (h : v < 256 ^ n) : bytesToNat (natToBytes n v) = v := by
  rw [bytesToNat_natToBytes, Nat.mod_eq_of_lt h]

/-- The pieces of a string, `n` bytes each, from piece `a` on. -/
theorem flatMap_pieces (l : List Byte) (n a m : Nat) :
    (rangeFrom a m).flatMap (fun i => (l.drop (n * i)).take n) = (l.drop (n * a)).take (n * m) := by
  induction m generalizing a with
  | zero => simp [rangeFrom]
  | succ m ih =>
    rw [rangeFrom, List.flatMap_cons, ih, Nat.mul_succ n a, ← List.drop_drop, Nat.mul_succ n m, Nat.add_comm (n * m),
      List.take_add]

/-- Piece `i` of a string made of pieces of one length. -/
theorem piece_flatMap {α : Type} (f : α → List Byte) {n : Nat} (hf : ∀ a, (f a).length = n) (l : List α) (r : List Byte)
    {i : Nat} (hi : i < l.length) : ((l.flatMap f ++ r).drop (n * i)).take n = f l[i] := by
  induction l generalizing i with
  | nil => simp at hi
  | cons a t ih =>
    cases i with
    | zero => simp [← hf a]
    | succ i =>
      rw [Nat.mul_succ, Nat.add_comm, ← List.drop_drop, List.flatMap_cons, List.append_assoc, List.drop_left' (hf a),
        ih (by simpa using hi)]
      rfl

theorem length_flatMap_of_length {α : Type} (f : α → List Byte) {n : Nat} (hf : ∀ a, (f a).length = n) (l : List α) :
    (l.flatMap f).length = n * l.length := by
  induction l with
  | nil => rfl
  | cons a t ih => rw [List.flatMap_cons, List.length_append, hf, ih, List.length_cons, Nat.mul_succ, Nat.add_comm]

/-- A list is read back index by index. -/
theorem map_rangeFrom_of_getElem {α : Type} (l : List α) (f : Nat → α) (h : ∀ i (hi : i < l.length), f i = l[i]) :
    (rangeFrom 0 l.length).map f = l := by
  refine List.ext_getElem (by simp) fun i _ hi => ?_
  simp [rangeFrom_eq_range', h i hi]

/-- Digit `i` of packed codes that fit. -/
theorem packNat_digit (w : Nat) {l : List Nat} (h : ∀ x ∈ l, x < 2 ^ w) {i : Nat} (hi : i < l.length) :
    packNat w l / 2 ^ (w * i) % 2 ^ w = l[i] := by
  induction l generalizing i with
  | nil => simp at hi
  | cons c t ih =>
    have hc : c < 2 ^ w := h c List.mem_cons_self
    rw [packNat, Nat.mod_eq_of_lt hc]
    cases i with
    | zero => simp [Nat.mod_eq_of_lt hc]
    | succ i =>
      have hdiv : (c + 2 ^ w * packNat w t) / 2 ^ w = packNat w t := by
        rw [Nat.add_mul_div_left _ _ (Nat.two_pow_pos w), Nat.div_eq_of_lt hc, Nat.zero_add]
      rw [Nat.mul_succ, Nat.add_comm (w * i), Nat.pow_add, ← Nat.div_div_eq_div_mul, hdiv]
      exact ih (fun x hx => h x (List.mem_cons_of_mem _ hx)) (by simpa using hi)

theorem packNat_lt (w : Nat) (l : List Nat) : packNat w l < 2 ^ (w * l.length) := by
  induction l with
  | nil => simp [packNat]
  | cons c t ih =>
    have hc : c % 2 ^ w < 2 ^ w := Nat.mod_lt _ (Nat.two_pow_pos w)
    rw [packNat, List.length_cons, Nat.mul_succ, Nat.add_comm (w * t.length), Nat.pow_add]
    calc c % 2 ^ w + 2 ^ w * packNat w t < 2 ^ w * (packNat w t + 1) := by rw [Nat.mul_succ]; omega
      _ ≤ 2 ^ w * 2 ^ (w * t.length) := Nat.mul_le_mul_left _ ih

theorem lt_two_pow_bitLen (m : Nat) : m < 2 ^ bitLen m := by
  unfold bitLen
  split
  · simp [*]
  · exact Nat.lt_log2_self

theorem bitLen_le_of_lt {m k : Nat} (h : m < 2 ^ k) : bitLen m ≤ k := by
  unfold bitLen
  split
  · exact Nat.zero_le k
  · next h0 => exact (Nat.log2_lt h0).mpr h

theorem maxNat_le {l : List Nat} {b : Nat} : maxNat l ≤ b ↔ ∀ x ∈ l, x ≤ b := by
  have hfold : ∀ (l : List Nat) (a : Nat), l.foldl max a ≤ b ↔ a ≤ b ∧ ∀ x ∈ l, x ≤ b := by
    intro l
    induction l with
    | nil => exact fun a => ⟨fun h => ⟨h, fun x hx => absurd hx List.not_mem_nil⟩, fun h => h.1⟩
    | cons x t ih => exact fun a => by rw [List.foldl_cons, ih, Nat.max_le, List.forall_mem_cons, and_assoc]
  exact ⟨fun h => ((hfold l 0).mp h).2, fun h => (hfold l 0).mpr ⟨Nat.zero_le b, h⟩⟩

theorem le_maxNat {l : List Nat} {x : Nat} (h : x ∈ l) : x ≤ maxNat l := maxNat_le.mp (Nat.le_refl _) x h

/-! Zero-run bodies (R113). -/

theorem allZero_eq {w : List Byte} (h : allZero w = true) : w = List.replicate w.length 0#8 := by
  rw [List.eq_replicate_iff]
  exact ⟨rfl, by simpa [allZero] using h⟩

theorem words8_spec {n k : Nat} {l : List Byte} (hl : l.length = 8 * n) (hk : n ≤ k) :
    (words8 k l).flatten = l ∧ (words8 k l).length = n ∧ ∀ w ∈ words8 k l, w.length = 8 := by
  induction n generalizing k l with
  | zero =>
    obtain rfl := List.eq_nil_of_length_eq_zero hl
    cases k <;> simp [words8]
  | succ n ih =>
    obtain ⟨k, rfl⟩ : ∃ j, k = j + 1 := ⟨k - 1, by omega⟩
    have hcons : words8 (k + 1) l = l.take 8 :: words8 k (l.drop 8) := by
      cases l with
      | nil => simp at hl
      | cons b t => rfl
    obtain ⟨hflat, hlen, heach⟩ := ih (k := k) (l := l.drop 8) (by simp; omega) (by omega)
    rw [hcons]
    refine ⟨by simp [hflat], by simp [hlen], fun w hw => ?_⟩
    rcases List.mem_cons.mp hw with rfl | hw
    · simp; omega
    · exact heach w hw

theorem zrMask_lt (g : List (List Byte)) : zrMask g < 2 ^ g.length := by
  induction g with
  | nil => simp [zrMask]
  | cons w t ih =>
    rw [zrMask, List.length_cons, Nat.pow_succ]
    split <;> omega

/-- A mask restores the words of its group from the words that are not zero. -/
theorem zrWords_zrMask {g : List (List Byte)} (h : ∀ w ∈ g, w.length = 8) (r : List Byte) :
    zrWords (zrMask g) g.length ((g.filter fun w => !allZero w).flatten ++ r) = some (g.flatten, r) := by
  induction g with
  | nil => rfl
  | cons w t ih =>
    have hw : w.length = 8 := h w List.mem_cons_self
    specialize ih fun x hx => h x (List.mem_cons_of_mem _ hx)
    rw [List.length_cons, zrMask]
    by_cases hz : allZero w = true
    · have hrep : List.replicate 8 0#8 = w := by rw [allZero_eq hz, hw]
      simp [zrWords, hz, ih, hrep]
    · have hodd : (1 + 2 * zrMask t) % 2 = 1 := by omega
      have hdiv : (1 + 2 * zrMask t) / 2 = zrMask t := by omega
      simp [zrWords, hz, hodd, hdiv, ← hw, ih]

/-- The group at the head of a zero-run body. -/
theorem zrBody_succ {ws : List (List Byte)} (h : ws ≠ []) (k : Nat) :
    zrBody (k + 1) ws = natToBytes 8 (zrMask (ws.take 64)) ++
      (((ws.take 64).filter fun w => !allZero w).flatten ++ zrBody k (ws.drop 64)) := by
  rw [zrBody, List.append_assoc]
  exact h

/-- Unpacking the group at the head of a zero-run body. -/
theorem unzr_succ {k n m : Nat} {b b1 ws t : List Byte} (hn : 0 < n) (hm : m < 2 ^ min n 64)
    (hz : zrWords m (min n 64) b = some (ws, b1)) (ht : unzr k (n - min n 64) b1 = some t) :
    unzr (k + 1) n (natToBytes 8 m ++ b) = some (ws ++ t) := by
  have hpow : 2 ^ min n 64 ≤ 256 ^ 8 := Nat.pow_le_pow_right (n := 2) (by decide) (Nat.min_le_right n 64)
  have hread : bytesToNat (natToBytes 8 m) = m := bytesToNat_natToBytes_of_lt (Nat.lt_of_lt_of_le hm hpow)
  rw [unzr]
  · simp only [List.take_left' (natToBytes_length 8 m), List.drop_left' (natToBytes_length 8 m), List.length_append,
      natToBytes_length, hread, hz, ht]
    exact if_neg (by omega)
  · exact Nat.ne_of_gt hn

/-- Unpacking a zero-run body gives the words back. -/
theorem unzr_zrBody {k : Nat} {ws : List (List Byte)} (hk : ws.length ≤ k) (h : ∀ w ∈ ws, w.length = 8) :
    unzr k ws.length (zrBody k ws) = some ws.flatten := by
  induction k generalizing ws with
  | zero =>
    obtain rfl := List.eq_nil_of_length_eq_zero (Nat.le_zero.mp hk)
    rfl
  | succ k ih =>
    by_cases hne : ws = []
    · subst hne
      rfl
    · have hpos : 0 < ws.length := List.length_pos_iff.mpr hne
      have hlen : (ws.take 64).length = min ws.length 64 := by rw [List.length_take, Nat.min_comm]
      have hdrop : (ws.drop 64).length = ws.length - min ws.length 64 := by rw [List.length_drop]; omega
      have hrest := ih (ws := ws.drop 64) (by omega) fun w hw => h w (List.mem_of_mem_drop hw)
      have hgroup := zrWords_zrMask (g := ws.take 64) (fun w hw => h w (List.mem_of_mem_take hw)) (zrBody k (ws.drop 64))
      rw [zrBody_succ hne, unzr_succ hpos (hlen ▸ zrMask_lt _) (hlen ▸ hgroup) (hdrop ▸ hrest), ← List.flatten_append,
        List.take_append_drop]

/-! Exponent-delta bodies (R114). -/

/-- The two shapes of an element: its bytes and its mantissa bits. -/
def EdShape (mode sz mb : Nat) : Prop := edShape mode = (sz, mb) ∧ (sz = 4 ∧ mb = 23 ∨ sz = 2 ∧ mb = 7)

theorem edShape_two : EdShape 2 4 23 := ⟨rfl, by decide⟩
theorem edShape_three : EdShape 3 2 7 := ⟨rfl, by decide⟩

/-- An element from its exponent and its sign with mantissa. -/
def edJoin (mb e sm : Nat) : Nat := sm % 2 ^ mb + e * 2 ^ mb + sm / 2 ^ mb * 2 ^ (mb + 8)

theorem edSplit_fst_lt (mode v : Nat) : (edSplit mode v).1 < 256 := Nat.mod_lt _ (by decide)

theorem edJoin_edSplit {mode sz mb : Nat} (hs : EdShape mode sz mb) (v : Nat) :
    edJoin mb (edSplit mode v).1 (edSplit mode v).2 = v := by
  obtain ⟨hs, -⟩ := hs
  have hpos := Nat.two_pow_pos mb
  have hmod : (v % 2 ^ mb + v / 2 ^ (mb + 8) * 2 ^ mb) % 2 ^ mb = v % 2 ^ mb := by
    rw [Nat.add_mul_mod_self_right, Nat.mod_mod]
  have hdiv : (v % 2 ^ mb + v / 2 ^ (mb + 8) * 2 ^ mb) / 2 ^ mb = v / 2 ^ mb / 256 := by
    rw [Nat.add_mul_div_right _ _ hpos, Nat.div_eq_of_lt (Nat.mod_lt _ hpos), Nat.zero_add, Nat.pow_add,
      ← Nat.div_div_eq_div_mul]
  have hhigh : v / 2 ^ mb / 256 * (2 ^ mb * 2 ^ 8) = 2 ^ mb * (256 * (v / 2 ^ mb / 256)) := by
    have h256 : (2 : Nat) ^ 8 = 256 := rfl
    rw [h256, Nat.mul_left_comm, Nat.mul_comm _ 256]
  rw [edSplit, hs]
  calc edJoin mb (v / 2 ^ mb % 256) (v % 2 ^ mb + v / 2 ^ (mb + 8) * 2 ^ mb)
      = v % 2 ^ mb + 2 ^ mb * (v / 2 ^ mb % 256 + 256 * (v / 2 ^ mb / 256)) := by
        rw [edJoin, hmod, hdiv, Nat.pow_add, hhigh, Nat.mul_comm _ (2 ^ mb), Nat.add_assoc, ← Nat.mul_add]
    _ = v := by rw [Nat.mod_add_div, Nat.mod_add_div]

theorem edSplit_snd_lt {mode sz mb v : Nat} (hs : EdShape mode sz mb) (hv : v < 256 ^ sz) :
    (edSplit mode v).2 < 256 ^ (sz - 1) := by
  obtain ⟨hs, h⟩ := hs
  rw [edSplit, hs]
  rcases h with ⟨rfl, rfl⟩ | ⟨rfl, rfl⟩
  · show v % 2 ^ 23 + v / 2 ^ 31 * 2 ^ 23 < 2 ^ 24
    omega
  · show v % 2 ^ 7 + v / 2 ^ 15 * 2 ^ 7 < 2 ^ 8
    omega

/-- The largest exponent of a group, its deltas, and their width. -/
def edMax (mode : Nat) (vs : List Nat) : Nat := maxNat (vs.map fun v => (edSplit mode v).1)
def edDeltas (mode : Nat) (vs : List Nat) : List Nat := (vs.map fun v => (edSplit mode v).1).map fun e => edMax mode vs - e
def edWidth (mode : Nat) (vs : List Nat) : Nat := bitLen (maxNat (edDeltas mode vs))

theorem edGroup_eq {mode sz mb : Nat} (hs : EdShape mode sz mb) (vs : List Nat) :
    edGroup mode vs = BitVec.ofNat 8 (edMax mode vs) :: BitVec.ofNat 8 (edWidth mode vs) ::
      (natToBytes (4 * edWidth mode vs) (packNat (edWidth mode vs) (edDeltas mode vs)) ++
        vs.flatMap fun v => natToBytes (sz - 1) (edSplit mode v).2) := by
  rw [edGroup, hs.1]
  rfl

theorem edMax_lt (mode : Nat) (vs : List Nat) : edMax mode vs < 256 :=
  Nat.lt_succ_of_le (maxNat_le.mpr fun x hx => by
    obtain ⟨v, -, rfl⟩ := List.mem_map.mp hx
    exact Nat.le_of_lt_succ (edSplit_fst_lt mode v))

@[simp] theorem edDeltas_length (mode : Nat) (vs : List Nat) : (edDeltas mode vs).length = vs.length := by simp [edDeltas]

theorem edDeltas_lt (mode : Nat) (vs : List Nat) : ∀ x ∈ edDeltas mode vs, x < 2 ^ edWidth mode vs := fun _ hx =>
  Nat.lt_of_le_of_lt (le_maxNat hx) (lt_two_pow_bitLen _)

theorem edWidth_le (mode : Nat) (vs : List Nat) : edWidth mode vs ≤ 8 := by
  refine bitLen_le_of_lt (Nat.lt_succ_of_le (maxNat_le.mpr fun x hx => ?_))
  obtain ⟨e, -, rfl⟩ := List.mem_map.mp hx
  have := edMax_lt mode vs
  omega

/-- The largest exponent less its delta is an element's own exponent. -/
theorem edMax_sub_edDeltas (mode : Nat) (vs : List Nat) {i : Nat} (hi : i < vs.length) :
    (edMax mode vs + 256 - (edDeltas mode vs)[i]'(by simpa using hi)) % 256 = (edSplit mode vs[i]).1 := by
  have hle : (edSplit mode vs[i]).1 ≤ edMax mode vs := le_maxNat (List.mem_map_of_mem (List.getElem_mem hi))
  have hlt := edMax_lt mode vs
  simp only [edDeltas, List.getElem_map]
  omega

/-- Element `i` as a group's fields give it: the largest exponent, the deltas and the elements without exponent. -/
def edValue (sz mb emax w ds : Nat) (ms : List Byte) (i : Nat) : Nat :=
  edJoin mb ((emax + 256 - ds / 2 ^ (w * i) % 2 ^ w) % 256) (bytesToNat ((ms.drop ((sz - 1) * i)).take (sz - 1)))

/-- Unpacking the group at the head of an exponent-delta body by its fields. -/
theorem uned_succ {mode sz mb : Nat} (hs : EdShape mode sz mb) {k n : Nat} {emax w : Byte} {ds ms r t : List Byte} (hn : 32 ≤ n)
    (hw : w.toNat ≤ 8) (hds : ds.length = 4 * w.toNat) (hms : ms.length = (sz - 1) * 32) (ht : uned mode k (n - 32) r = some t) :
    uned mode (k + 1) n (emax :: w :: (ds ++ (ms ++ r))) =
      some (((rangeFrom 0 32).map (edValue sz mb emax.toNat w.toNat (bytesToNat ds) (ms ++ r))).flatMap (natToBytes sz) ++ t) := by
  have hrest : (emax :: w :: (ds ++ (ms ++ r))).drop (2 + 4 * w.toNat) = ms ++ r := by
    rw [← List.drop_drop]
    exact List.drop_left' hds
  have hnext : (emax :: w :: (ds ++ (ms ++ r))).drop (2 + 4 * w.toNat + 32 * (sz - 1)) = r := by
    rw [← List.drop_drop, hrest]
    exact List.drop_left' (by omega)
  rw [uned, hs.1]
  · simp only [nth, hrest, hnext, ht]
    rw [if_neg (by simp; omega), show List.drop 2 (emax :: w :: (ds ++ (ms ++ r))) = ds ++ (ms ++ r) from rfl,
      List.take_left' hds]
    rfl
  · omega

/-- A group gives its elements back. -/
theorem uned_edGroup {mode sz mb : Nat} (hs : EdShape mode sz mb) {k n : Nat} {vs : List Nat} {r t : List Byte} (hn : 32 ≤ n)
    (hlen : vs.length = 32) (hv : ∀ v ∈ vs, v < 256 ^ sz) (ht : uned mode k (n - 32) r = some t) :
    uned mode (k + 1) n (edGroup mode vs ++ r) = some (vs.flatMap (natToBytes sz) ++ t) := by
  have hw := edWidth_le mode vs
  have hmaxNat : (BitVec.ofNat 8 (edMax mode vs)).toNat = edMax mode vs := Nat.mod_eq_of_lt (edMax_lt mode vs)
  have hwNat : (BitVec.ofNat 8 (edWidth mode vs)).toNat = edWidth mode vs := Nat.mod_eq_of_lt (by omega)
  have hds : bytesToNat (natToBytes (4 * edWidth mode vs) (packNat (edWidth mode vs) (edDeltas mode vs))) =
      packNat (edWidth mode vs) (edDeltas mode vs) := by
    apply bytesToNat_natToBytes_of_lt
    have h := packNat_lt (edWidth mode vs) (edDeltas mode vs)
    rwa [edDeltas_length, hlen, show edWidth mode vs * 32 = 8 * (4 * edWidth mode vs) by omega, Nat.pow_mul] at h
  have hval : ∀ i (hi : i < vs.length), edValue sz mb (edMax mode vs) (edWidth mode vs)
      (packNat (edWidth mode vs) (edDeltas mode vs)) ((vs.flatMap fun v => natToBytes (sz - 1) (edSplit mode v).2) ++ r) i = vs[i] := by
    intro i hi
    rw [edValue, packNat_digit _ (edDeltas_lt mode vs) (by simpa using hi), edMax_sub_edDeltas mode vs hi,
      piece_flatMap _ (fun v => natToBytes_length _ _) vs r hi,
      bytesToNat_natToBytes_of_lt (edSplit_snd_lt hs (hv _ (List.getElem_mem hi))), edJoin_edSplit hs]
  have hvals := map_rangeFrom_of_getElem vs _ hval
  rw [hlen] at hvals
  rw [edGroup_eq hs, List.cons_append, List.cons_append, List.append_assoc, uned_succ hs hn (by rwa [hwNat]) (by rw [hwNat]; simp)
    (by rw [length_flatMap_of_length _ fun v => natToBytes_length _ _, hlen]) ht, hmaxNat, hwNat, hds, hvals]

/-- The group at the head of an exponent-delta body. -/
theorem edBody_succ (mode : Nat) {vs : List Nat} (h : vs ≠ []) (k : Nat) :
    edBody mode (k + 1) vs = edGroup mode (vs.take 32) ++ edBody mode k (vs.drop 32) := by
  rw [edBody]
  exact h

/-- Unpacking an exponent-delta body gives the elements back. -/
theorem uned_edBody {mode sz mb : Nat} (hs : EdShape mode sz mb) {k : Nat} {vs : List Nat} (hk : vs.length ≤ k)
    (h32 : vs.length % 32 = 0) (hv : ∀ v ∈ vs, v < 256 ^ sz) :
    uned mode k vs.length (edBody mode k vs) = some (vs.flatMap (natToBytes sz)) := by
  induction k generalizing vs with
  | zero =>
    obtain rfl := List.eq_nil_of_length_eq_zero (Nat.le_zero.mp hk)
    rfl
  | succ k ih =>
    by_cases hne : vs = []
    · subst hne
      rfl
    · have hpos : 0 < vs.length := List.length_pos_iff.mpr hne
      have hdrop : (vs.drop 32).length = vs.length - 32 := List.length_drop
      have hrest := ih (vs := vs.drop 32) (by omega) (by omega) fun v hm => hv v (List.mem_of_mem_drop hm)
      rw [edBody_succ mode hne, uned_edGroup hs (by omega) (by rw [List.length_take]; omega)
        (fun v hm => hv v (List.mem_of_mem_take hm)) (hdrop ▸ hrest), ← List.flatMap_append, List.take_append_drop]

/-- The elements of a run of whole elements: how many, their size, and that their bytes are the run. -/
theorem edElems_spec {mode sz mb : Nat} (hs : EdShape mode sz mb) {n : Nat} {l : List Byte} (hl : l.length = sz * n) :
    (edElems mode l).length = n ∧ (∀ v ∈ edElems mode l, v < 256 ^ sz) ∧ (edElems mode l).flatMap (natToBytes sz) = l := by
  have hsz : 0 < sz := by obtain ⟨-, ⟨h, -⟩ | ⟨h, -⟩⟩ := hs <;> omega
  have heq : edElems mode l = (rangeFrom 0 n).map fun i => bytesToNat ((l.drop (sz * i)).take sz) := by
    rw [edElems, hs.1]
    simp only [hl, Nat.mul_div_cancel_left _ hsz]
  have hpiece : ∀ i ∈ rangeFrom 0 n, ((l.drop (sz * i)).take sz).length = sz := by
    intro i hi
    rw [rangeFrom_eq_range', List.mem_range'_1] at hi
    have hle : sz * (i + 1) ≤ sz * n := Nat.mul_le_mul_left _ (by omega)
    rw [List.length_take, List.length_drop, hl]
    rw [Nat.mul_succ] at hle
    omega
  refine ⟨by simp [heq], fun v hv => ?_, ?_⟩
  · rw [heq, List.mem_map] at hv
    obtain ⟨i, hi, rfl⟩ := hv
    exact Nat.lt_of_lt_of_eq (bytesToNat_lt _) (by rw [hpiece i hi])
  · rw [heq, List.flatMap_map, List.flatMap_def, List.map_congr_left fun i hi => natToBytes_bytesToNat (hpiece i hi),
      ← List.flatMap_def, flatMap_pieces, ← hl]
    simp

/-! Chunks (R112). -/

/-- What a chunk's body unpacks to, by the chunk's mode. -/
def unpackBody (cm ilen : Nat) (body : List Byte) : Option (List Byte) :=
  match cm with
  | 0 => if body.length = ilen then some body else none
  | 1 => if ilen % 8 = 0 then unzr ilen (ilen / 8) body else none
  | m => if ilen % (32 * (edShape m).1) = 0 then uned m ilen (ilen / (edShape m).1) body else none

/-- A chunk of a mode, a body and a length of its output. -/
def chunkOf (cm n : Nat) (body : List Byte) : List Byte :=
  natToBytes 8 (cm * 2 ^ 32 + body.length * 2 ^ 16 + (n - 1)) ++ body ++ pad8 body.length

theorem packChunk_eq (mode : Nat) (l : List Byte) :
    packChunk mode l = if (packBody mode l).length < l.length then chunkOf mode l.length (packBody mode l) else chunkOf 0 l.length l := by
  unfold packChunk chunkOf
  by_cases h : (packBody mode l).length < l.length
  · simp only [if_pos h]
  · simp only [if_neg h]

theorem chunkOf_length (cm n : Nat) (body : List Byte) : (chunkOf cm n body).length = 8 + (body.length + 7) / 8 * 8 := by
  rw [chunkOf, List.length_append, List.length_append, natToBytes_length, pad8, List.length_replicate]
  omega

/-- A chunk at the head of a stream unpacks to what its body gives, and leaves the rest of the stream. -/
theorem unpackChunk_chunkOf {cm n : Nat} {body o : List Byte} (hcm : cm ≤ 3) (hb : body.length ≤ 4096) (h0 : 0 < n) (hn : n ≤ 4096)
    (ho : unpackBody cm n body = some o) (r : List Byte) : unpackChunk (chunkOf cm n body ++ r) = some (o, r) := by
  obtain ⟨v, hv⟩ : ∃ v, v = cm * 2 ^ 32 + body.length * 2 ^ 16 + (n - 1) := ⟨_, rfl⟩
  have hchunk : chunkOf cm n body ++ r = natToBytes 8 v ++ (body ++ (pad8 body.length ++ r)) := by
    rw [chunkOf, ← hv, List.append_assoc, List.append_assoc]
  have htake : (chunkOf cm n body ++ r).take 8 = natToBytes 8 v := by rw [hchunk, List.take_left' (natToBytes_length 8 v)]
  have hdrop : (chunkOf cm n body ++ r).drop 8 = body ++ (pad8 body.length ++ r) := by
    rw [hchunk, List.drop_left' (natToBytes_length 8 v)]
  have hfld : ∀ lo len, fld (bytesWord (natToBytes 8 v)) lo len = v / 2 ^ lo % 2 ^ len := by
    intro lo len
    have hlt : v < 2 ^ 64 := by omega
    rw [fld, bytesWord, bytesToNat_natToBytes_of_lt (show v < 256 ^ 8 from hlt), BitVec.toNat_ofNat, Nat.mod_eq_of_lt hlt]
  have hmode : v / 2 ^ 32 % 2 ^ 4 = cm := by omega
  have hlen : v / 2 ^ 16 % 2 ^ 16 = body.length := by omega
  have hout : v / 2 ^ 0 % 2 ^ 12 + 1 = n := by omega
  have hhi : v / 2 ^ 36 % 2 ^ 28 = 0 := by omega
  have hmid : v / 2 ^ 12 % 2 ^ 4 = 0 := by omega
  have hall := chunkOf_length cm n body
  have hpad : (pad8 body.length).length = (8 - body.length % 8) % 8 := by simp [pad8]
  have hrest : (body ++ (pad8 body.length ++ r)).drop (body.length + (8 - body.length % 8) % 8) = r := by
    rw [← List.append_assoc, List.drop_left' (by rw [List.length_append, hpad])]
  unfold unpackChunk
  simp only [htake, hfld, hmode, hlen, hout, hhi, hmid, hdrop, List.take_left, hrest]
  rw [if_neg (by simp only [List.length_append, hall, hpad]; omega)]
  change (match unpackBody cm n body with | some o => some (o, r) | none => none) = some (o, r)
  rw [ho]

theorem unpackBody_ed {mode sz mb : Nat} (hs : EdShape mode sz mb) (h2 : 2 ≤ mode) {l : List Byte}
    (hu : l.length % (32 * sz) = 0) : unpackBody mode l.length (packBody mode l) = some l := by
  obtain ⟨m, hm⟩ := Nat.dvd_of_mod_eq_zero hu
  have hsz : 0 < sz := by obtain ⟨-, ⟨h, -⟩ | ⟨h, -⟩⟩ := hs <;> omega
  have hl : l.length = sz * (32 * m) := by rw [hm, Nat.mul_comm 32 sz, Nat.mul_assoc]
  obtain ⟨hlen, hlt, hflat⟩ := edElems_spec hs hl
  have hle : 32 * m ≤ l.length := by rw [hl]; exact Nat.le_mul_of_pos_left _ hsz
  have h := uned_edBody hs (k := l.length) (hlen ▸ hle) (by omega) hlt
  rw [hflat, hlen] at h
  rw [packBody, if_neg (by omega), unpackBody, hs.1]
  · rw [if_pos hu, show l.length / sz = 32 * m by rw [hl, Nat.mul_div_cancel_left _ hsz], h]
  · omega
  · omega

/-- The body of a chunk unpacks to the chunk. -/
theorem unpackBody_packBody {mode : Nat} {l : List Byte} (h1 : 1 ≤ mode) (h3 : mode ≤ 3) (hu : l.length % packUnit mode = 0) :
    unpackBody mode l.length (packBody mode l) = some l := by
  obtain rfl | rfl | rfl : mode = 1 ∨ mode = 2 ∨ mode = 3 := by omega
  · have hu8 : l.length % 8 = 0 := hu
    obtain ⟨hflat, hlen, heach⟩ := words8_spec (n := l.length / 8) (k := l.length) (l := l) (by omega) (by omega)
    have h := unzr_zrBody (k := l.length) (by omega) heach
    rw [hlen, hflat] at h
    rw [packBody, if_pos rfl, unpackBody, if_pos hu8, h]
  · exact unpackBody_ed edShape_two (Nat.le_refl 2) hu
  · exact unpackBody_ed edShape_three (by decide) hu

theorem packUnit_dvd {mode : Nat} {l : List Byte} (hu : l.length % packUnit mode = 0) :
    l.length % 8 = 0 ∧ (l.take 4096).length % packUnit mode = 0 ∧ (l.drop 4096).length % packUnit mode = 0 := by
  have hunit : packUnit mode = 8 ∨ packUnit mode = 128 ∨ packUnit mode = 64 := by
    unfold packUnit
    split
    · exact .inl rfl
    · split
      · exact .inr (.inl rfl)
      · exact .inr (.inr rfl)
  rw [List.length_take, List.length_drop]
  rcases hunit with h | h | h <;> (rw [h] at hu ⊢; omega)

/-- A chunk that packs a run of bytes unpacks to the run; it is whole words, at most one longer than the run. -/
theorem unpackChunk_packChunk {mode : Nat} {l : List Byte} (h1 : 1 ≤ mode) (h3 : mode ≤ 3) (hu : l.length % packUnit mode = 0)
    (h0 : 0 < l.length) (hn : l.length ≤ 4096) :
    (∀ r, unpackChunk (packChunk mode l ++ r) = some (l, r)) ∧ (packChunk mode l).length % 8 = 0 ∧
      8 ≤ (packChunk mode l).length ∧ (packChunk mode l).length ≤ l.length + 8 := by
  have hu8 := (packUnit_dvd hu).1
  rw [packChunk_eq]
  split
  · next hlt =>
    refine ⟨fun r => unpackChunk_chunkOf h3 (by omega) h0 hn (unpackBody_packBody h1 h3 hu) r, ?_⟩
    rw [chunkOf_length]
    omega
  · refine ⟨fun r => unpackChunk_chunkOf (by decide) hn h0 hn (show unpackBody 0 _ l = _ from if_pos rfl) r, ?_⟩
    rw [chunkOf_length]
    omega

/-! Streams (R112, R115). -/

theorem packChunks_succ (mode : Nat) {l : List Byte} (h : l ≠ []) (k : Nat) :
    packChunks mode (k + 1) l = packChunk mode (l.take 4096) :: packChunks mode k (l.drop 4096) := by
  rw [packChunks]
  exact h

theorem unpackChunks_succ {cap k : Nat} {l o r : List Byte} (hl : l ≠ []) (h : unpackChunk l = some (o, r)) (hc : o.length ≤ cap) :
    unpackChunks cap (k + 1) l = (o :: (unpackChunks (cap - o.length) k r).1, (unpackChunks (cap - o.length) k r).2) := by
  rw [unpackChunks]
  · simp only [h]
    rw [if_neg (Nat.not_lt.mpr hc)]
  · exact hl

/-- The chunks of an input unpack to the input; they are whole words, at most one per chunk more than the input. -/
theorem unpackChunks_packChunks {mode : Nat} (h1 : 1 ≤ mode) (h3 : mode ≤ 3) {k m cap : Nat} {l : List Byte} (hk : l.length ≤ k)
    (hu : l.length % packUnit mode = 0) (hcap : l.length ≤ cap) (hm : (packChunks mode k l).flatten.length ≤ m) :
    (∃ os, unpackChunks cap m (packChunks mode k l).flatten = (os, false) ∧ os.flatten = l) ∧
      (packChunks mode k l).flatten.length % 8 = 0 ∧
      (packChunks mode k l).flatten.length ≤ l.length + 8 * ((l.length + 4095) / 4096) := by
  induction k generalizing m cap l with
  | zero =>
    obtain rfl := List.eq_nil_of_length_eq_zero (Nat.le_zero.mp hk)
    exact ⟨⟨[], by cases m <;> rfl, rfl⟩, rfl, Nat.zero_le _⟩
  | succ k ih =>
    by_cases hne : l = []
    · subst hne
      exact ⟨⟨[], by cases m <;> rfl, rfl⟩, rfl, Nat.zero_le _⟩
    · have hpos : 0 < l.length := List.length_pos_iff.mpr hne
      have htake : (l.take 4096).length = min 4096 l.length := List.length_take
      have hdrop : (l.drop 4096).length = l.length - 4096 := List.length_drop
      obtain ⟨-, hut, hud⟩ := packUnit_dvd hu
      obtain ⟨hun, h8, hge, hle⟩ := unpackChunk_packChunk h1 h3 hut (by omega) (by omega)
      rw [packChunks_succ mode hne, List.flatten_cons] at hm ⊢
      rw [List.length_append] at hm ⊢
      obtain ⟨m, rfl⟩ : ∃ j, m = j + 1 := ⟨m - 1, by omega⟩
      obtain ⟨⟨os, hos, hflat⟩, h8', hle'⟩ := ih (m := m) (cap := cap - (l.take 4096).length) (l := l.drop 4096)
        (by omega) hud (by omega) (by omega)
      refine ⟨⟨l.take 4096 :: os, ?_, ?_⟩, by omega, by omega⟩
      · rw [unpackChunks_succ (List.ne_nil_of_length_pos (by rw [List.length_append]; omega)) (hun _) (by omega), hos]
      · rw [List.flatten_cons, hflat, List.take_append_drop]

/-- Settles O26: chunk by chunk, each body unpacks to its chunk. -/
theorem saigaRoundTrip : Obligations.SaigaRoundTrip := by
  intro mode l cap h1 h3 hu hcap
  exact unpackChunks_packChunks h1 h3 (Nat.le_refl _) hu hcap (Nat.le_refl _)

end Sys2Proof.Machine

/-!
PROOFS. What eland, impala, oryx and kudu compute on integers and bytes (R95, R104, R108 to R110, R149, R152).
-/

namespace Sys2Proof.Machine

/-! Scratch after runs of byte units (R110). -/

/-- A write of two strings one behind the other. -/
theorem Mem.write_append (m : SMap Byte) (a : Nat) (l r : List Byte) :
    Mem.write m a (l ++ r) = Mem.write (Mem.write m a l) (a + l.length) r := by
  induction l generalizing m a with
  | nil => rfl
  | cons b t ih => rw [List.cons_append, Mem.write, ih, Mem.write, List.length_cons, Nat.add_comm t.length, Nat.add_assoc]

/-- The units of a run of bytes write the run. -/
theorem afterUnits_byteUnits (l : BitVec 32) {k : Nat} (hk : 0 < k) (e : Nat) {f : Nat} {b : List Byte} (hf : b.length ≤ f)
    (m : SMap Byte) (a p : Nat) : afterUnits m (byteUnits l a k e p f b) = Mem.write m a b := by
  induction f generalizing b m a p with
  | zero =>
    obtain rfl := List.eq_nil_of_length_eq_zero (Nat.le_zero.mp hf)
    rfl
  | succ f ih =>
    by_cases hb : b = []
    · subst hb
      rfl
    · have hpos : 0 < b.length := List.length_pos_iff.mpr hb
      have hstep : afterUnits m (byteUnits l a k e p (f + 1) b) = afterUnits (Mem.write m a (b.take k))
          (byteUnits l (a + (b.take k).length) k e (p + (b.take k).length / e) f (b.drop k)) := by
        rw [byteUnits]
        · rfl
        · exact hb
      rw [hstep, ih (by rw [List.length_drop]; omega), ← Mem.write_append, List.take_append_drop]

@[simp] theorem Mem.bytes_length (m : SMap Byte) (a n : Nat) : (Mem.bytes m a n).length = n := by simp [Mem.bytes]

theorem Mem.bytes_getElem (m : SMap Byte) (a n j : Nat) (h : j < (Mem.bytes m a n).length) : (Mem.bytes m a n)[j] = Mem.byte m (a + j) := by
  simp [Mem.bytes, rangeFrom_eq_range']

/-- The bytes of a copy of one row. -/
theorem afterUnits_copy (c : ElCmd) (m : SMap Byte) (l : BitVec 32) (h : c.rows = 1) :
    afterUnits m (elUnits c .copy m l) = Mem.write m c.d (Mem.bytes m c.a c.n) := by
  have hu : elUnits c .copy m l = byteUnits l c.d 256 1 (0 * c.n) c.n (Mem.bytes m c.a c.n) := by
    simp [elUnits, h, rangeFrom]
  rw [hu, afterUnits_byteUnits l (by decide) 1 (Nat.le_of_eq (Mem.bytes_length ..))]

/-- A fill of 1-byte elements of one row writes the low byte of value. -/
theorem afterUnits_fill (c : ElCmd) (m : SMap Byte) (l : BitVec 32) (h : c.rows = 1) (he : c.esz = 1) :
    afterUnits m (elUnits c .fill m l) = Mem.write m c.d (List.replicate c.n (BitVec.ofNat 8 c.value)) := by
  have hb : BitVec.ofNat 8 (c.value + c.value * 2 ^ 32) = BitVec.ofNat 8 c.value := by
    apply BitVec.eq_of_toNat_eq
    rw [BitVec.toNat_ofNat, BitVec.toNat_ofNat]
    omega
  have hx : c.fillElem = [BitVec.ofNat 8 c.value] := by rw [ElCmd.fillElem, he, natToBytes, natToBytes, hb]
  have hu : elUnits c .fill m l = byteUnits l c.d 256 1 (0 * c.n) c.n (List.replicate c.n (BitVec.ofNat 8 c.value)) := by
    simp [elUnits, h, he, hx, rangeFrom]
  rw [hu, afterUnits_byteUnits l (by decide) 1 (Nat.le_of_eq List.length_replicate)]

/-! One index of impala, one element of oryx, one block of kudu (R104, R95, R152). -/

theorem impUnits_gather (c : ImpCmd) (m : SMap Byte) (h : c.index m 0 < c.limit) :
    ∃ u, impUnits c .gather m [0] = ([u], none) ∧
      u.writes = [(c.d, Mem.bytes m (c.s + c.index m 0 * 2 ^ c.esz) (2 ^ c.esz))] := by
  rw [impUnits, if_neg (Nat.not_le.mpr h)]
  exact ⟨_, rfl, by simp⟩

theorem oryxElems_int32 {c : OryxCmd} (h : c.fmt = .int32) (f : Bool → Num → Num → Num → Num → Num → Num)
    (g : Int → Int → Int → Int → Int → Int) (l : BitVec 32) (a b x : Nat) :
    oryxElems c f g l [(a, some b, x)] =
      ([wrap32 (g (signed c.s 32) (signed c.t 32) (signed a 32) (signed b 32) (signed x 32))], l) := by
  rw [oryxElems, if_pos h]
  rfl

/-- The products of a block of kept pairs add up to their sum. -/
theorem kuduInt_some (ps : List (Nat × Nat)) :
    kuduInt (ps.map fun p => some p.1) (ps.map fun p => some p.2) = (ps.map fun p => signed p.1 8 * signed p.2 8).sum := by
  rw [kuduInt, List.zip_map', List.foldl_map, List.sum_eq_foldl, List.foldl_map]

/-- Settles O27: a row's units write its bytes in order; the integer results are those of the operations' own definitions. -/
theorem engineResults : Obligations.EngineResults := by
  refine ⟨fun c m l h => ⟨fun j hj _ => ?_, fun he j hj => ?_⟩, impUnits_gather, fun c l a b x h p _ => ?_,
    fun c m r n ps hfc hacc => ?_⟩
  · rw [afterUnits_copy c m l h, Mem.byte_write_same _ m c.d j (by simpa using hj), Mem.bytes_getElem]
  · rw [afterUnits_fill c m l h he, Mem.byte_write_same _ m c.d j (by simpa using hj), List.getElem_replicate]
  · exact oryxElems_int32 h ..
  · rw [kuduElem, if_pos hfc, hacc, kuduInt_some]
    simp

end Sys2Proof.Machine

/-!
PROOFS. Pre-emption and resume: the four commands of a transfer on a die (R246 to R255).
-/

namespace Sys2Proof.Machine

/-! Engines of a core. -/

@[simp] theorem Core.engine_setEngine_same (c : Core) (n : Nat) (e : Engine) : (c.setEngine n e).engine n = e := by
  simp [Core.engine, Core.setEngine]

@[simp] theorem Core.engine_setEngine_other (c : Core) {n m : Nat} (e : Engine) (h : m ≠ n) : (c.setEngine n e).engine m = c.engine m := by
  simp [Core.engine, Core.setEngine, h]

/-- An update of each engine from `a` to `a + n`, one after the other. -/
theorem Core.engine_foldl_setEngine (f : Engine → Engine) (a n : Nat) (c : Core) (m : Nat) :
    ((rangeFrom a n).foldl (fun c n => c.setEngine n (f (c.engine n))) c).engine m =
      if a ≤ m ∧ m < a + n then f (c.engine m) else c.engine m := by
  induction n generalizing a c with
  | zero => rw [if_neg (by omega)]; rfl
  | succ n ih =>
    rw [rangeFrom, List.foldl_cons, ih]
    by_cases hm : m = a
    · subst hm
      rw [if_neg (by omega), if_pos (by omega), Core.engine_setEngine_same]
    · rw [Core.engine_setEngine_other _ _ hm]
      have : (a + 1 ≤ m ∧ m < a + 1 + n) ↔ (a ≤ m ∧ m < a + (n + 1)) := by omega
      simp only [this]

theorem Core.foldl_setEngine_rs (f : Core → Nat → Engine) (l : List Nat) (c : Core) :
    (l.foldl (fun c n => c.setEngine n (f c n)) c).rs = c.rs := by
  induction l generalizing c with
  | nil => rfl
  | cons n l ih => exact ih _

theorem Core.engine_stopEngines (c : Core) (b : Bool) {n : Nat} (h : n < 7) :
    (c.stopEngines b).engine n = { c.engine n with stop := b, held := false } := by
  rw [Core.stopEngines, Core.engine_foldl_setEngine (fun e => { e with stop := b, held := false }), if_pos (by omega)]

theorem Core.stopEngines_rs (c : Core) (b : Bool) : (c.stopEngines b).rs = c.rs := Core.foldl_setEngine_rs _ _ c

theorem Core.engine_release (c : Core) {n : Nat} (h : n < 7) :
    c.release.engine n = { (c.stopEngines true).engine n with queue := [], run := none, active := [], slots := [] } := by
  rw [Core.release, Core.engine_foldl_setEngine (fun e => { e with queue := [], run := none, active := [], slots := [] }),
    if_pos (by omega)]

/-- What a pre-emption does to a core at its start (R249 step 1). -/
def Core.haltForSave (env : CoreEnv) (c : Core) : Core := (if c.rs.halted then c else c.halt env .haltedCtl).stopEngines true

theorem Core.haltForSave_spec (env : CoreEnv) (c : Core) :
    (c.haltForSave env).rs.halted = true ∧ ∀ n, n < 7 → ((c.haltForSave env).engine n).stop = true := by
  refine ⟨?_, fun n hn => ?_⟩
  · rw [Core.haltForSave, Core.stopEngines_rs]
    split
    · assumption
    · rfl
  · rw [Core.haltForSave, Core.engine_stopEngines _ _ hn]

/-! Transfers, faults and the end of a transfer. -/

theorem State.reloading_of_none {s : State} (h : s.fw.pausing = none) (d : Nat) : s.reloading d = false := by
  simp [State.reloading, h]

theorem State.withdrawFaults_nil {s : State} (h : s.mmu.faults = []) (f : MFault → Bool) : s.withdrawFaults f = s := by
  simp [State.withdrawFaults, h]

@[simp] theorem State.xfer_setXfer_same (s : State) (d : Nat) (x : Option Transfer) : (s.setXfer d x).xfer d = x := by
  simp [State.xfer, State.setXfer]

@[simp] theorem State.dieQueue_setDieQueue_same (s : State) (d : Nat) (l : List SqEntry) : (s.setDieQueue d l).dieQueue d = l := by
  simp [State.dieQueue, State.setDieQueue]

/-- The end of an entry touches the host attachment only, and reports no event. -/
theorem State.endBy_frame (s : State) (ring index status : Nat) (result : Word) :
    ∃ a, s.endBy ring index status result = { s with host := a } ∧ a.events = s.host.events := by
  unfold State.endBy
  split
  · exact ⟨_, rfl, rfl⟩
  · exact ⟨s.host, rfl, rfl⟩

/-- The end of a transfer that lost no core: its event, source 24 of its die, and nothing else but the completion. -/
theorem State.xferEnd_spec (s : State) (d : Nat) (save : Bool) (job ring index : Nat) {status : Nat} (h : status ≠ 1) :
    ∃ a ev, s.xferEnd d save job ring index status [] =
        { s with host := a, dieCtl := SMap.set (fun _ => IntCtl.reset) s.dieCtl d ((s.dieIntc d).edge 24) } ∧
      a.events = s.host.events ++ [ev] ∧ ev.code = (if save then 0x0708 else 0x0709) ∧
      ev.detail = b1 job ++ b1 d ++ b1 status := by
  unfold State.xferEnd
  simp only [if_neg h, List.append_nil]
  obtain ⟨a, ha, hev⟩ := (s.event (if save then 0x0708 else 0x0709) (b1 job ++ b1 d ++ b1 status)).endBy_frame ring index 0
    (BitVec.ofNat 64 (status + 0))
  rw [ha]
  exact ⟨a, _, rfl, hev, rfl, rfl⟩

theorem State.dieIntc_of_dieCtl {s t : State} {d : Nat} {c : IntCtl} (h : t.dieCtl = SMap.set (fun _ => IntCtl.reset) s.dieCtl d c) :
    t.dieIntc d = c := by
  rw [State.dieIntc, h, SMap.get_set_same]

/-! PREEMPT (R246, R249). -/

theorem State.foldl_onKey_frame (f : CoreEnv → Core → Core) (ks : List Nat) (s : State) :
    ∃ cs, ks.foldl (fun s k => s.onKey k f) s = { s with cores := cs } := by
  induction ks generalizing s with
  | nil => exact ⟨s.cores, rfl⟩
  | cons k ks ih =>
    obtain ⟨cs, h⟩ := ih (s.onKey k f)
    exact ⟨cs, h⟩

theorem State.coreAt_foldl_onKey_other (f : CoreEnv → Core → Core) {ks : List Nat} (s : State) {k : Nat} (h : k ∉ ks) :
    (ks.foldl (fun s k => s.onKey k f) s).coreAt k = s.coreAt k := by
  induction ks generalizing s with
  | nil => rfl
  | cons j ks ih =>
    rw [List.mem_cons, not_or] at h
    rw [List.foldl_cons, ih _ h.2, State.onKey_eq, State.coreAt_setCore_other _ _ h.1]

/-- What holds of every core after an update holds of the cores that a list of updates reached. -/
theorem State.coreAt_foldl_onKey_mem {p : Core → Prop} {f : CoreEnv → Core → Core} (hp : ∀ env c, p (f env c)) {ks : List Nat}
    (s : State) {k : Nat} (h : k ∈ ks) : p ((ks.foldl (fun s k => s.onKey k f) s).coreAt k) := by
  induction ks generalizing s with
  | nil => simp at h
  | cons j ks ih =>
    rw [List.foldl_cons]
    by_cases hk : k ∈ ks
    · exact ih _ hk
    · obtain rfl : k = j := by simpa [hk] using h
      rw [State.coreAt_foldl_onKey_other f _ hk, State.onKey_eq, State.coreAt_setCore_same]
      exact hp _ _

/-- Stops the cores of a job for a save. -/
def State.stopForSave (s : State) (ks : List Nat) : State := ks.foldl (fun s k => s.onKey k fun env c => c.haltForSave env) s

theorem State.stopForSave_frame (s : State) (ks : List Nat) : ∃ cs, s.stopForSave ks = { s with cores := cs } :=
  State.foldl_onKey_frame _ ks s

/-- Begins the transfer of a save with the next sequence number of its die. -/
def State.beginSave (s : State) (d : Nat) (e : SqEntry) (cores : List XferCore) : State :=
  let seq := (SMap.get (fun _ => 0) s.mmu.saveSeq d + 1) % 2 ^ 64
  ({ s with mmu := { s.mmu with saveSeq := SMap.set (fun _ => 0) s.mmu.saveSeq d seq } } : State).setXfer d
    (some { save := true, job := e.job, base := e.saveBase, cores := cores, lost := [], status := none,
            seq := seq, t0 := s.now, ring := e.ring, index := e.index })

/-- The state in which a save stops the cores: its entry has left the queue, and a failed save of the job is forgotten. -/
def State.leaveQueue (s : State) (d job : Nat) : State := (s.setDieQueue d (s.dieQueue d).tail).dropStopped d job

/-- A save that may start takes its entry off the queue, stops the cores of the job and begins the transfer. -/
theorem State.startSave_eq {s : State} {d : Nat} {e : SqEntry} (hf : s.mmu.faults = []) (hne : s.jobCores d e.job ≠ [])
    (hall : (s.jobCores d e.job).all (fun k => (s.coreAt k).stopping) = false) :
    ∃ cores : List XferCore, cores.map (·.key) = s.jobCores d e.job ∧
      s.startSave d e = ((s.leaveQueue d e.job).stopForSave (s.jobCores d e.job)).beginSave d e cores := by
  have hnone : ((s.leaveQueue d e.job).stopForSave (s.jobCores d e.job)).mmu.faults = [] := by
    obtain ⟨cs, h⟩ := (s.leaveQueue d e.job).stopForSave_frame (s.jobCores d e.job)
    rw [h]
    exact hf
  have hgo : ¬ ((s.jobCores d e.job).isEmpty || ((s.setDieQueue d (s.dieQueue d).tail).stoppedOf d e.job).isNone &&
      (s.jobCores d e.job).all fun k => (s.coreAt k).stopping) = true := by simp [hne, hall]
  refine ⟨_, ?_, (if_neg hgo).trans (congrArg (fun v : State => v.beginSave d e _)
    (State.withdrawFaults_nil hnone fun f => (s.jobCores d e.job).contains f.core))⟩
  rw [List.map_map]
  exact List.map_id _

theorem exec_preempt_starts {s : State} {d : Die} {e : SqEntry} {rest : List SqEntry} (hr : s.reloading d.val = false)
    (hx : s.xfer d.val = none) (hq : s.dieQueue d.val = e :: rest) (hop : e.op = 0x03) :
    exec (.preempt d) s = .next (s.startSave d.val e) := by
  show execPreempt d s = _
  simp [execPreempt, hr, hx, hq, hop]

/-! PREEMPT_DONE (R249, R250, R253). -/

theorem State.withdrawDrain_nil {s : State} (h : s.mmu.faults = []) (x : Transfer) : s.withdrawDrain x = (s, x) := by
  simp [State.withdrawDrain, State.withdrawFaults_nil h, h]

theorem Transfer.written_one {x : Transfer} {xc : XferCore} (hx : x.cores = [xc]) (l : List Nat) :
    x.written [(xc.key, l)] = { x with cores := [{ xc with pages := l }] } := by
  simp [Transfer.written, hx]

theorem State.touchPages_frame (s : State) (pages : List Nat) : ∃ u, s.touchPages pages = { s with mmu := u } := by
  unfold State.touchPages
  induction pages generalizing s with
  | nil => exact ⟨s.mmu, rfl⟩
  | cons p t ih =>
    obtain ⟨u, h⟩ := ih (s.touchSaved p 65536)
    exact ⟨u, h⟩

/-- The record of a core goes to its pages; what is kept of earlier records and the free values move on. -/
theorem State.saveCore_eq (s : State) (d : Nat) (x : Transfer) (xc : XferCore) (pages : List Nat) :
    ∃ m n u, s.saveCore d x xc pages = { s with mem := m, free := n, mmu := u } ∧
      m.bytes = writePages s.mem.bytes pages (saveRecord (s.envAt xc.key) (s.coreAt xc.key) x xc
        (s.logCol d (keyPos xc.key).2.1 (keyPos xc.key).2.2) (s.freeBytes 14336).2) := by
  unfold State.saveCore
  dsimp only
  refine ⟨_, _, _, (State.touchPages_frame _ pages).choose_spec, rfl⟩

/-- The commit word of a core's record is written, and the core is released. -/
theorem State.commitCore_eq (s : State) (d : Nat) (x : Transfer) (xc : XferCore) :
    ∃ u, s.commitCore d x xc = ({ s with
      mem := { s.mem with bytes := Mem.write s.mem.bytes (nth 0 xc.pages 26 + 0xFFF8) (commitWord x.seq) },
      mmu := u } : State).setCore xc.key (s.coreAt xc.key).release := ⟨_, rfl⟩

/-- The work on a save of one core whose engines hold and whose pages translate: record, commit, end. -/
theorem State.saveWork_one {s s1 : State} {d : Nat} {x : Transfer} {xc : XferCore} {rd : Reads} {pages : List Nat}
    (hf : s.mmu.faults = []) (hst : x.status = none) (hx : x.cores = [xc]) (hp : xc.pages = [])
    (hup : (s.coreAt xc.key).rs ≠ .fenced) (hheld : (s.coreAt xc.key).enginesHeld = true) (hup1 : (s1.coreAt xc.key).rs ≠ .fenced)
    (hpages : s.xferPages rd x [xc.key] 0 recordPages = (s1, ⟨[(xc.key, pages)], [], false⟩)) (hout : pages.any s1.pageOut = false) :
    s.saveWork d x rd = (((s1.saveCore d x xc pages).commitCore d { x with cores := [{ xc with pages := pages }] }
      { xc with pages := pages }).setXfer d none).xferEnd d true x.job x.ring x.index 0 [] := by
  have hsaved : ((s1.saveCore d x xc pages).coreAt xc.key).rs ≠ .fenced := by
    obtain ⟨m, n, u, h, -⟩ := s1.saveCore_eq d x xc pages
    rw [h]
    exact hup1
  have hlive : [xc].filter (fun c => decide ((s.coreAt c.key).rs ≠ .fenced)) = [xc] := by simp [hup]
  have hlost : [xc].filter (fun c => decide ((s.coreAt c.key).rs = .fenced)) = [] := by simp [hup]
  have htodo : [xc].filter (fun c => c.pages.isEmpty) = [xc] := by simp [hp]
  unfold State.saveWork
  simp only [hst, State.withdrawDrain_nil hf, hx, hlive, hlost, htodo, List.map_cons, List.map_nil, List.all_cons, List.all_nil,
    hheld, hpages, List.any_cons, List.any_nil, hout]
  simp [Transfer.written_one hx, hsaved, hst]

/-- The end of a save of one core (R248, R249, R253): the record and the commit word are in memory, the core is released. -/
theorem State.saveWork_one_spec {s s1 : State} {d : Nat} {x : Transfer} {xc : XferCore} {rd : Reads} {pages : List Nat}
    (hf : s.mmu.faults = []) (hst : x.status = none) (hx : x.cores = [xc]) (hp : xc.pages = [])
    (hup : (s.coreAt xc.key).rs ≠ .fenced) (hheld : (s.coreAt xc.key).enginesHeld = true) (hup1 : (s1.coreAt xc.key).rs ≠ .fenced)
    (hpages : s.xferPages rd x [xc.key] 0 recordPages = (s1, ⟨[(xc.key, pages)], [], false⟩)) (hout : pages.any s1.pageOut = false) :
    ∃ m n u a ev, s.saveWork d x rd = (({ s1 with
        mem := m
        free := n
        mmu := u
        host := a
        dieCtl := SMap.set (fun _ => IntCtl.reset) s1.dieCtl d ((s1.dieIntc d).edge 24) } : State).setCore xc.key
          (s1.coreAt xc.key).release).setXfer d none ∧
      m.bytes = Mem.write (writePages s1.mem.bytes pages (saveRecord (s1.envAt xc.key) (s1.coreAt xc.key) x xc
        (s1.logCol d (keyPos xc.key).2.1 (keyPos xc.key).2.2) (s1.freeBytes 14336).2)) (nth 0 pages 26 + 0xFFF8) (commitWord x.seq) ∧
      a.events = s1.host.events ++ [ev] ∧ ev.code = 0x0708 ∧ ev.detail = b1 x.job ++ b1 d ++ b1 0 := by
  obtain ⟨m, n, u, hsave, hbytes⟩ := s1.saveCore_eq d x xc pages
  obtain ⟨v, hcommit⟩ := (s1.saveCore d x xc pages).commitCore_eq d { x with cores := [{ xc with pages := pages }] }
    { xc with pages := pages }
  obtain ⟨a, ev, hend, hev, hcode, hdetail⟩ := State.xferEnd_spec (((s1.saveCore d x xc pages).commitCore d
    { x with cores := [{ xc with pages := pages }] } { xc with pages := pages }).setXfer d none) d true x.job x.ring x.index
    (status := 0) (by decide)
  rw [State.saveWork_one hf hst hx hp hup hheld hup1 hpages hout, hend]
  rw [hcommit, hsave] at hev ⊢
  refine ⟨_, _, v, a, ev, rfl, ?_, hev, hcode, hdetail⟩
  rw [← hbytes]
  rfl

theorem exec_preemptDone_works {s : State} {d : Die} {x : Transfer} (hr : s.reloading d.val = false) (hx : s.xfer d.val = some x)
    (hs : x.save = true) (rd : Reads) : exec (.preemptDone d rd) s = .next (s.saveWork d.val x rd) := by
  show execPreemptDone d rd s = _
  simp [execPreemptDone, hr, hx, hs]

/-! RESUME and RESUME_DONE (R251 to R253). -/

/-- In place, the cores of the pre-emption that failed run again at once. -/
theorem State.startResume_inPlace {s : State} {d : Nat} {e : SqEntry} {x : Transfer} {xc : XferCore} (hb : bit (e.w 2) 8 = true)
    (hs : s.mmu.stopped = [(d, x)]) (hj : x.job = e.job) (hx : x.cores = [xc]) (hup : (s.coreAt xc.key).rs ≠ .fenced) :
    s.startResume d e = ((({ s.setDieQueue d (s.dieQueue d).tail with mmu := { s.mmu with stopped := [] } } : State).setCore xc.key
      ((s.coreAt xc.key).runAgain xc.state)).setXfer d
        (some { x with save := false, status := some 0, ring := e.ring, index := e.index })) := by
  have hof : (s.setDieQueue d (s.dieQueue d).tail).stoppedOf d e.job = some x := by
    simp [State.stoppedOf, State.setDieQueue, hs, hj]
  have hdrop : (s.setDieQueue d (s.dieQueue d).tail).dropStopped d e.job =
      { s.setDieQueue d (s.dieQueue d).tail with mmu := { s.mmu with stopped := [] } } := by
    simp [State.dropStopped, State.setDieQueue, hs, hj]
  unfold State.startResume
  dsimp only
  rw [if_pos hb, hof]
  dsimp only
  rw [hdrop, hx, List.foldl_cons, List.foldl_nil, State.onKey_eq]
  exact congrArg (fun c => (State.setCore _ xc.key c).setXfer d _) (if_neg hup)

theorem State.resumeWork_of_status {s : State} {d st : Nat} {x : Transfer} (h : x.status = some st) (rd : Reads) :
    s.resumeWork d x rd = s := by
  unfold State.resumeWork
  rw [h]

/-- A resume that its start has brought to a status does no further work. -/
theorem exec_resume_starts {s : State} {d : Die} {e : SqEntry} {rest : List SqEntry} {x : Transfer} {st : Nat}
    (hr : s.reloading d.val = false) (hx : s.xfer d.val = none) (hq : s.dieQueue d.val = e :: rest) (hop : e.op = 0x04)
    (hy : (s.startResume d.val e).xfer d.val = some x) (hst : x.status = some st) (rd : Reads) :
    exec (.resume d rd) s = .next (s.startResume d.val e) := by
  show execResume d rd s = _
  simp [execResume, hr, hx, hq, hop, hy, State.resumeWork_of_status hst]

/-- A resume that reached a status but RESUME_FAULT ends with it. -/
theorem exec_resumeDone_ends {s : State} {d : Die} {x : Transfer} {st : Nat} (hr : s.reloading d.val = false)
    (hf : s.mmu.faults = []) (hx : s.xfer d.val = some x) (hs : x.save = false) (hst : x.status = some st) (h7 : st ≠ 7) (rd : Reads) :
    exec (.resumeDone d rd) s = .next ((s.setXfer d.val none).xferEnd d.val false x.job x.ring x.index st []) := by
  show execResumeDone d rd s = _
  simp [execResumeDone, hr, hx, hs, State.resumeWork_of_status hst, hst, State.withdrawFaults_nil hf, h7]

/-- Settles O36: each command is the start, the work or the end of a transfer, and what these leave is stated above. -/
theorem preemptAndResume : Obligations.PreemptAndResume := by
  intro s d hf hpause
  have hr := State.reloading_of_none hpause d.val
  refine ⟨?_, ?_, ?_, ?_⟩
  · intro e rest ks hx hq hop hne hall
    obtain ⟨cores, hkeys, hstart⟩ := State.startSave_eq hf hne hall
    obtain ⟨cs, hcs⟩ := (s.leaveQueue d.val e.job).stopForSave_frame ks
    have hcore : ∀ k, (s.startSave d.val e).coreAt k = ((s.leaveQueue d.val e.job).stopForSave ks).coreAt k := fun k => by
      rw [hstart]
      rfl
    refine ⟨_, exec_preempt_starts hr hx hq hop, ?_, ?_, ?_, fun k hk => ?_, fun k hk => ?_, ?_⟩
    · rw [hstart, hcs]
      exact (State.dieQueue_setDieQueue_same ..).trans (by rw [hq, List.tail_cons])
    · rw [hstart, hcs]
      rfl
    · rw [hstart, hcs]
      rfl
    · rw [hcore]
      exact State.coreAt_foldl_onKey_mem (p := fun c => c.rs.halted = true ∧ ∀ n, n < 7 → (c.engine n).stop = true)
        Core.haltForSave_spec _ hk
    · rw [hcore]
      exact State.coreAt_foldl_onKey_other _ _ hk
    · rw [hstart, hcs, State.beginSave]
      exact ⟨_, State.xfer_setXfer_same .., rfl, rfl, rfl, hkeys, rfl, rfl⟩
  · intro tabs ecc x xc s1 pages c hx hsave hst hcores hp hup hheld hup1 hpages hout
    obtain ⟨m, n, u, a, ev, hwork, hbytes, hev, hcode, hdetail⟩ :=
      State.saveWork_one_spec (d := d.val) hf hst hcores hp hup hheld hup1 hpages hout
    refine ⟨_, (exec_preemptDone_works hr hx hsave _).trans (congrArg _ hwork), State.xfer_setXfer_same .., hbytes,
      fun n hn => ?_, fun k hk => State.coreAt_setCore_other _ _ hk, ⟨ev, hev, hcode, hdetail⟩, State.dieIntc_of_dieCtl rfl⟩
    have hc : ∀ w : State, ((w.setCore xc.key (s1.coreAt xc.key).release).setXfer d.val none).coreAt xc.key =
        (s1.coreAt xc.key).release := fun w => w.coreAt_setCore_same ..
    rw [hc, Core.engine_release _ hn, Core.engine_stopEngines _ _ hn]
    exact ⟨rfl, rfl, rfl, rfl⟩
  · intro e rest x xc hx hq hop hb hs hj hcores hup
    have hstart := State.startResume_inPlace (s := s) (d := d.val) hb hs hj hcores hup
    have hexec := exec_resume_starts hr hx hq hop (hstart ▸ State.xfer_setXfer_same ..) rfl ⟨[], []⟩
    refine ⟨_, hexec.trans (congrArg _ hstart), ?_, rfl, State.xfer_setXfer_same .., State.coreAt_setCore_same ..,
      fun k hk => State.coreAt_setCore_other _ _ hk⟩
    exact (State.dieQueue_setDieQueue_same ..).trans (by rw [hq, List.tail_cons])
  · intro x st hx hsave hst h7 h1
    obtain ⟨a, ev, hend, hev, hcode, hdetail⟩ :=
      (s.setXfer d.val none).xferEnd_spec d.val false x.job x.ring x.index h1
    exact ⟨_, (exec_resumeDone_ends hr hf hx hsave hst h7 _).trans (congrArg _ hend), State.xfer_setXfer_same .., rfl, rfl,
      ⟨ev, hev, hcode, hdetail⟩, State.dieIntc_of_dieCtl rfl⟩

end Sys2Proof.Machine

/-!
PROOFS. Boot control over a cold reset: a write of it that waits for package flash is lost (R448, R480, R529).
-/

namespace Sys2Proof.Machine

/-! A change of boot control behind another flash write (R480, R529). -/

/-- A short write that finds another before it waits. -/
theorem State.shortWrite_of_waiting {s : State} (h : s.fw.queue ≠ []) (o : FlashOp) :
    s.shortWrite o = { s with fw := { s.fw with queue := s.fw.queue ++ [o] } } := by
  simp [State.shortWrite, h]

/-- The registers that follow package flash (R510, R511) are all that its show writes. -/
theorem State.fwShow_eq (s : State) : ∃ (confirmed : Nat) (a b ver sec own pol : Word),
    s.fwShow = ((((((s.setRfld R.fwStatus 3 1 confirmed).setReg R.fwSlotA a).setReg R.fwSlotB b).setReg R.fwSecver ver).setReg
      R.secStatus sec).setReg R.secOwnerId own).setReg R.secPolicySeq pol :=
  ⟨_, _, _, _, _, _, _, rfl⟩

theorem State.fwShow_fw (s : State) : s.fwShow.fw = s.fw := by
  obtain ⟨_, _, _, _, _, _, _, h⟩ := s.fwShow_eq
  simp only [h, State.setReg_fw, State.setRfld_fw]

theorem State.fwShow_therm (s : State) : s.fwShow.therm = s.therm := by
  obtain ⟨_, _, _, _, _, _, _, h⟩ := s.fwShow_eq
  simp only [h, State.setReg_therm, State.setRfld_therm]

theorem State.reg_fwShow_clkRefStatus (s : State) : s.fwShow.reg R.clkRefStatus = s.reg R.clkRefStatus := by
  obtain ⟨_, _, _, _, _, _, _, h⟩ := s.fwShow_eq
  rw [h]
  iterate 6 rw [State.reg_setReg_other _ _ (by decide)]
  exact State.reg_setRfld_other _ _ _ _ (by decide)

/-- Boot control changes while another flash write waits: the copies in package flash do not, nor does anything that
REFCLK_LOSS looks at. -/
theorem State.setBoot_of_waiting {s : State} (h : s.fw.queue ≠ []) (c : BootCtl) :
    (s.setBoot c).fw.boot = { c with seq := s.fw.boot.seq + 1 } ∧ (s.setBoot c).fw.copies = s.fw.copies ∧
      (s.setBoot c).therm = s.therm ∧ (s.setBoot c).reg R.clkRefStatus = s.reg R.clkRefStatus := by
  have hset : s.setBoot c = ({ s with fw := { s.fw with
      boot := { c with seq := s.fw.boot.seq + 1 }
      queue := s.fw.queue ++ [.boot { c with seq := s.fw.boot.seq + 1 }] } } : State).fwShow :=
    congrArg State.fwShow (State.shortWrite_of_waiting
      (s := { s with fw := { s.fw with boot := { c with seq := s.fw.boot.seq + 1 } } }) h _)
  rw [hset, State.fwShow_fw, State.fwShow_therm, State.reg_fwShow_clkRefStatus]
  exact ⟨rfl, rfl, rfl, rfl⟩

/-! REFCLK_LOSS (R453). -/

/-- Boot control in a cold reset is the copy in force in package flash (R480). -/
theorem State.holdCold_boot (s : State) (cause : Nat) : (s.holdCold cause).fw.boot = bootInForce s.fw.copies := rfl

/-- The loss of REFCLK makes no write that waits: boot control becomes what package flash holds. -/
theorem exec_refclkLoss_boot {s : State} (htrip : s.therm.tripped = false) (hclk : bit (s.reg R.clkRefStatus) 0 = true) :
    ∃ t, exec .refclkLoss s = .next t ∧ t.fw.boot = bootInForce s.fw.copies := by
  have hcold : s.cold 5 = s.holdCold 5 := by simp [State.cold, htrip]
  have hexec : exec .refclkLoss s = .next (((s.holdCold 5).setRfld R.clkRefStatus 0 1 0).setRfld R.clkRefStatus 32 16
      (min 65535 (s.rfld R.clkRefStatus 32 16 + 1))) := by
    show execRefclkLoss s = _
    simp [execRefclkLoss, hclk, hcold]
  refine ⟨_, hexec, ?_⟩
  rw [State.setRfld_fw, State.setRfld_fw, State.holdCold_boot]

/-! The counterexample. -/

/-- A device after reset with a ledger record still to be written to package flash. -/
def ledgerWaits : State := State.reset.flashAsk (.ledger false 0 [])

/-- Slot B is marked empty there, as at the start of a staging (R491). -/
def bootWaits : State := ledgerWaits.markSlot true 0

/-- Its boot control is newer than package flash has it, and a loss of REFCLK puts it into cold reset. -/
theorem bootWaits_spec : bootWaits.fw.boot ≠ bootInForce bootWaits.fw.copies ∧ bootWaits.therm.tripped = false ∧
    bootWaits.therm.cold = none ∧ bit (bootWaits.reg R.clkRefStatus) 0 = true := by
  obtain ⟨hboot, hcopies, htherm, hclk⟩ :=
    State.setBoot_of_waiting (s := ledgerWaits) (by decide) (ledgerWaits.fw.boot.setState true 0)
  rw [bootWaits, State.markSlot, hboot, hcopies, htherm, hclk]
  decide +kernel

/-- Refutes O55: a write of boot control that waits behind another flash write is lost with REFCLK (R529), so the boot
control that the device had before is not kept. -/
theorem not_resetCommands : ¬ Obligations.ResetCommands := by
  intro h
  obtain ⟨hnew, htrip, hcold, hclk⟩ := bootWaits_spec
  obtain ⟨-, -, -, hdevice⟩ := h
  obtain ⟨-, -, -, hreset, -⟩ := hdevice bootWaits
  obtain ⟨t, ht, hheld, -⟩ := (hreset htrip hcold).2 hclk
  obtain ⟨-, -, -, -, -, -, hflash⟩ := hheld
  obtain ⟨t', ht', hboot⟩ := exec_refclkLoss_boot htrip hclk
  obtain rfl := Host.Outcome.next.inj (ht.symm.trans ht')
  have hkept : t.fw.boot = bootWaits.fw.boot := congrArg (fun x => x.2.2) hflash
  exact hnew (hkept.symm.trans hboot)

end Sys2Proof.Machine

/-!
PROOFS. The Chomet base: windows, maps, bursts, packets and resends (R196 to R209, R219).
-/

namespace Sys2Proof.Machine

/-! What a writer and a reader hold of each other, and control words (R198). -/

@[simp] theorem State.chW_setChW_same (s : State) (w r : Nat) (y : ChWriter) : (s.setChW w r y).chW w r = y :=
  SMap.get_set_same ..

@[simp] theorem State.chR_setChR_same (s : State) (r w : Nat) (x : ChReader) : (s.setChR r w x).chR r w = x :=
  SMap.get_set_same ..

/-- A control word of a kind with a good CRC that names a stop. -/
def CtlWordFor (word : Word) (kind stop : Nat) : Prop :=
  fld word 0 8 = crc8 word ∧ fld word 60 4 = kind ∧ fld word 55 5 = stop

theorem State.ctlRecv_of_good {word : Word} {kind : Nat} (hcrc : fld word 0 8 = crc8 word) (hkind : fld word 60 4 = kind)
    (s : State) (stop : Nat) (f : State → State) : s.ctlRecv stop kind word f = f s := by
  simp [State.ctlRecv, hcrc, hkind]

theorem State.ctlRecv_of_crcError {word : Word} (hcrc : fld word 0 8 ≠ crc8 word) (s : State) (stop kind : Nat) (f : State → State) :
    s.ctlRecv stop kind word f = s.count (R.baseStopErr stop) 32 8 := by
  simp [State.ctlRecv, hcrc]

/-! Windows (R196, R199). -/

/-- The window granted is the lowest free one. -/
theorem State.grant_of_lowest {s : State} {r n : Nat} (hn : n < 8) (hfree : n ∉ s.windows r) (hlow : ∀ m, m < n → m ∈ s.windows r)
    (w : Nat) : s.grant r w =
      ((s.setChR r w { s.chR r w with win := some n, credits := windowPackets r, owed := 0 }).showWindows r).emit
        (.ctl r (grantWord w n (windowPackets r))) := by
  have hfind : ((rangeFrom 0 8).find? fun n => !(s.windows r).contains n) = some n := by
    rw [rangeFrom_eq_range', List.find?_range'_eq_some]
    refine ⟨by simpa using hfree, by simpa using hn, fun m _ hm => ?_⟩
    simpa using hlow m hm
  simp only [State.grant, hfind]

section
variable {s : State} {at_ from_ : Stop} {word : Word}

theorem exec_winReq_of_window {n : Nat} (hw : CtlWordFor word 2 at_.val) (hwin : (s.chR at_.val from_.val).win = some n) :
    exec (.winReq at_ from_ word) s =
      .next (s.emit (.ctl at_.val (grantWord from_.val n (s.chR at_.val from_.val).credits))) := by
  obtain ⟨hcrc, hkind, hat⟩ := hw
  show execWinReq at_ from_ word s = _
  simp [execWinReq, State.ctlRecv_of_good hcrc hkind, hat, hwin]

theorem exec_winReq_of_free (hw : CtlWordFor word 2 at_.val) (hwin : (s.chR at_.val from_.val).win = none)
    (hlen : (s.windows at_.val).length < 8) : exec (.winReq at_ from_ word) s = .next (s.grant at_.val from_.val) := by
  obtain ⟨hcrc, hkind, hat⟩ := hw
  show execWinReq at_ from_ word s = _
  simp [execWinReq, State.ctlRecv_of_good hcrc hkind, hat, hwin, hlen]

theorem exec_winReq_of_full (hw : CtlWordFor word 2 at_.val) (hwin : (s.chR at_.val from_.val).win = none)
    (hlen : 8 ≤ (s.windows at_.val).length) (hnew : from_.val ∉ s.waiting at_.val) :
    exec (.winReq at_ from_ word) s = .next (s.setWaiting at_.val (s.waiting at_.val ++ [from_.val])) := by
  obtain ⟨hcrc, hkind, hat⟩ := hw
  show execWinReq at_ from_ word s = _
  simp [execWinReq, State.ctlRecv_of_good hcrc hkind, hat, hwin, Nat.not_lt.mpr hlen, hnew]

theorem exec_winReq_of_crcError (hcrc : fld word 0 8 ≠ crc8 word) :
    exec (.winReq at_ from_ word) s = .next (s.count (R.baseStopErr at_.val) 32 8) :=
  congrArg Host.Outcome.next (State.ctlRecv_of_crcError hcrc ..)

theorem exec_winRelease_of_window (hw : CtlWordFor word 4 at_.val) (hwin : (s.chR at_.val from_.val).win.isSome = true)
    (hwait : s.waiting at_.val = []) : exec (.winRelease at_ from_ word) s =
      .next ((s.setChR at_.val from_.val { s.chR at_.val from_.val with win := none, credits := 0, owed := 0 }).showWindows at_.val) := by
  obtain ⟨hcrc, hkind, hat⟩ := hw
  obtain ⟨n, hn⟩ := Option.isSome_iff_exists.mp hwin
  have hwaiting : ∀ x, ((s.setChR at_.val from_.val x).showWindows at_.val).waiting at_.val = [] := fun _ => hwait
  show execWinRelease at_ from_ word s = _
  simp [execWinRelease, State.ctlRecv_of_good hcrc hkind, hat, hn, hwaiting]

theorem State.needWindow_of_none {w r : Nat} (hwin : (s.chW w r).win = none) (hreq : (s.chW w r).reqAt = none) :
    s.needWindow w r = s.sendWinReq w r := by
  simp [State.needWindow, hwin, hreq]

theorem exec_winReqRetry_of_due {t0 : Nat} (hreq : (s.chW at_.val from_.val).reqAt = some t0)
    (hwin : (s.chW at_.val from_.val).win = none) (hdue : 2000 ≤ s.now - t0) :
    exec (.winReqRetry at_ from_) s = .next (s.sendWinReq at_.val from_.val) := by
  show execWinReqRetry at_ from_ s = _
  simp [execWinReqRetry, hreq, hwin, hdue]

theorem exec_windowIdleRelease_of_idle (hwin : (s.chW at_.val from_.val).win.isSome = true)
    (hidle : ((s.chW at_.val from_.val).retry = [] ∧ 64 ≤ s.now - (s.chW at_.val from_.val).last) ∨
      (s.chW at_.val from_.val).flagged.isSome = true) :
    exec (.windowIdleRelease at_ from_) s =
      .next ((s.setChW at_.val from_.val { s.chW at_.val from_.val with win := none, credits := 0, flagged := none }).emit
        (.ctl at_.val (ctlWord 4 (from_.val * 2 ^ 55)))) := by
  show execWindowIdleRelease at_ from_ s = _
  have hcond : (((s.chW at_.val from_.val).win.isSome && ((s.chW at_.val from_.val).retry.isEmpty &&
      decide (64 ≤ s.now - (s.chW at_.val from_.val).last) || (s.chW at_.val from_.val).flagged.isSome)) = true) := by
    simpa [hwin] using hidle
  simp only [execWindowIdleRelease, hcond, if_true]

/-! Maps and announcements (R197, R200). -/

theorem exec_map_of_good (hcrc : fld word 0 8 = crc8 word) (hkind : fld word 60 4 = 7) :
    exec (.map at_ from_ word) s = .next (s.setChR at_.val from_.val { s.chR at_.val from_.val with
      maps := (s.chR at_.val from_.val).maps ++ [(fld word 49 2, fld word 57 3, fld word 52 5, fld word 51 1)] }) :=
  congrArg Host.Outcome.next (State.ctlRecv_of_good hcrc hkind ..)

/-- No queued map of the generation: the reader goes on with the map it uses. -/
theorem ChReader.adopt_of_absent {x : ChReader} {gen : Nat} (h : ∀ m ∈ x.maps, m.1 ≠ gen) : x.adopt gen = x := by
  have hfind : (x.maps.findIdx? fun m => decide (m.1 = gen)) = none := by simpa [List.findIdx?_eq_none_iff] using h
  simp only [ChReader.adopt, hfind]

theorem ChReader.adopt_of_only {x : ChReader} {gen : Nat} {m : Nat × Nat × Nat} (h : x.maps = [(gen, m)]) :
    x.adopt gen = { x with mapGen := gen, moved := flipMove m x.moved, maps := [] } := by
  simp [ChReader.adopt, h]

theorem exec_announce_of_named (hcrc : fld word 0 8 = crc8 word) (hkind : fld word 60 4 = 1)
    (hnamed : bit word (32 + at_.val) = true) {x : ChReader} (hx : (s.chR at_.val from_.val).adopt (fld word 22 2) = x) :
    exec (.announce at_ from_ word) s = .next (s.setChR at_.val from_.val { x with
      credits := x.credits - (fld word 16 6 + 1)
      bursts := x.bursts ++ [⟨fld word 24 8, decide (fld word 32 28 ≠ 2 ^ at_.val), fld word 16 6 + 1, x.moved, s.now⟩] }) := by
  show execAnnounce at_ from_ word s = _
  simp only [execAnnounce, State.ctlRecv_of_good hcrc hkind, hnamed, hx, Bool.not_true, Bool.false_eq_true, if_false]

/-! Bursts that wait (R203). -/

theorem State.noWait_eq (h : s.base.wait = []) : ({ s with base := { s.base with wait := [] } } : State) = s := by
  rw [← h]

theorem State.pumpBursts_of_noWait (h : s.base.wait = []) : s.pumpBursts = s := by
  rw [State.pumpBursts, h, State.noWait_eq h]
  rfl

/-- A burst behind no other is looked at alone. -/
theorem State.pumpBursts_of_added (h : s.base.wait = []) (b : WaitBurst) :
    ({ s with base := { s.base with wait := s.base.wait ++ [b] } } : State).pumpBursts = s.startBursts [b] [] := by
  show ({ s with base := { s.base with wait := [] } } : State).startBursts (s.base.wait ++ [b]) [] = _
  rw [State.noWait_eq h, h]
  rfl

theorem exec_winGrant_of_noWait (hw : CtlWordFor word 3 at_.val) (hwait : s.base.wait = []) :
    exec (.winGrant at_ from_ word) s = .next (s.setChW at_.val from_.val { s.chW at_.val from_.val with
      win := some (fld word 52 3)
      credits := fld word 43 9
      reqAt := none
      last := s.now }) := by
  obtain ⟨hcrc, hkind, hat⟩ := hw
  show execWinGrant at_ from_ word s = _
  simp only [execWinGrant, State.ctlRecv_of_good hcrc hkind, hat, ne_eq, not_true_eq_false, if_false]
  exact congrArg Host.Outcome.next (State.pumpBursts_of_noWait hwait)

end

/-! A burst of one packet for one reader (R200, R203, R209). -/

section
variable {s : State} {w r : Nat} {p : Pkt}

theorem State.hasCredits_one (hwin : (s.chW w r).win.isSome = true) (hcr : 1 ≤ (s.chW w r).credits) : s.hasCredits w 1 r = true := by
  simp [State.hasCredits, hwin, hcr]

theorem State.hasCredits_of_noWindow (hwin : (s.chW w r).win = none) (n : Nat) : s.hasCredits w n r = false := by
  simp [State.hasCredits, hwin]

/-- The path of a burst depends on the seam's state alone. -/
theorem State.bySeamLink_of_reg {t : State} (h : t.reg R.baseSeamStatus = s.reg R.baseSeamStatus) (w r : Nat) :
    t.bySeamLink w r = s.bySeamLink w r := by
  rw [State.bySeamLink, State.bySeamLink, h]

theorem State.reg_announce (s : State) (w : Nat) (readers : List Nat) (count off : Nat) :
    (s.announce w readers count).reg off = s.reg off := rfl

theorem State.launch_of_light (h : s.bySeamLink w r = false) (seq wg : Nat) (p : Pkt) :
    s.launch w r seq wg p = s.emit (.burst w r seq wg false p) := by
  simp [State.launch, h]

theorem State.launch_of_seam (h : s.bySeamLink w r = true) (seq wg : Nat) (p : Pkt) :
    s.launch w r seq wg p = { s with base := { s.base with seam := s.base.seam ++ [{
      dir := (eastStop w).toNat
      mgmt := decide (p.meshVn = 3)
      bytes := 32 + (p.data.length + 31) / 32 * 32
      writer := w
      reader := r
      seq := seq
      wg := wg
      pkt := p }] } } := by
  simp [State.launch, h]

/-- What launching a packet leaves: all but the output and the packets that wait for the seam link. -/
theorem State.launch_frame (s : State) (w r seq wg : Nat) (p : Pkt) : ∃ (seam : List SeamItem) (out : List Out),
    s.launch w r seq wg p = { s with base := { s.base with seam := seam }, out := out } := by
  cases h : s.bySeamLink w r with
  | false => exact ⟨_, _, State.launch_of_light h ..⟩
  | true => exact ⟨_, _, State.launch_of_seam h ..⟩

/-- The ANNOUNCE of one packet to one reader (R200). -/
def State.announceOne (s : State) (w r : Nat) : Out :=
  .ctl w (ctlWord 1 (2 ^ r * 2 ^ 32 + ((s.wgsUp w).foldl (fun m g => m + 2 ^ g) 0) * 2 ^ 24
    + s.rfld (R.baseStopStatus w) 2 2 * 2 ^ 22 + SMap.get (fun _ => 0) s.base.bursts w % 256 * 2 ^ 8))

/-- The fields of an ANNOUNCE that names one reader and one packet (R198). -/
theorem announceFields_one (m wg gen n : Nat) : (0 ||| m) * 2 ^ 32 + wg * 2 ^ 24 + gen * 2 ^ 22 + (1 - 1) * 2 ^ 16 + n * 2 ^ 8 =
    m * 2 ^ 32 + wg * 2 ^ 24 + gen * 2 ^ 22 + n * 2 ^ 8 := by
  rw [Nat.zero_or, Nat.sub_self, Nat.zero_mul, Nat.add_zero]

theorem State.announce_one (s : State) (w r : Nat) : ∃ n, s.announce w [r] 1 =
    ({ s with base := { s.base with bursts := n } } : State).emit (s.announceOne w r) := by
  refine ⟨SMap.set (fun _ => 0) s.base.bursts w ((SMap.get (fun _ => 0) s.base.bursts w + 1) % 256), ?_⟩
  rw [State.announceOne, ← announceFields_one]
  rfl

theorem State.sendBurst_one (s : State) (w r : Nat) (p : Pkt) :
    s.sendBurst ⟨w, [r], [p]⟩ = (s.announce w [r] 1).sendOne w r 0 p := rfl

/-- What the writer keeps of a packet it sent by a waveguide (R202). -/
def ChWriter.sent (y : ChWriter) (now wg : Nat) (p : Pkt) : ChWriter :=
  { y with
    seq := (y.seq + 1) % 2 ^ 16
    credits := y.credits - 1
    last := now
    retry := y.retry ++ [(y.seq, wg, now, 0, p)] }

/-- A burst of one packet is launched on the first waveguide in service, once it is announced and recorded. -/
theorem State.sendBurst_one_launches (s : State) (w r : Nat) (p : Pkt) : ∃ u : State,
    s.sendBurst ⟨w, [r], [p]⟩ = u.launch w r (s.chW w r).seq (nth 0 (s.wgsUp w) 0) p ∧
    u.bySeamLink w r = s.bySeamLink w r ∧ u.out = s.out ++ [s.announceOne w r] ∧ u.base.seam = s.base.seam ∧
    u.chW w r = (s.chW w r).sent s.now (nth 0 (s.wgsUp w) 0) p ∧ u.regs = s.regs ∧ u.cores = s.cores := by
  obtain ⟨n, hn⟩ := s.announce_one w r
  rw [State.sendBurst_one, hn, State.sendOne, Nat.zero_mod]
  exact ⟨_, rfl, rfl, rfl, rfl, State.chW_setChW_same .., rfl, rfl⟩

theorem State.sendBurst_one_spec (s : State) (w r : Nat) (p : Pkt) :
    let t := s.sendBurst ⟨w, [r], [p]⟩
    (s.bySeamLink w r = false → t.out = s.out ++ [s.announceOne w r, .burst w r (s.chW w r).seq (nth 0 (s.wgsUp w) 0) false p] ∧
      t.base.seam = s.base.seam) ∧
    (s.bySeamLink w r = true → t.out = s.out ++ [s.announceOne w r] ∧ t.base.seam = s.base.seam ++ [{
      dir := (eastStop w).toNat
      mgmt := decide (p.meshVn = 3)
      bytes := 32 + (p.data.length + 31) / 32 * 32
      writer := w
      reader := r
      seq := (s.chW w r).seq
      wg := nth 0 (s.wgsUp w) 0
      pkt := p }]) ∧
    t.chW w r = (s.chW w r).sent s.now (nth 0 (s.wgsUp w) 0) p ∧ t.regs = s.regs ∧ t.cores = s.cores := by
  obtain ⟨u, hu, hpath, hout, hseam, hrec, hregs, hcores⟩ := s.sendBurst_one_launches w r p
  simp only [hu]
  refine ⟨fun h => ?_, fun h => ?_, ?_⟩
  · rw [State.launch_of_light (hpath.trans h), State.emit_out, State.emit_base, hout, hseam, List.append_assoc]
    exact ⟨rfl, rfl⟩
  · rw [State.launch_of_seam (hpath.trans h), hseam]
    exact ⟨hout, rfl⟩
  · obtain ⟨seam, out, hl⟩ := u.launch_frame w r (s.chW w r).seq (nth 0 (s.wgsUp w) 0) p
    rw [hl]
    exact ⟨hrec, hregs, hcores⟩

theorem State.startBursts_one_sends (hcr : s.hasCredits w 1 r = true) (hwg : s.wgsUp w ≠ []) :
    s.startBursts [⟨w, [r], [p]⟩] [] = s.sendBurst ⟨w, [r], [p]⟩ := by
  simp [State.startBursts, hcr, hwg]

theorem State.startBursts_one_asks (hwin : (s.chW w r).win = none) (hreq : (s.chW w r).reqAt = none) (hwait : s.base.wait = []) :
    s.startBursts [⟨w, [r], [p]⟩] [] =
      { s.sendWinReq w r with base := { (s.sendWinReq w r).base with wait := [⟨w, [r], [p]⟩] } } := by
  have hno : (s.sendWinReq w r).base.wait = [] := hwait
  simp [State.startBursts, State.hasCredits_of_noWindow hwin, State.needWindow_of_none hwin hreq, hno]

/-- A writer takes a burst of one packet for one other stop: from its die, or as it is. -/
theorem exec_burstStart_one {s s1 : State} {at_ from_ : Stop} {p : Pkt} (hne : from_.val ≠ at_.val) (hup : s.stopUp at_.val = true)
    (hwg : s.wgsUp at_.val ≠ []) (hwait : s1.base.wait = [])
    (htaken : (8 ≤ at_.val ∧ s1 = s) ∨ (at_.val < 8 ∧ s.readerOk p from_.val = true ∧ s.leaveDie at_.val p = some s1)) :
    exec (.burstStart at_ [from_] [p]) s = .next (s1.startBursts [⟨at_.val, [from_.val], [p]⟩] []) := by
  have hreaders : (([from_].map (·.val)).eraseDups.filter fun r => decide (r ≠ at_.val)) = [from_.val] := by
    simp [List.eraseDups_cons, hne]
  rw [← State.pumpBursts_of_added hwait]
  show execBurstStart at_ [from_] [p] s = _
  rw [execBurstStart, hreaders]
  obtain ⟨h8, rfl⟩ | ⟨h8, hok, hleave⟩ := htaken
  · simp [hup, hwg, h8]
  · simp [hup, hwg, Nat.not_le.mpr h8, hok, hleave]

end

/-! A packet of a burst at its reader (R200 to R202, R205, R208). -/

section
variable {s : State} {r w : Stop} {seq : Nat} {p : Pkt}

theorem State.traceRecv_of_free (h : s.sramOwner = 0) (w r seq ns : Nat) (cast : Bool) (p : Pkt) :
    s.traceRecv w r seq ns cast p = s := by
  simp [State.traceRecv, h]

/-- Nothing is held: the expected packet is delivered alone. -/
theorem deliverHeld_expected (e : Nat) (p : Pkt) : deliverHeld 1 e [(e, p)] = ((e + 1) % 2 ^ 16, [], [p]) := by
  simp [deliverHeld]

/-- Passing a packet into a die changes only the reply slots, what waits for one, and the output. -/
theorem State.intoDie_frame (s : State) (d : Nat) (p : Pkt) : ∃ (slots : SMap Nat) (slotWait : SMap (List Pkt)) (out : List Out),
    s.intoDie d p = { s with base := { s.base with slots := slots, slotWait := slotWait }, out := out } := by
  unfold State.intoDie
  split
  · split <;> exact ⟨_, _, _, rfl⟩
  · split
    · exact ⟨_, _, _, rfl⟩
    · dsimp only
      split <;> exact ⟨_, _, _, rfl⟩

theorem State.delivered_frame (s : State) (r : Nat) (p : Pkt) : ∃ (slots : SMap Nat) (slotWait : SMap (List Pkt)) (out : List Out),
    s.delivered r p = { s with base := { s.base with slots := slots, slotWait := slotWait }, out := out } := by
  unfold State.delivered
  split
  · exact s.intoDie_frame r p
  · exact ⟨_, _, _, rfl⟩

theorem State.delivered_of_stays {r : Nat} (h : 8 ≤ r ∨ s.goesIn p = false) : s.delivered r p = s.emit (.pkt p) := by
  have hnot : ¬ (r < 8 ∧ s.goesIn p = true) := by
    rintro ⟨h8, hin⟩
    obtain h | h := h
    · omega
    · simp [hin] at h
  rw [State.delivered, if_neg hnot]

theorem State.enterDie_eq (s : State) (d : Nat) (p : Pkt) :
    s.enterDie d p = s.emit (.mesh (s.ingressAt d p).1 (s.ingressAt d p).2 p) := rfl

/-- A request goes into a running die by its ingress and takes a reply slot (R205, R213). -/
theorem State.delivered_of_enters {r : Nat} (h8 : r < 8) (hin : s.goesIn p = true) (hvn : p.meshVn = 0) (hup : s.dieUp r = true)
    (hslot : SMap.get (fun _ => 0) s.base.slots r < 4096) :
    (s.delivered r p).out = s.out ++ [.mesh (s.ingressAt r p).1 (s.ingressAt r p).2 p] ∧
      SMap.get (fun _ => 0) (s.delivered r p).base.slots r = SMap.get (fun _ => 0) s.base.slots r + 1 := by
  rw [State.delivered, if_pos ⟨h8, hin⟩]
  simp only [State.intoDie, hvn, hup, replySlots, hslot, ne_eq, not_true_eq_false, Bool.not_true, Bool.false_eq_true, if_false,
    if_true, State.enterDie_eq, State.emit_out, State.emit_base, SMap.get_set_same, and_true]
  rfl

/-- The reader's ACK (R202), where it expects the packet after `seq`. -/
theorem State.ack_of_expect {s : State} {r w : Nat} {x : ChReader} (hx : s.chR r w = x) (hseq : seq < 2 ^ 16)
    (he : x.expect = (seq + 1) % 2 ^ 16) : s.ack r w =
      (s.setChR r w { x with credits := x.credits + x.owed, owed := 0 }).emit
        (.ctl r (ctlWord 5 (w * 2 ^ 55 + seq * 2 ^ 39 + x.owed * 2 ^ 30 + (!(s.waiting r).isEmpty).toNat * 2 ^ 29))) := by
  have hupto : (x.expect + 2 ^ 16 - 1) % 2 ^ 16 = seq := by omega
  rw [State.ack, hx, hupto]
  rfl

theorem exec_chometPacket_of_parked (h : (s.chR r.val w.val).bursts = []) (ok : Bool) :
    exec (.chometPacket r w seq ok p) s = .next s := by
  show execChometPacket r w seq ok p s = _
  simp only [execChometPacket, h]

theorem exec_chometPacket_of_crcError {b : ChBurst} {more : List ChBurst} (hb : (s.chR r.val w.val).bursts = b :: more)
    (hseq : seq < 2 ^ 16) : exec (.chometPacket r w seq false p) s =
      .next (((s.setChR r.val w.val { s.chR r.val w.val with
        bursts := endOne (b :: more)
        owed := (s.chR r.val w.val).owed + 1 }).count (R.baseStopErr r.val) 40 24).emit
          (.ctl r.val (ctlWord 6 (w.val * 2 ^ 55 + seq * 2 ^ 39)))) := by
  show execChometPacket r w seq false p s = _
  simp only [execChometPacket, hb, Nat.mod_eq_of_lt hseq, Bool.not_false, if_true]

theorem exec_chometPacket_of_duplicate {b : ChBurst} {more : List ChBurst} (hb : (s.chR r.val w.val).bursts = b :: more)
    (hfree : s.sramOwner = 0) (hdup : 2 ^ 15 ≤ (seq + 2 ^ 16 - (s.chR r.val w.val).expect) % 2 ^ 16) :
    exec (.chometPacket r w seq true p) s =
      .next ((s.setChR r.val w.val { s.chR r.val w.val with
        bursts := endOne (b :: more)
        owed := (s.chR r.val w.val).owed + 1 }).ack r.val w.val) := by
  show execChometPacket r w seq true p s = _
  simp only [execChometPacket, hb, State.traceRecv_of_free hfree, hdup, true_or, Bool.not_true, Bool.false_eq_true, if_false, if_true]

/-- What a reader keeps of a burst's expected packet before it acknowledges it. -/
def ChReader.taken (x : ChReader) (seq : Nat) : ChReader :=
  { x with bursts := endOne x.bursts, expect := (seq + 1) % 2 ^ 16, owed := x.owed + 1 }

theorem exec_chometPacket_of_expected (hb : (s.chR r.val w.val).bursts ≠ []) (hfree : s.sramOwner = 0)
    (hheld : (s.chR r.val w.val).held = []) (he : (s.chR r.val w.val).expect = seq) (hseq : seq < 2 ^ 16) :
    exec (.chometPacket r w seq true p) s =
      .next (((s.setChR r.val w.val ((s.chR r.val w.val).taken seq)).delivered r.val p).ack r.val w.val) := by
  obtain ⟨b, more, hb⟩ := List.exists_cons_of_ne_nil hb
  have hahead : ¬ 2 ^ 15 ≤ (seq + 2 ^ 16 - seq) % 2 ^ 16 := by omega
  show execChometPacket r w seq true p s = _
  simp only [execChometPacket, hb, State.traceRecv_of_free hfree, hheld, he, hahead, Nat.mod_eq_of_lt hseq, List.any_nil,
    Bool.not_true, Bool.false_eq_true, or_self, if_false, List.length_nil, Nat.zero_add, List.nil_append, deliverHeld_expected,
    List.isEmpty_cons, List.foldl_cons, List.foldl_nil, List.length_singleton, ChReader.taken]

/-- Taking a packet acknowledges it: what the reader then holds for the writer, and what it sends behind the delivery. -/
theorem State.ack_delivered_spec (s : State) (r w : Nat) (x : ChReader) (hseq : seq < 2 ^ 16) (p : Pkt) :
    let u := s.setChR r w (x.taken seq)
    let t := (u.delivered r p).ack r w
    t.chR r w = { x.taken seq with credits := x.credits + (x.owed + 1), owed := 0 } ∧
      t.out = (u.delivered r p).out ++ [.ctl r (ctlWord 5 (w * 2 ^ 55 + seq * 2 ^ 39 + (x.owed + 1) * 2 ^ 30
        + (!(s.waiting r).isEmpty).toNat * 2 ^ 29))] ∧
      t.base.slots = (u.delivered r p).base.slots ∧ t.regs = s.regs ∧ t.cores = s.cores := by
  intro u t
  obtain ⟨slots, slotWait, out, hd⟩ := u.delivered_frame r p
  have hx : (u.delivered r p).chR r w = x.taken seq := by
    rw [hd]
    exact State.chR_setChR_same ..
  have ht : t = _ := State.ack_of_expect hx hseq rfl
  rw [ht, hd]
  exact ⟨State.chR_setChR_same .., rfl, rfl, rfl, rfl⟩

end

/-! Acknowledgements (R199, R202, R203). -/

section
variable {s : State} {at_ from_ : Stop} {word : Word}

/-- Is a seq at or before the one that an ACK names? -/
def ackedBy (word : Word) (q : Nat) : Bool := decide ((fld word 39 16 + 2 ^ 16 - q) % 2 ^ 16 < 2 ^ 15)

/-- What a writer holds for a reader after an ACK that flags nobody. -/
def ChWriter.acked (y : ChWriter) (word : Word) : ChWriter :=
  { y with
    retry := y.retry.filter fun e => !ackedBy word e.1
    credits := y.credits + fld word 30 9
    flagged := none }

theorem exec_chometAck_of_noWait (hw : CtlWordFor word 5 at_.val) (hflag : bit word 29 = false) (hwait : s.base.wait = []) :
    exec (.chometAck at_ from_ word) s =
      .next ((s.setChW at_.val from_.val ((s.chW at_.val from_.val).acked word)).castAck at_.val from_.val (ackedBy word)) := by
  obtain ⟨hcrc, hkind, hat⟩ := hw
  show execChometAck at_ from_ word s = _
  simp only [execChometAck, State.ctlRecv_of_good hcrc hkind, hat, hflag, ne_eq, not_true_eq_false, if_false, Bool.false_eq_true]
  exact congrArg Host.Outcome.next (State.pumpBursts_of_noWait hwait)

theorem State.castAck_of_none {w r : Nat} {done : Nat → Bool} (h : s.base.casts = []) :
    (s.castAck w r done).base.casts = [] ∧
      SMap.get (fun _ => 0) (s.castAck w r done).base.delivered w = SMap.get (fun _ => 0) s.base.delivered w := by
  simp [State.castAck, h]

/-- The last reader's acknowledgement ends a multicast, which counts as delivered. -/
theorem State.castAck_of_last {w r q : Nat} {done : Nat → Bool} (h : s.base.casts = [⟨w, [(r, q)]⟩]) (hq : done q = true) :
    (s.castAck w r done).base.casts = [] ∧
      SMap.get (fun _ => 0) (s.castAck w r done).base.delivered w = SMap.get (fun _ => 0) s.base.delivered w + 1 := by
  simp [State.castAck, h, hq]

end

/-! Resends (R200, R202, R209, R219). -/

section
variable {s : State} {w r seq wg t0 n : Nat} {p : Pkt}

/-- What a writer keeps once it sends a packet of its retry buffer again. -/
def ChWriter.resent (y : ChWriter) (seq wg now n : Nat) (p : Pkt) : ChWriter :=
  { y with
    credits := y.credits - 1
    retry := y.retry.map fun e => if e.1 = seq then (seq, wg, now, n, p) else e }

/-- A packet sent again is counted at its writer and in the ledger. -/
def State.resendCounted (s : State) (w r seq wg n : Nat) (p : Pkt) : State :=
  ((s.setChW w r ((s.chW w r).resent seq wg s.now n p)).count (R.baseStopErr w) 0 32).ledger 27

theorem State.reg_ledger (s : State) (i off : Nat) : (s.ledger i).reg off = s.reg off := rfl

theorem State.reg_resendCounted_other {off : Nat} (h : off ≠ R.baseStopErr w) :
    (s.resendCounted w r seq wg n p).reg off = s.reg off := by
  rw [State.resendCounted, State.reg_ledger, State.reg_count_other _ _ _ h]
  rfl

theorem R.baseSeamStatus_ne_baseStopErr (hw : w < 28) : R.baseSeamStatus ≠ R.baseStopErr w := by
  unfold R.baseSeamStatus R.baseStopErr
  omega

/-- Counting a resend, across the seam too, leaves the path of its burst. -/
theorem State.bySeamLink_resend (hw : w < 28) : ((if crossesSeam w r then (s.resendCounted w r seq wg n p).count R.baseSeamErr 0 32
    else s.resendCounted w r seq wg n p).announce w [r] 1).bySeamLink w r = s.bySeamLink w r := by
  have hreg := State.reg_resendCounted_other (s := s) (r := r) (seq := seq) (wg := wg) (n := n) (p := p)
    (R.baseSeamStatus_ne_baseStopErr hw)
  refine State.bySeamLink_of_reg ?_ w r
  rw [State.reg_announce]
  split
  · exact (State.reg_count_other _ 0 32 (by decide)).trans hreg
  · exact hreg

theorem State.resend_of_noWindow (hfind : (s.chW w r).retry.find? (fun e => decide (e.1 = seq)) = some (seq, wg, t0, n, p))
    (hwin : (s.chW w r).win = none) (hreq : (s.chW w r).reqAt = none) : s.resend w r seq = s.sendWinReq w r := by
  simp [State.resend, hfind, State.hasCredits_of_noWindow hwin, State.needWindow_of_none hwin hreq]

/-- Up to the eighth time a packet is sent again on its own waveguide. -/
theorem State.resend_of_light (hw : w < 28) (hfind : (s.chW w r).retry.find? (fun e => decide (e.1 = seq)) = some (seq, wg, t0, n, p))
    (hn : n < 8) (hwg : s.wgsUp w ≠ []) (hwin : (s.chW w r).win.isSome = true) (hcr : 1 ≤ (s.chW w r).credits)
    (hlight : s.bySeamLink w r = false) : s.resend w r seq =
      ((if crossesSeam w r then (s.resendCounted w r seq wg (n + 1) p).count R.baseSeamErr 0 32
        else s.resendCounted w r seq wg (n + 1) p).announce w [r] 1).emit (.burst w r seq wg false p) := by
  have hup : (s.wgsUp w).isEmpty = false := by simpa using hwg
  rw [← State.launch_of_light ((State.bySeamLink_resend hw).trans hlight)]
  simp only [State.resend, hfind, State.hasCredits_one hwin hcr, Nat.not_le.mpr hn, hup, Bool.not_true, Bool.false_eq_true, if_false]
  rfl

end

section
variable {s : State} {at_ from_ : Stop} {seq wg t0 n : Nat} {p : Pkt}

theorem exec_chometNak_of_good {word : Word} (hw : CtlWordFor word 6 at_.val) (hseq : fld word 39 16 = seq) :
    exec (.chometNak at_ from_ word) s = .next (s.resend at_.val from_.val seq) := by
  obtain ⟨hcrc, hkind, hat⟩ := hw
  show execChometNak at_ from_ word s = _
  simp [execChometNak, State.ctlRecv_of_good hcrc hkind, hat, hseq]

theorem exec_chometResendTimeout_of_due
    (hfind : (s.chW at_.val from_.val).retry.find? (fun e => decide (e.1 = seq)) = some (seq, wg, t0, n, p))
    (hdue : 1000 ≤ s.now - t0) : exec (.chometResendTimeout at_ from_ seq) s = .next (s.resend at_.val from_.val seq) := by
  show execChometResendTimeout at_ from_ seq s = _
  simp [execChometResendTimeout, hfind, hdue]

end

/-- Settles O34: each command is one operation of the writer or the reader, and what these leave is stated above. -/
theorem chometCommands : Obligations.ChometCommands := by
  refine ⟨?_, ?_, ?_, ?_⟩
  · intro s at_ from_ word r w x y good
    have hfor : ∀ {kind}, good kind → kind ≠ 1 → kind ≠ 7 → CtlWordFor word kind r := fun ⟨hcrc, hkind, hat⟩ h1 h7 =>
      ⟨hcrc, hkind, (hat.resolve_left h1).resolve_left h7⟩
    refine ⟨fun h hwin hlen n hn hfree hlow => ?_,
      fun n h => exec_winReq_of_window (hfor h (by decide) (by decide)),
      fun h => exec_winReq_of_full (hfor h (by decide) (by decide)),
      fun h => exec_winGrant_of_noWait (hfor h (by decide) (by decide)),
      fun h => exec_winRelease_of_window (hfor h (by decide) (by decide)),
      fun ⟨hcrc, hkind, _⟩ => exec_map_of_good hcrc hkind,
      fun ⟨hcrc, hkind, _⟩ hnamed => ⟨fun hmaps => ?_, fun m hmaps => ?_⟩,
      exec_winReq_of_crcError, fun t0 => exec_winReqRetry_of_due, exec_windowIdleRelease_of_idle, ?_⟩
    · rw [exec_winReq_of_free (hfor h (by decide) (by decide)) hwin hlen, State.grant_of_lowest hn hfree hlow]
    · exact exec_announce_of_named hcrc hkind hnamed (ChReader.adopt_of_absent hmaps)
    · exact exec_announce_of_named hcrc hkind hnamed (ChReader.adopt_of_only hmaps)
    · intro s1 p hne hup hwg hwait htaken y gs ann hgs
      have hexec := exec_burstStart_one hne hup hwg hwait htaken
      refine ⟨fun hwin hcr => ⟨_, ?_, s1.sendBurst_one_spec r w p⟩, fun hwin hreq => ?_⟩
      · rw [hexec, State.startBursts_one_sends (State.hasCredits_one hwin hcr) hgs]
      · rw [hexec, State.startBursts_one_asks hwin hreq hwait]
        rfl
  · intro s r w seq p x
    refine ⟨exec_chometPacket_of_parked, ?_⟩
    intro b more hb hseq y ack
    refine ⟨fun hfree hheld he => ?_, exec_chometPacket_of_crcError hb hseq, exec_chometPacket_of_duplicate hb⟩
    have hne : x.bursts ≠ [] := by simp [hb]
    let u := s.setChR r.val w.val (x.taken seq)
    obtain ⟨hrd, hout, hslots, hregs, hcores⟩ := s.ack_delivered_spec r.val w.val x hseq p
    refine ⟨_, exec_chometPacket_of_expected hne hfree hheld he hseq, ?_, fun hstays => ?_, fun h8 hin hvn hup hslot => ?_, hregs,
      hcores⟩
    · rw [hrd, ChReader.taken, hb]
      rfl
    · rw [hout, State.delivered_of_stays (s := u) hstays]
      exact List.append_assoc ..
    · obtain ⟨hmesh, htaken⟩ := State.delivered_of_enters (s := u) h8 hin hvn hup hslot
      rw [hout, hslots, hmesh, htaken]
      exact ⟨List.append_assoc .., rfl⟩
  · intro s at_ from_ word y done hcrc hkind hat hflag hwait
    exact ⟨_, exec_chometAck_of_noWait ⟨hcrc, hkind, hat⟩ hflag hwait, rfl, State.chW_setChW_same .., rfl, rfl, hwait,
      State.castAck_of_none, fun q => State.castAck_of_last⟩
  · intro s at_ from_ seq wg t0 n p w r y hfind hn hwg nak
    have hnak : ∀ word : Word, nak word → exec (.chometNak at_ from_ word) s = .next (s.resend w r seq) :=
      fun word ⟨hcrc, hkind, hat, hseq⟩ => exec_chometNak_of_good ⟨hcrc, hkind, hat⟩ hseq
    have hdue : 1000 ≤ s.now - t0 → exec (.chometResendTimeout at_ from_ seq) s = .next (s.resend w r seq) :=
      exec_chometResendTimeout_of_due hfind
    refine ⟨fun hwin hcr hlight => ?_, fun hwin hreq => ?_⟩
    · rw [State.resend_of_light at_.isLt hfind hn hwg hwin hcr hlight] at hnak hdue
      exact ⟨hnak, hdue⟩
    · rw [State.resend_of_noWindow hfind hwin hreq] at hnak hdue
      exact ⟨hnak, hdue⟩

end Sys2Proof.Machine
